-- ==== Sys2Proof/Word.lean ====
section
/-! DEFINITION. The byte of frames and of the configuration image, and the numbers of channels and stations. -/

namespace Sys2Proof

/-- One byte of a frame payload (R171) or of the configuration image (R172). -/
abbrev Byte := BitVec 8

/-- A channel number, 0–15 (Conventions, "Numbering"). -/
abbrev Chan := Fin 16

/-- A station number, 0–15 (Conventions, "Numbering"). -/
abbrev Stn := Fin 16

/-- A load class, 0–3 (Conventions, "Numbering"). -/
abbrev Cls := Fin 4

/-- The sixteen channel numbers, ascending. -/
def allChans : List Chan := List.finRange 16

/-- The sixteen station numbers, ascending. -/
def allStns : List Stn := List.finRange 16

end Sys2Proof
end

