-- ==== Sys2Proof/Syntax.lean ====
section
/-! DEFINITION. The commands: one constructor per row of spec/opcode_table.json, with the row's operands. -/

namespace Sys2Proof

/-- What a station-number strap is tied to; one left open reads as 1 (R162). -/
inductive Strap where
  | low | high | floating
  deriving DecidableEq, Repr

/-- The four straps STN0–STN3 (R162). -/
structure Straps where
  stn0 : Strap
  stn1 : Strap
  stn2 : Strap
  stn3 : Strap
  deriving DecidableEq, Repr

/-- The levels of the direct inputs DIN0–DIN3, `true` for a high pin (R66, R74). -/
structure DinLevels where
  din0 : Bool
  din1 : Bool
  din2 : Bool
  din3 : Bool
  deriving DecidableEq, Repr

/-- The pins a period or epoch start reads: the direct inputs at every period start (R74) and CHARGE at
every budget evaluation (R118). -/
structure Inputs where
  din : DinLevels
  charge : Bool
  deriving DecidableEq, Repr

/-- Reservation type (R104, R171). -/
inductive ResType where
  | ordinary | announce
  deriving DecidableEq, Repr

/-- The frame kinds whose payload length is checked by R86. -/
inductive FixedKind where
  | mark | reserve | release | status | query
  deriving DecidableEq, Repr

/-- The parts of an epoch start that the blocks may take in more than one order (R12, R14, R26, R45, R102,
R110, R142, R147). The last seven are the waits that end at a count: a part not named in an `EpochOrder` is
left to its own row of the table. -/
inductive EpochTask where
  /-- The shadow duties are copied at the period start (R26). -/
  | loadDuties
  /-- The direct inputs are read at the period start (R74). -/
  | readInputs
  /-- Draws, markers and class draws are closed (R44–R46). -/
  | closeMeasurement
  /-- The epoch mean supply is tested (R59, R61). -/
  | supplyTest
  /-- The resolution of the epoch start or of a realignment (R73). -/
  | signals
  /-- The budget evaluation (R117). -/
  | budget
  /-- Budget evaluated at the Turn-On Scheduler: admission and selection (R134, R141, R145). -/
  | admission
  /-- Inrush windows that have ended (R12, row INRUSH_WINDOW_END). -/
  | windowEnds
  /-- Retry timers that have expired (R14, row RETRY_DUE). -/
  | retries
  /-- ON-epoch counts that stand at 50 (R56, row ATTEMPT_RESET). -/
  | attemptResets
  /-- Presence of peers by their age (R101, rows PEER_STALE and PEER_ABSENT). -/
  | peerPresence
  /-- Removal of entries whose hold has run out (R108, row HOLD_RUNS_OUT). -/
  | holdRemovals
  /-- The publication due at a count of 8 (R75, row PERIODIC_PUBLICATION). -/
  | publication
  /-- ISOLATED at a silence count of 10 (R94, row ISOLATED_ENTRY). -/
  | isolation
  deriving DecidableEq, Repr

/-- The order in which the blocks take one epoch start. Every order of whole parts that the rules allow can be given.
DESIGN CHOICE, safe (log entry 3). -/
structure EpochOrder where
  /-- The Turn-On Scheduler reads the class 0 windows before the Channel Controller lowers them (R150). -/
  schedulerFirst : Bool
  /-- The parts in the order they are taken. A part named twice is taken once; a part of the epoch start
  proper that is not named is taken after the named ones, in the order of `EpochTask`. -/
  tasks : List EpochTask
  /-- The parts that the channels take while the budget evaluation is under way, in the order of the moments it leaves between its
  readings and its orders (R127): before it reads the channels for low-supply shedding, for the cut of a class or for a restore
  step, and for each order before it is formed and again before it arrives. Each moment takes one entry; those left over are
  taken after the last order. A part also named in `tasks` is taken there, and one that no channel takes is passed over. -/
  within : List (List EpochTask) := []
  /-- The parts that the channels take between the sending of a grant and its arrival (R9, R145), in order; where no grant is sent, after
  the admission decision. A part also named in `tasks` or `within` is taken there, and one that no channel takes is passed over. -/
  granting : List EpochTask := []
  deriving DecidableEq, Repr

/-- The parts that act at the channels and so may come between the reading of a channel and its order, or between a grant and its
arrival (R9, R26, R127). -/
def EpochTask.atChannels : EpochTask → Bool
  | .loadDuties => true
  | .readInputs => true
  | .signals => true
  | .windowEnds => true
  | .retries => true
  | .attemptResets => true
  | .closeMeasurement => false
  | .supplyTest => false
  | .budget => false
  | .admission => false
  | .peerPresence => false
  | .holdRemovals => false
  | .publication => false
  | .isolation => false

/-- The samples of an idle of exactly 11 recessive bits (R79). -/
def idleBits : List (Bool × Bool) := List.replicate 11 (true, true)

/-- One command of spec/opcode_table.json. -/
inductive Instr where
  /-- RESET (R161). -/
  | reset
  /-- HOLD_ENDS (R161, R162). -/
  | holdEnds (straps : Straps)
  /-- READ_STOPS (R163): what the configuration memory returns from address 0, and the direct inputs at the
  first period start of the load end it leads to (R169). -/
  | readStops (memory : List Byte) (din : DinLevels)
  /-- PERIOD_COMPLETED (R23). -/
  | periodCompleted (inp : Inputs) (ord : EpochOrder)
  /-- OWN_EXPIRY (R31). -/
  | ownExpiry (inp : Inputs) (ord : EpochOrder)
  /-- SIGNAL_EXPIRY (R68) of the entry with this key. -/
  | signalExpiry (source : Stn) (signal : Fin 64)
  /-- PEER_STALE (R101). -/
  | peerStale (p : Stn)
  /-- PEER_ABSENT (R101). -/
  | peerAbsent (p : Stn)
  /-- HOLD_RUNS_OUT (R108) of the entry of this station and type. -/
  | holdRunsOut (station : Stn) (ty : ResType)
  /-- INRUSH_WINDOW_END (R12). -/
  | inrushWindowEnd (c : Chan)
  /-- RETRY_DUE (R14). -/
  | retryDue (c : Chan)
  /-- ATTEMPT_RESET (R56). -/
  | attemptReset (c : Chan)
  /-- PERIODIC_PUBLICATION (R75). -/
  | periodicPublication
  /-- ISOLATED_ENTRY (R94). -/
  | isolatedEntry
  /-- CURRENT_SAMPLE (R42): the current flowing at the sample step, in dA. -/
  | currentSample (c : Chan) (current : Nat)
  /-- SUPPLY_SAMPLE (R58): the voltage at step 128, in dV. -/
  | supplySample (voltage : Nat)
  /-- SHORT (R49): the instantaneous current of the output at a step, in dA. -/
  | short (c : Chan) (step : Nat) (current : Nat)
  /-- THERMAL (R50): the switch's over-temperature report is present at a step. -/
  | thermal (c : Chan) (step : Nat)
  /-- ISOLATE_CHANGE (R19): the new level of the ISOLATE input. -/
  | isolateChange (high : Bool)
  /-- LINE_IDLE (R79, R81): the two samples of each bit read since the count last began, at the end bits of a frame, at the
  end of a reception or an attempt, or at load end, `true` for recessive; 11 recessive bits where none are written. -/
  | lineIdle (bits : List (Bool × Bool) := idleBits)
  /-- CONTENTION_LOST (R82) at a frame bit, counted from the start bit as bit 1 (R170). -/
  | contentionLost (bit : Nat)
  /-- ABORT (R83) at a frame bit, counted from the start bit as bit 1 (R170). -/
  | abort (bit : Nat)
  /-- TRANSMIT_COMPLETION (R84). -/
  | transmitCompletion
  /-- DISCARDED_RECEPTION (R79, R85): the two samples of each bit from the start bit on, and those of each bit read before it
  since the count last began, `true` for recessive; 11 recessive bits where none are written. -/
  | discardedReception (samples : List (Bool × Bool)) (before : List (Bool × Bool) := idleBits)
  /-- MARK_RECEIVED (R34). -/
  | markReceived (sender : Stn) (payload : List Byte) (inp : Inputs) (ord : EpochOrder)
  /-- RESERVE_RECEIVED (R105). -/
  | reserveReceived (sender : Stn) (payload : List Byte)
  /-- RELEASE_RECEIVED (R106). -/
  | releaseReceived (sender : Stn) (payload : List Byte)
  /-- STATUS_RECEIVED (R100). -/
  | statusReceived (sender : Stn) (payload : List Byte)
  /-- SIGNAL_RECEIVED (R67). -/
  | signalReceived (sender : Stn) (payload : List Byte)
  /-- REPORT_FRAME_RECEIVED (R86). -/
  | reportFrameReceived (sender : Stn) (payload : List Byte)
  /-- KIND_7_FRAME_RECEIVED (R86). -/
  | kind7FrameReceived (sender : Stn) (payload : List Byte)
  /-- SUMMARY (R157). -/
  | summary (sender target : Stn) (arg : Byte)
  /-- CHANNEL (R158). -/
  | channel (sender target : Stn) (arg : Byte)
  /-- PEER (R158). -/
  | peer (sender target : Stn) (arg : Byte)
  /-- LINK (R157). -/
  | link (sender target : Stn) (arg : Byte)
  /-- CLEAR (R159). -/
  | clear (sender target : Stn) (arg : Byte)
  /-- CLEAR_ALL (R159). -/
  | clearAll (sender target : Stn) (arg : Byte)
  /-- RECORD (R158). -/
  | record (sender target : Stn) (arg : Byte)
  /-- QUERY_IGNORED (R155): the two payload bytes of the QUERY. -/
  | queryIgnored (sender : Stn) (b0 b1 : Byte)
  /-- PAYLOAD_LENGTH_DISCARD (R86). -/
  | payloadLengthDiscard (kind : FixedKind) (sender : Stn) (payload : List Byte)
  deriving DecidableEq, Repr

end Sys2Proof
end

