-- ==== Sys2Proof/Decode.lean ====
section
/-! DEFINITION. The command a word spells by the bits of spec/opcode_table.json. No row of the table has bits
(every "fields" is empty), so no word spells a command (log entry 21). Which command a frame on the line comes as, by its kind
code (R171), is Machine/Receiver.lean; the layouts of frame payloads are Machine/Payloads.lean, of the configuration image
(R172) Machine/Image.lean. -/

namespace Sys2Proof

/-- No row of the table gives bits: every word is turned away. -/
def decodeTableWord (_nbits _w : Nat) : Option Instr := none

end Sys2Proof
end

