-- ==== Sys2Proof/Config.lean ====
section
/-! DEFINITION. The shape of the configuration that an installation fixes: station parameters, channel records
and binding records. The fixed LIMP values are Machine/Image.lean. The spec leaves no value undefined, so there is
no free value here. -/

namespace Sys2Proof

/-- Channel mode (R1). -/
inductive Mode where
  | dc | pwm
  deriving DecidableEq, Repr

/-- What follows at the retry limit (R1, R52). -/
inductive LimitAction where
  | latch | persist
  deriving DecidableEq, Repr

/-- How an input value becomes a contribution (R70). -/
inductive Transform where
  | direct | switch | invert | flash
  deriving DecidableEq, Repr

/-- What stands for an expired value (R69). -/
inductive Fallback where
  | hold | level
  deriving DecidableEq, Repr

/-- One channel configuration record (R1). -/
structure ChannelConfig where
  enabled : Bool
  mode : Mode
  cls : Cls
  shedRank : Nat
  steadyLimit : Nat
  inrushLimit : Nat
  window : Nat
  amount : Nat
  minDuty : Nat
  openThreshold : Nat
  retryBase : Nat
  retryLimit : Nat
  limitAction : LimitAction
  deriving DecidableEq, Repr

/-- The station parameters (R165). -/
structure Params where
  limitRun : Nat
  limitBatt : Nat
  limitAlone : Nat
  guardBand : Nat
  hysteresis : Nat
  restoreStep : Nat
  vLow : Nat
  vCut : Nat
  lifetime : Nat
  rotationN : Nat
  expected : BitVec 16
  peerAllowance : Nat
  dinPublish : Bool
  deriving DecidableEq, Repr

/-- One binding record (R64). -/
structure Binding where
  source : Stn
  signal : Fin 64
  chan : Chan
  transform : Transform
  threshold : Nat
  fallback : Fallback
  fallbackLevel : Nat
  deriving DecidableEq, Repr

/-- The loaded configuration but for the binding records, whose home is the Binding Table (R161, R64). -/
structure Configuration where
  params : Params
  records : Vector ChannelConfig 16
  deriving DecidableEq, Repr

end Sys2Proof
end

