-- ==== Sys2Proof/Machine/Image.lean ====
section
/-! DEFINITION. The configuration image: what the serial read leaves in the buffer (R163), the three checks (R164),
the layout (R172), clamping (R165–R167), and the fixed LIMP configuration (R168). -/

namespace Sys2Proof.Machine

/-- Byte `i` of the memory. Where the memory gives nothing, the internal pull-up reads as 255 (R163). -/
def memoryByte (memory : List Byte) (i : Nat) : Byte := memory.getD i 255

/-- The length the format lays down for a binding count (R172). -/
def imageLength (bindings : Nat) : Nat := 222 + 6 * bindings

/-- Byte `i` of the image buffer as a number. -/
def imageByte (image : List Byte) (i : Nat) : Nat := (image.getD i 0).toNat

/-- The two bytes at `i`, most significant first (R172). -/
def imageWord (image : List Byte) (i : Nat) : Nat := imageByte image i * 256 + imageByte image (i + 1)

/-- The format check of R164. -/
def formatOk (image : List Byte) : Bool := imageByte image 0 = 1

/-- The length check of R164, with the length of R172. -/
def lengthOk (image : List Byte) : Bool :=
  imageByte image 3 ≤ 48 && imageWord image 1 ≤ 512 && imageWord image 1 = imageLength (imageByte image 3)

/-- The first `n` bytes the memory returns from address 0, in the order read (R163). -/
def readBytes (memory : List Byte) (n : Nat) : List Byte := (List.range n).map (memoryByte memory)

/-- The image buffer when the read stops: the header alone where the format or the length is wrong, otherwise as
many bytes as the length gives (R163, R172). -/
def readImage (memory : List Byte) : List Byte :=
  let header := readBytes memory 4
  if formatOk header && lengthOk header then readBytes memory (imageWord header 1) else header

/-- Sum of every byte before the sum field, modulo 65 536 (R164, R172). -/
def imageSum (image : List Byte) : Nat :=
  ((image.take (220 + 6 * imageByte image 3)).map BitVec.toNat).sum % 65536

/-- The sum check of R164. -/
def sumOk (image : List Byte) : Bool := imageSum image = imageWord image (220 + 6 * imageByte image 3)

/-- The three checks in their order (R164). -/
def imageAccepted (image : List Byte) : Bool := formatOk image && (lengthOk image && sumOk image)

/-- A two-byte parameter that has a default: the all-ones value takes it, any other is held to the range (R165). -/
def withDefault (v dflt hi : Nat) : Nat := if v = 65535 then dflt else min v hi

/-- The restore step: all ones 16, 0 takes 1, above 64 takes 64 (R165). -/
def clampRestoreStep (v : Nat) : Nat := if v = 255 then 16 else max 1 (min v 64)

/-- The signal lifetime: all ones 10, below 2 takes 2, above 255 takes 255 (R165). -/
def clampLifetime (v : Nat) : Nat := if v = 65535 then 10 else max 2 (min v 255)

/-- The station parameters in force (R165) from bytes 4–27 (R172). V_LOW is clamped first, V_CUT against it. -/
def imageParams (image : List Byte) : Params :=
  let vLow := withDefault (imageWord image 16) 220 390
  let vCut := withDefault (imageWord image 18) 160 65535
  { limitRun := withDefault (imageWord image 4) 1600 4095
    limitBatt := withDefault (imageWord image 6) 1000 4095
    limitAlone := withDefault (imageWord image 8) 400 4095
    guardBand := withDefault (imageWord image 10) 50 4095
    hysteresis := withDefault (imageWord image 12) 100 4095
    restoreStep := clampRestoreStep (imageByte image 14)
    vLow := vLow
    vCut := min vCut vLow
    lifetime := clampLifetime (imageWord image 20)
    rotationN := min (imageByte image 15) 3
    expected := BitVec.ofNat 16 (imageWord image 22)
    peerAllowance := min (imageWord image 24) 4095
    dinPublish := imageByte image 26 = 1 }

/-- Mode by its encoding; one with no meaning gives DC (R166). -/
def modeOf (code : Nat) : Mode := if code = 1 then .pwm else .dc

/-- Limit action by its encoding; one with no meaning gives LATCH (R166). -/
def limitActionOf (code : Nat) : LimitAction := if code = 1 then .persist else .latch

/-- Class by its four bits; above 3 gives 3 (R166). -/
def clsOf (code : Nat) : Cls := if h : code < 4 then ⟨code, h⟩ else 3

/-- Channel record `c` in force (R166) from bytes 28 + 12c to 39 + 12c (R172). -/
def imageRecord (image : List Byte) (c : Chan) : ChannelConfig :=
  let at' := 28 + 12 * c.val
  let flags := imageByte image at'
  let steady := max 1 (min (imageWord image (at' + 2)) 511)
  { enabled := flags / 64 = 1
    mode := modeOf (flags / 16 % 4)
    cls := clsOf (imageByte image (at' + 1) / 16)
    shedRank := imageByte image (at' + 1) % 16
    steadyLimit := steady
    inrushLimit := max steady (min (imageWord image (at' + 4)) 511)
    window := max 1 (imageByte image (at' + 10) / 16)
    amount := min (imageWord image (at' + 6)) 4095
    minDuty := imageByte image (at' + 8)
    openThreshold := min (imageByte image (at' + 9)) 31
    retryBase := max 1 (min (imageByte image (at' + 11)) 15)
    retryLimit := min (imageByte image (at' + 10) % 16) 7
    limitAction := limitActionOf (flags / 4 % 4) }

/-- Transform by its encoding; one with no meaning gives DIRECT (R167). -/
def transformOf (code : Nat) : Transform :=
  if code = 1 then .switch else if code = 2 then .invert else if code = 3 then .flash else .direct

/-- Fallback by its encoding; one with no meaning gives HOLD (R167). -/
def fallbackOf (code : Nat) : Fallback := if code = 1 then .level else .hold

/-- Source station held to 0–15 (R167). -/
def sourceOf (v : Nat) : Stn := if h : v < 16 then ⟨v, h⟩ else 15

/-- Signal number held to 0–63 (R167). -/
def signalOf (v : Nat) : Fin 64 := if h : v < 64 then ⟨v, h⟩ else 63

/-- Binding record `i` after clamping (R167) from bytes 220 + 6i to 225 + 6i (R172); none where its channel field is
above 15. -/
def imageBinding (image : List Byte) (i : Nat) : Option Binding :=
  let at' := 220 + 6 * i
  if h : imageByte image (at' + 2) < 16 then
    some { source := sourceOf (imageByte image at')
           signal := signalOf (imageByte image (at' + 1))
           chan := ⟨imageByte image (at' + 2), h⟩
           transform := transformOf (imageByte image (at' + 3) % 16)
           threshold := imageByte image (at' + 4)
           fallback := fallbackOf (imageByte image (at' + 3) / 16)
           fallbackLevel := imageByte image (at' + 5) }
  else none

/-- Same source station, signal number and channel (R64, R167). -/
def sameBinding (a b : Binding) : Bool := a.source = b.source && a.signal = b.signal && a.chan = b.chan

/-- Keeps a record unless one kept earlier matches it (R64, R167). -/
def keepBinding (kept : List Binding) (b : Binding) : List Binding :=
  if kept.any (sameBinding b) then kept else kept ++ [b]

/-- The Binding Table of an accepted image, in image order (R64, R167). -/
def imageBindings (image : List Byte) : List Binding :=
  ((List.range (imageByte image 3)).filterMap (imageBinding image)).foldl keepBinding []

/-- The configuration of an accepted image. -/
def imageConfiguration (image : List Byte) : Configuration where
  params := imageParams image
  records := Vector.ofFn (imageRecord image)

/-- The station parameters of LIMP (R168). -/
def limpParams : Params where
  limitRun := 0
  limitBatt := 0
  limitAlone := 300
  guardBand := 0
  hysteresis := 100
  restoreStep := 16
  vLow := 220
  vCut := 160
  lifetime := 10
  rotationN := 0
  expected := 0
  peerAllowance := 0
  dinPublish := false

/-- The channel records of LIMP: channels 0–3 enabled, the others disabled with the same fields (R168). -/
def limpRecord (c : Chan) : ChannelConfig where
  enabled := c.val < 4
  mode := .dc
  cls := 0
  shedRank := 0
  steadyLimit := 100
  inrushLimit := 300
  window := 2
  amount := 300
  minDuty := 0
  openThreshold := 0
  retryBase := 4
  retryLimit := 3
  limitAction := .latch

/-- The fixed configuration of LIMP (R168). -/
def limpConfiguration : Configuration where
  params := limpParams
  records := Vector.ofFn limpRecord

end Sys2Proof.Machine
end

