-- ==== Sys2Proof/Machine/State.lean ====
section
/-! DEFINITION. Everything the spec gives the part to hold, as plain data, block by block, and the part right after
reset. -/

namespace Sys2Proof.Machine

/-- The eight channel states (R3). -/
inductive ChState where
  | off | requested | inrush | on | shed | tripped | latched | cut
  deriving DecidableEq, Repr

/-- Why a channel is SHED (R3). -/
inductive ShedReason where
  | none | budget | supply
  deriving DecidableEq, Repr

/-- Fault kinds (R53). -/
inductive FaultKind where
  | none | short | overcurrent | stall | thermal
  deriving DecidableEq, Repr

/-- The fault record of one channel (R53). -/
structure FaultRecord where
  kind : FaultKind
  current : Nat
  epoch : Nat
  step : Nat
  attempts : Nat
  persistNoted : Bool
  isNew : Bool
  deriving DecidableEq, Repr

/-- A sample with the duty it was taken at, waiting for its period to end (R41). -/
structure PendingTerm where
  sample : Nat
  duty : Nat
  deriving DecidableEq, Repr

/-- What the Channel Controller (R3), the Modulator (R23) and the Sense Unit (R41) hold for one channel. -/
structure Channel where
  state : ChState
  demandLevel : Nat
  demandDuty : Nat
  cap : Nat
  effectiveDuty : Nat
  shedReason : ShedReason
  inrushRemaining : Nat
  activeDuty : Nat
  shadowDuty : Nat
  drawAcc : Nat
  pendingTerm : Option PendingTerm
  epochDraw : Nat
  runningMarker : Bool
  closedMarker : Bool
  lastSample : Option Nat
  overCount : Nat
  openCount : Nat
  openFlag : Bool
  onEpochs : Nat
  retryTimer : Option Nat
  fault : FaultRecord
  deriving DecidableEq, Repr

/-- The set of cut causes (R3, R19). -/
structure CutCauses where
  isolate : Bool
  supply : Bool
  deriving DecidableEq, Repr

/-- The Modulator's station-wide items (R23). -/
structure Modulator where
  running : Bool
  step : Nat
  deriving DecidableEq, Repr

/-- The Epoch Timer (R30). -/
structure EpochTimer where
  running : Bool
  number : Nat
  completed : Nat
  markPending : Bool
  deriving DecidableEq, Repr

/-- Supply condition (R41, 3.7). -/
inductive Supply where
  | normal | low | cut
  deriving DecidableEq, Repr

/-- One figure per load class, D0–D3. -/
structure Draws where
  d0 : Nat
  d1 : Nat
  d2 : Nat
  d3 : Nat
  deriving DecidableEq, Repr

/-- The Sense Unit's station-wide items (R41). -/
structure SenseUnit where
  supply : Supply
  supplySum : Nat
  pendingSupply : Option Nat
  lowSamples : Nat
  draws : Draws
  deriving DecidableEq, Repr

/-- State of a Store entry (R65). -/
inductive Freshness where
  | fresh | expired
  deriving DecidableEq, Repr

/-- One entry of the Signal Value Store (R65). -/
structure StoreEntry where
  source : Stn
  signal : Fin 64
  value : Nat
  age : Nat
  state : Freshness
  deriving DecidableEq, Repr

/-- The Signal Unit (R64, R65, R74, R71, R75). -/
structure SignalUnit where
  bindings : List Binding
  store : List StoreEntry
  inputs : DinLevels
  phaseOn : Bool
  pubCount : Nat
  deriving DecidableEq, Repr

/-- The contents of a STATUS frame (R132). -/
structure StatusContent where
  draws : Draws
  overload : Bool
  limp : Bool
  isolated : Bool
  settling : Bool
  lowSupply : Bool
  lowestNew : Option Chan
  deriving DecidableEq, Repr

/-- Frames the station sends, kinds 0–4 and 6 (R80, R88). -/
inductive Frame where
  | mark (number : Nat)
  | reserve (ty : ResType) (cls : Cls) (chan : Chan) (amount hold : Nat)
  | release (ty : ResType) (chan : Chan)
  | signal (inputs : DinLevels)
  | status (content : StatusContent)
  | report (item : Nat) (arg : Byte) (content : List Byte)
  deriving DecidableEq, Repr

/-- The eight transmit slots (R81, R88). -/
inductive Slot where
  | mark
  | reserve (ty : ResType)
  | release (ty : ResType)
  | signal
  | status
  | report
  deriving DecidableEq, Repr

/-- The contents of the transmit slots (R78). -/
structure Slots where
  mark : Option Frame
  reserveAnnounce : Option Frame
  reserveOrdinary : Option Frame
  releaseAnnounce : Option Frame
  releaseOrdinary : Option Frame
  signal : Option Frame
  status : Option Frame
  report : Option Frame
  deriving DecidableEq, Repr

/-- The Link Controller (R78, R88, R89). -/
structure LinkController where
  slots : Slots
  onLine : Option Slot
  heldAside : Option Frame
  lineWithdrawn : Bool
  txErr : Nat
  rxErr : Nat
  muted : Bool
  isolated : Bool
  silence : Nat
  good : Nat
  clash : Nat
  standingOrd : Bool
  standingAnn : Bool
  deriving DecidableEq, Repr

/-- Presence of a peer (R99). -/
inductive Presence where
  | absent | present | stale
  deriving DecidableEq, Repr

/-- One entry of the Peer Draw Table (R99). -/
structure PeerEntry where
  presence : Presence
  age : Nat
  draws : Option Draws
  deriving DecidableEq, Repr

/-- One entry of the Reservation List (R104). -/
structure Reservation where
  station : Stn
  ty : ResType
  cls : Cls
  chan : Chan
  amount : Nat
  hold : Nat
  deriving DecidableEq, Repr

/-- One set of budget figures (R116). -/
structure Figures where
  base : Nat
  limit : Nat
  steady : Nat
  excess : Nat
  deriving DecidableEq, Repr

/-- Which set of figures governs the station (R116, R119). -/
inductive FigureSet where
  | zone | alone
  deriving DecidableEq, Repr

/-- What budget evaluated carries, exact (R134). The model's own home for it (log entry 19). -/
structure BudgetEvent where
  zone : Figures
  alone : Figures
  settle : Nat
  wasAlone : Bool
  deriving DecidableEq, Repr

/-- The Budget Unit (R116); `carried` is the event of its last evaluation (R134). -/
structure BudgetUnit where
  zone : Figures
  alone : Figures
  inUse : FigureSet
  cut1 : Nat
  cut2 : Nat
  cut3 : Nat
  settle : Nat
  overload : Bool
  carried : BudgetEvent
  deriving DecidableEq, Repr

/-- States of the ordinary record other than NONE (8.3). -/
inductive ClaimPhase where
  | pendingTx | settling | held
  deriving DecidableEq, Repr

/-- The ordinary record when its state is not NONE (R138). -/
structure Claim where
  phase : ClaimPhase
  chan : Chan
  cls : Cls
  amount : Nat
  hold : Nat
  byFrame : Bool
  deriving DecidableEq, Repr

/-- The Turn-On Scheduler (R138). The queue lists its channels in arrival order; `none` is the state NONE of the
ordinary record. -/
structure Scheduler where
  queue : List Chan
  ordinary : Option Claim
  announceAmount : Nat
  announceHold : Nat
  rotation : Nat
  deferral : Nat
  listen : Nat
  deriving DecidableEq, Repr

/-- The Diagnostic Responder (R154). -/
structure Responder where
  reportPending : Bool
  overruns : Nat
  clashFlag : Bool
  faultAsserted : Bool
  deriving DecidableEq, Repr

/-- Load phases (R161). -/
inductive LoadPhase where
  | held | straps | reading | checking | loaded
  deriving DecidableEq, Repr

/-- Run modes (R161). -/
inductive RunMode where
  | none | running | limp
  deriving DecidableEq, Repr

/-- The Configuration Loader (R161). -/
structure Loader where
  phase : LoadPhase
  station : Stn
  runMode : RunMode
  buffer : List Byte
  config : Option Configuration
  deriving DecidableEq, Repr

/-- Levels of the input pins that stand between commands: ISOLATE (R19, R21) and CHARGE (R118). -/
structure Pins where
  isolate : Bool
  charge : Bool
  deriving DecidableEq, Repr

/-- The whole part, and the queue of commands that wait for it, first in, first out. -/
structure State where
  channels : Vector Channel 16
  cuts : CutCauses
  modulator : Modulator
  timer : EpochTimer
  sense : SenseUnit
  signal : SignalUnit
  link : LinkController
  peers : Vector PeerEntry 16
  reservations : List Reservation
  budget : BudgetUnit
  sched : Scheduler
  diag : Responder
  loader : Loader
  pins : Pins
  pending : List Instr
  deriving DecidableEq, Repr

/-- Reasons the machine stops with a fault. There is none: the spec describes no event that stops the part, and every
meaning answers a next state (log entry 20). Safe. -/
inductive Fault where
  deriving DecidableEq, Repr

/-- Reasons a command is turned away. -/
inductive Refusal where
  /-- Raised by `exec` for a command without a meaning; no arm raises it (log entry 20). Safe. -/
  | notModelled (mnemonic : String)
  deriving DecidableEq, Repr

/-- Reset values of one channel (R3, R23, R41). -/
def Channel.reset : Channel where
  state := .off
  demandLevel := 0
  demandDuty := 0
  cap := 255
  effectiveDuty := 0
  shedReason := .none
  inrushRemaining := 0
  activeDuty := 0
  shadowDuty := 0
  drawAcc := 0
  pendingTerm := none
  epochDraw := 0
  runningMarker := false
  closedMarker := false
  lastSample := none
  overCount := 0
  openCount := 0
  openFlag := false
  onEpochs := 0
  retryTimer := none
  fault := { kind := .none, current := 0, epoch := 0, step := 0, attempts := 0, persistNoted := false, isNew := false }

/-- Reset values of the Link Controller (R78, R98). -/
def LinkController.reset : LinkController where
  slots := { mark := none, reserveAnnounce := none, reserveOrdinary := none, releaseAnnounce := none,
             releaseOrdinary := none, signal := none, status := none, report := none }
  onLine := none
  heldAside := none
  lineWithdrawn := false
  txErr := 0
  rxErr := 0
  muted := false
  isolated := false
  silence := 0
  good := 0
  clash := 0
  standingOrd := false
  standingAnn := false

/-- All figures 0 (R116). -/
def Figures.zero : Figures := { base := 0, limit := 0, steady := 0, excess := 0 }

/-- Reset values of the Budget Unit (R116, R137). -/
def BudgetUnit.reset : BudgetUnit where
  zone := Figures.zero
  alone := Figures.zero
  inUse := .zone
  cut1 := 0
  cut2 := 0
  cut3 := 0
  settle := 0
  overload := false
  carried := { zone := Figures.zero, alone := Figures.zero, settle := 0, wasAlone := false }

/-- The part right after power-on or the RESET pin, held, with no command waiting (R3, R23, R30, R41, R77, R98, R115,
R137, R138, R154, R161). The levels of the input pins are DESIGN CHOICE (log entry 10). -/
def State.reset : State where
  channels := Vector.replicate 16 Channel.reset
  cuts := { isolate := false, supply := false }
  modulator := { running := false, step := 0 }
  timer := { running := false, number := 0, completed := 0, markPending := false }
  sense := { supply := .normal, supplySum := 0, pendingSupply := none, lowSamples := 0,
             draws := { d0 := 0, d1 := 0, d2 := 0, d3 := 0 } }
  signal := { bindings := [], store := [], inputs := { din0 := false, din1 := false, din2 := false, din3 := false },
              phaseOn := true, pubCount := 0 }
  link := LinkController.reset
  peers := Vector.replicate 16 { presence := .absent, age := 255, draws := none }
  reservations := []
  budget := BudgetUnit.reset
  sched := { queue := [], ordinary := none, announceAmount := 0, announceHold := 0, rotation := 0, deferral := 0,
             listen := 2 }
  diag := { reportPending := false, overruns := 0, clashFlag := false, faultAsserted := false }
  loader := { phase := .held, station := 0, runMode := .none, buffer := [], config := none }
  pins := { isolate := false, charge := false }
  pending := []

end Sys2Proof.Machine
end

