-- ==== Sys2Proof/Machine/Ops.lean ====
section
/-! DEFINITION. The named reads and updates every block's rules are written over. -/

namespace Sys2Proof.Machine

/-- The items of one channel. -/
def State.ch (s : State) (c : Chan) : Channel := s.channels[c]

/-- Writes the items of one channel. -/
def State.setCh (s : State) (c : Chan) (x : Channel) : State := { s with channels := s.channels.set c x }

/-- Changes the items of one channel. -/
def State.updCh (s : State) (c : Chan) (f : Channel → Channel) : State := s.setCh c (f (s.ch c))

/-- Changes the items of every channel at once. -/
def State.mapCh (s : State) (f : Chan → Channel → Channel) : State :=
  { s with channels := Vector.ofFn fun c => f c (s.ch c) }

/-- Takes every channel in ascending channel number (R8, R20, R73). -/
def forChans (f : Chan → State → State) (s : State) : State := allChans.foldl (fun s c => f c s) s

/-- The entry of one station in the Peer Draw Table (R99). -/
def State.peer (s : State) (p : Stn) : PeerEntry := s.peers[p]

/-- Writes the entry of one station in the Peer Draw Table. -/
def State.setPeer (s : State) (p : Stn) (e : PeerEntry) : State := { s with peers := s.peers.set p e }

/-- Changes every entry of the Peer Draw Table at once. -/
def State.mapPeers (s : State) (f : PeerEntry → PeerEntry) : State :=
  { s with peers := Vector.ofFn fun p => f (s.peer p) }

/-- The configuration in force (R161). None is in force before load end, where no rule reads one (log entry 25). -/
def State.configuration (s : State) : Configuration := s.loader.config.getD limpConfiguration

/-- The configuration record of a channel (R1). -/
def State.cfg (s : State) (c : Chan) : ChannelConfig := s.configuration.records[c]

/-- The station parameters in force (R165). -/
def State.params (s : State) : Params := s.configuration.params

/-- The own station number (R162). -/
def State.own (s : State) : Stn := s.loader.station

/-- The load has ended: every block takes its events (R3, R41, R78, R138, R154, R169). -/
def State.isLoaded (s : State) : Bool := s.loader.phase = .loaded

/-- Before load end no block takes an event (R3, R40, R41, R77, R98, R137, R138, R154). -/
def whenLoaded (f : State → State) (s : State) : State := if s.isLoaded then f s else s

/-- CFG_SEL is low while the image is read and high otherwise (R161, R163). -/
def State.cfgSelHigh (s : State) : Bool := s.loader.phase ≠ .reading

/-- Writes the Link Controller. -/
def State.setLink (s : State) (l : LinkController) : State := { s with link := l }

/-- Writes the Turn-On Scheduler. -/
def State.setSched (s : State) (x : Scheduler) : State := { s with sched := x }

/-- Writes the Diagnostic Responder. -/
def State.setDiag (s : State) (x : Responder) : State := { s with diag := x }

/-- Writes the Epoch Timer. -/
def State.setTimer (s : State) (x : EpochTimer) : State := { s with timer := x }

/-- Writes the Sense Unit's station-wide items. -/
def State.setSense (s : State) (x : SenseUnit) : State := { s with sense := x }

/-- Writes the Signal Unit. -/
def State.setSignal (s : State) (x : SignalUnit) : State := { s with signal := x }

/-- Writes the Budget Unit. -/
def State.setBudget (s : State) (x : BudgetUnit) : State := { s with budget := x }

/-- Writes the Reservation List. -/
def State.setReservations (s : State) (x : List Reservation) : State := { s with reservations := x }

/-- Writes the Configuration Loader. -/
def State.setLoader (s : State) (x : Loader) : State := { s with loader := x }

/-- Writes the set of cut causes. -/
def State.setCauses (s : State) (x : CutCauses) : State := { s with cuts := x }

/-- The Modulator stands at a step of the period (R23). -/
def State.atStep (s : State) (t : Nat) : State := { s with modulator := { s.modulator with step := t } }

/-- The levels of ISOLATE and CHARGE as last given (log entry 10). -/
def State.setPins (s : State) (x : Pins) : State := { s with pins := x }

/-- Edge offset of an output (R24). -/
def edgeOffset (own : Stn) (c : Chan) : Nat := own.val % 8 * 31 + 2 * c.val

/-- Step `t` lies in the on-window of offset `o` and duty `d` (R25). -/
def inWindow (o d t : Nat) : Bool := (t + 255 - o) % 255 < d

/-- Output `c` is on at step `t` of the running period (R25). -/
def State.onAt (s : State) (c : Chan) (t : Nat) : Bool :=
  s.modulator.running && inWindow (edgeOffset s.own c) (s.ch c).activeDuty t

/-- The output pin at this moment (R25). -/
def State.outputOn (s : State) (c : Chan) : Bool := s.onAt c s.modulator.step

/-- The step at which a channel of active duty `d` is sampled (R42). -/
def sampleStep (own : Stn) (c : Chan) (d : Nat) : Nat := (edgeOffset own c + d / 2) % 255

/-- Sum over the channels that a test picks. -/
def sumChans (test : Chan → Bool) (f : Chan → Nat) : Nat := ((allChans.filter test).map f).sum

/-- Division rounded up (Conventions, "Rounding"). -/
def ceilDiv (a b : Nat) : Nat := (a + b - 1) / b

end Sys2Proof.Machine
end

