-- ==== Sys2Proof/Machine/Flags.lean ====
section
/-! DEFINITION. Conditions and flags read from the state: demand, alone, fault and status conditions. -/

namespace Sys2Proof.Machine

/-- Whether a demand level makes demand on (R6). -/
def demandOn (m : Mode) (level : Nat) : Bool :=
  match m with
  | .pwm => 1 ≤ level
  | .dc => 128 ≤ level

/-- The demand duty of a demand level (R6). -/
def demandDutyOf (m : Mode) (level : Nat) : Nat :=
  match m with
  | .pwm => level
  | .dc => if 128 ≤ level then 255 else 0

/-- The effective duty (R4). -/
def effectiveDutyOf (st : ChState) (duty cap : Nat) : Nat :=
  match st with
  | .inrush => duty
  | .on => min duty cap
  | _ => 0

/-- Demand of a channel is on, by the level it holds. -/
def State.wants (s : State) (c : Chan) : Bool := demandOn (s.cfg c).mode (s.ch c).demandLevel

/-- The output may carry a trip: the channel is in INRUSH or ON (R13, R47). -/
def ChState.live (st : ChState) : Bool := st = .inrush || st = .on

/-- States whose entry is handed over as an immediate off (R4). -/
def ChState.immediateOff (st : ChState) : Bool := st = .tripped || (st = .latched || st = .cut)

/-- No cause forces CUT (R19). -/
def CutCauses.isEmpty (x : CutCauses) : Bool := !x.isolate && !x.supply

/-- Alone by link (R96). -/
def LinkController.aloneByLink (l : LinkController) : Bool := l.muted || l.isolated

/-- The station is alone (R96, R119). -/
def State.alone (s : State) : Bool := s.link.aloneByLink || s.loader.runMode = .limp

/-- The figures in use follow the station's being alone (R119). -/
def State.refreshInUse (s : State) : State :=
  s.setBudget { s.budget with inUse := if s.alone then .alone else .zone }

/-- The set of figures in use (R116). -/
def BudgetUnit.figures (b : BudgetUnit) : Figures :=
  match b.inUse with
  | .zone => b.zone
  | .alone => b.alone

/-- The standing flag of a type (R90). -/
def LinkController.standing (l : LinkController) (ty : ResType) : Bool :=
  match ty with
  | .ordinary => l.standingOrd
  | .announce => l.standingAnn

/-- Some fault record is new (R53). -/
def State.anyNewFault (s : State) : Bool := allChans.any fun c => (s.ch c).fault.isNew

/-- The condition the FAULT pin shows (R160). -/
def State.faultCondition (s : State) : Bool := s.anyNewFault || (s.budget.overload || s.diag.clashFlag)

/-- The FAULT pin follows its condition (R160). -/
def State.refreshFault (s : State) : State := s.setDiag { s.diag with faultAsserted := s.faultCondition }

/-- The lowest channel whose fault record is new (R132). -/
def State.lowestNew (s : State) : Option Chan := allChans.find? fun c => (s.ch c).fault.isNew

/-- The flash phase of an epoch number (R71). -/
def flashPhase (number : Nat) : Bool := number % 32 < 16

/-- The station publishes its direct inputs (R75). -/
def State.publishes (s : State) : Bool := s.params.dinPublish && s.loader.runMode = .running

end Sys2Proof.Machine
end

