-- ==== Sys2Proof/Machine/LineFormat.lean ====
section
/-! DEFINITION. The frame on the line: its fields (R80, R170), the check sequence (R85, R170), the idle count between frames
(R79), and what a receiver makes of the bit samples it reads (R85). -/

namespace Sys2Proof.Machine

/-- A frame's fields but for the start, check and end, which follow from them (R80). -/
structure RawFrame where
  kind : Fin 8
  station : Stn
  payload : List Byte
  deriving DecidableEq, Repr

/-- The low `width` bits of a number, most significant first (R80). -/
def natBits : Nat → Nat → List Bool
  | 0, _ => []
  | width + 1, v => natBits width (v / 2) ++ [v % 2 == 1]

/-- The number a run of bits spells, most significant first. -/
def bitsNat (bits : List Bool) : Nat := bits.foldl (fun acc b => 2 * acc + b.toNat) 0

/-- The 7-bit arbitration field: the kind times 16 plus the station number (R170). -/
def RawFrame.arbitration (f : RawFrame) : Nat := f.kind.val * 16 + f.station.val

/-- The payload bits, each byte most significant bit first (R80). -/
def payloadBits (payload : List Byte) : List Bool := payload.flatMap fun b => natBits 8 b.toNat

/-- Frame bits 2 to 12 + 8L: arbitration, length, payload (R170). -/
def RawFrame.checkedBits (f : RawFrame) : List Bool :=
  natBits 7 f.arbitration ++ natBits 4 f.payload.length ++ payloadBits f.payload

/-- One bit through the check register (R170). -/
def crcStep (reg : BitVec 16) (bit : Bool) : BitVec 16 :=
  let shifted := reg <<< 1
  if bit != reg.msb then shifted ^^^ 4129#16 else shifted

/-- The check sequence of a run of bits (R170). -/
def crc (bits : List Bool) : BitVec 16 := bits.foldl crcStep 65535#16

/-- The whole run of bits of a frame, `true` for recessive (R170). -/
def RawFrame.bits (f : RawFrame) : List Bool :=
  [false] ++ f.checkedBits ++ natBits 16 (crc f.checkedBits).toNat ++ List.replicate 7 true

/-- What a receiver makes of a frame (R85). The first check that fails names the discard. -/
inductive Verdict where
  | falseStart
  | coding
  | length
  | check
  | valid (f : RawFrame)
  deriving DecidableEq, Repr

/-- The two samples of frame bit `i`, bit 0 being the start bit; an undriven line is recessive (R79). -/
def bitSamples (samples : List (Bool × Bool)) (i : Nat) : Bool × Bool := samples.getD i (true, true)

/-- The samples of the frame bits from `i` on, `n` of them. -/
def sampleRun (samples : List (Bool × Bool)) (i n : Nat) : List (Bool × Bool) :=
  (List.range n).map fun k => bitSamples samples (i + k)

/-- The two samples of every bit agree (R85). -/
def samplesAgree (run : List (Bool × Bool)) : Bool := run.all fun p => p.1 == p.2

/-- Cuts a run of payload bits into bytes (R80). -/
def bitsBytes : Nat → List Bool → List Byte
  | 0, _ => []
  | n + 1, bits => BitVec.ofNat 8 (bitsNat (bits.take 8)) :: bitsBytes n (bits.drop 8)

/-- The receiver's checks in their order (R85). A length of 9–15 is found when the length field is read, and no
later bit is read then. -/
def verdict (samples : List (Bool × Bool)) : Verdict :=
  if bitSamples samples 0 ≠ (false, false) then .falseStart
  else
    let header := sampleRun samples 1 11
    let len := bitsNat ((header.drop 7).map Prod.fst)
    if 9 ≤ len then if samplesAgree header then .length else .coding
    else
      let body := sampleRun samples 12 (8 * len)
      let check := sampleRun samples (12 + 8 * len) 16
      let ends := sampleRun samples (28 + 8 * len) 7
      if !(samplesAgree (header ++ body ++ check ++ ends) && ends.all fun p => p.1) then .coding
      else
        let checked := (header ++ body).map Prod.fst
        if bitsNat (check.map Prod.fst) ≠ (crc checked).toNat then .check
        else
          let arb := bitsNat ((header.take 7).map Prod.fst)
          .valid { kind := Fin.ofNat 8 (arb / 16)
                   station := Fin.ofNat 16 arb
                   payload := bitsBytes len (body.map Prod.fst) }

/-- A bit is read as recessive where both its samples are; one dominant sample is a dominant level (R79, R85). DEDUCED,
unsafe (log entry 35). -/
def recessiveBit (b : Bool × Bool) : Bool := b.1 && b.2

/-- The idle count after a run of bits, from the count `n`: consecutive recessive bits (R79). A dominant level after at least
10 of them is a start bit, which ends the count: `none`. One read before then is no start: the count begins again, and nothing
is counted as an error. -/
def idleCount : Nat → List (Bool × Bool) → Option Nat
  | n, [] => some n
  | n, b :: rest => if recessiveBit b then idleCount (n + 1) rest else if 10 ≤ n then none else idleCount 0 rest

/-- The line is idle: 11 consecutive recessive bits have been read (R79). -/
def lineIsIdle (bits : List (Bool × Bool)) : Bool :=
  match idleCount 0 bits with
  | some n => 11 ≤ n
  | none => false

/-- The first of these samples is taken as a start bit: a dominant level after at least 10 recessive bits (R79). -/
def startTaken (before samples : List (Bool × Bool)) : Bool :=
  (match idleCount 0 before with
   | some n => 10 ≤ n
   | none => false) && !recessiveBit (bitSamples samples 0)

/-- A reception that has begun and that the receiver discards (R79, R85). -/
def discards (before samples : List (Bool × Bool)) : Bool :=
  startTaken before samples &&
    match verdict samples with
    | .valid _ => false
    | _ => true

end Sys2Proof.Machine
end

