-- ==== Sys2Proof/Machine/Payloads.lean ====
section
/-! DEFINITION. Layouts of frame payloads, both ways (R171). -/

namespace Sys2Proof.Machine

/-- A byte of a number taken modulo 256. -/
def byteOf (n : Nat) : Byte := BitVec.ofNat 8 n

/-- Byte `i` of a payload as a number. -/
def payloadByte (payload : List Byte) (i : Nat) : Nat := (payload.getD i 0).toNat

/-- Type bit (R171). -/
def resTypeCode : ResType → Nat
  | .ordinary => 0
  | .announce => 1

/-- Type by its bit (R171). -/
def resTypeOf (code : Nat) : ResType := if code = 1 then .announce else .ordinary

/-- The draw of one class. -/
def Draws.get (d : Draws) (k : Cls) : Nat :=
  match k with
  | 0 => d.d0
  | 1 => d.d1
  | 2 => d.d2
  | 3 => d.d3

/-- Sum of the four class draws. -/
def Draws.sum (d : Draws) : Nat := d.d0 + d.d1 + d.d2 + d.d3

/-- Input level of a direct input, 255 for high and 0 for low (R66). -/
def levelOf (high : Bool) : Nat := if high then 255 else 0

/-- A direct input by its number 0–3. -/
def dinGet (d : DinLevels) (i : Nat) : Bool :=
  if i = 0 then d.din0 else if i = 1 then d.din1 else if i = 2 then d.din2 else d.din3

/-- Payload bytes a kind requires (R80, R86). -/
def requiredLength : FixedKind → Nat
  | .mark => 1
  | .reserve => 3
  | .release => 1
  | .status => 8
  | .query => 2

/-- Kind of a frame (R171). -/
def Frame.kind : Frame → Fin 8
  | .mark _ => 0
  | .reserve .. => 1
  | .release .. => 2
  | .signal _ => 3
  | .status _ => 4
  | .report .. => 6

/-- Flag bits of STATUS byte 6 (R171). -/
def StatusContent.flags (c : StatusContent) : Nat :=
  c.overload.toNat * 128 + c.limp.toNat * 64 + c.isolated.toNat * 32 + c.settling.toNat * 16 + c.lowSupply.toNat * 8

/-- Two 12-bit values in three bytes (R171). -/
def packDraws (a b : Nat) : List Byte := [byteOf (a / 16), byteOf (a % 16 * 16 + b / 256), byteOf b]

/-- STATUS payload (R171). -/
def StatusContent.payload (c : StatusContent) : List Byte :=
  packDraws c.draws.d0 c.draws.d1 ++ packDraws c.draws.d2 c.draws.d3 ++
    [byteOf c.flags, byteOf (match c.lowestNew with | some ch => ch.val | none => 255)]

/-- RESERVE payload (R171). -/
def reservePayload (ty : ResType) (cls : Cls) (chan : Chan) (amount hold : Nat) : List Byte :=
  [byteOf (resTypeCode ty * 128 + cls.val * 32 + chan.val), byteOf ((hold - 1) * 16 + amount / 256), byteOf amount]

/-- RELEASE payload (R171). -/
def releasePayload (ty : ResType) (chan : Chan) : List Byte := [byteOf (resTypeCode ty * 128 + chan.val)]

/-- SIGNAL payload of a publication: the pairs (60, DIN0 level) to (63, DIN3 level) (R75, R171). -/
def publicationPayload (d : DinLevels) : List Byte :=
  [byteOf 60, byteOf (levelOf d.din0), byteOf 61, byteOf (levelOf d.din1),
   byteOf 62, byteOf (levelOf d.din2), byteOf 63, byteOf (levelOf d.din3)]

/-- Payload of a frame the station sends (R171). -/
def Frame.payload : Frame → List Byte
  | .mark number => [byteOf number]
  | .reserve ty cls chan amount hold => reservePayload ty cls chan amount hold
  | .release ty chan => releasePayload ty chan
  | .signal inputs => publicationPayload inputs
  | .status content => content.payload
  | .report item arg content => [byteOf (item % 16), arg] ++ content

/-- The frame on the line, with the own station number in its arbitration field (R80, R88). -/
def Frame.raw (own : Stn) (f : Frame) : RawFrame :=
  { kind := f.kind, station := own, payload := f.payload }

/-- The claim a RESERVE payload carries, for its sender (R105, R171). -/
def reserveOf (sender : Stn) (payload : List Byte) : Reservation where
  station := sender
  ty := resTypeOf (payloadByte payload 0 / 128)
  cls := Fin.ofNat 4 (payloadByte payload 0 / 32)
  chan := Fin.ofNat 16 (payloadByte payload 0)
  amount := payloadByte payload 1 % 16 * 256 + payloadByte payload 2
  hold := payloadByte payload 1 / 16 + 1

/-- The type a RELEASE payload names (R106, R171). -/
def releaseTypeOf (payload : List Byte) : ResType := resTypeOf (payloadByte payload 0 / 128)

/-- The first of the two 12-bit values in three bytes (R171). -/
def unpackFirst (payload : List Byte) (i : Nat) : Nat := payloadByte payload i * 16 + payloadByte payload (i + 1) / 16

/-- The second of the two 12-bit values in three bytes (R171). -/
def unpackSecond (payload : List Byte) (i : Nat) : Nat :=
  payloadByte payload (i + 1) % 16 * 256 + payloadByte payload (i + 2)

/-- The class draws a STATUS payload carries (R100, R171). -/
def statusDrawsOf (payload : List Byte) : Draws where
  d0 := unpackFirst payload 0
  d1 := unpackSecond payload 0
  d2 := unpackFirst payload 3
  d3 := unpackSecond payload 3

/-- A SIGNAL payload as pairs of signal number and value, in payload order (R67, R171). -/
def signalPairs : List Byte → List (Nat × Nat)
  | n :: v :: rest => (n.toNat, v.toNat) :: signalPairs rest
  | _ => []

/-- A SIGNAL payload that holds a whole number of pairs from 1 to 4 (R67). -/
def wholePairs (payload : List Byte) : Bool :=
  payload.length % 2 = 0 && (2 ≤ payload.length && payload.length ≤ 8)

/-- Target station of a QUERY (R155, R171). -/
def queryTarget (b0 : Byte) : Stn := Fin.ofNat 16 (b0.toNat / 16)

/-- Item of a QUERY (R155, R171). -/
def queryItem (b0 : Byte) : Nat := b0.toNat % 16

/-- First payload byte of a QUERY for a target and an item (R171). -/
def queryByte (target : Stn) (item : Nat) : Byte := byteOf (target.val * 16 + item)

end Sys2Proof.Machine
end

