-- ==== Sys2Proof/Machine/Slots.lean ====
section
/-! DEFINITION. The transmit slots: hand-over (R88), withdrawal (R89), pairing of RESERVE and RELEASE (R90), and how
an attempt on the line ends (R81–R84). -/

namespace Sys2Proof.Machine

/-- Contents of a slot. -/
def Slots.get (x : Slots) : Slot → Option Frame
  | .mark => x.mark
  | .reserve .announce => x.reserveAnnounce
  | .reserve .ordinary => x.reserveOrdinary
  | .release .announce => x.releaseAnnounce
  | .release .ordinary => x.releaseOrdinary
  | .signal => x.signal
  | .status => x.status
  | .report => x.report

/-- Writes the contents of a slot. -/
def Slots.set (x : Slots) (slot : Slot) (f : Option Frame) : Slots :=
  match slot with
  | .mark => { x with mark := f }
  | .reserve .announce => { x with reserveAnnounce := f }
  | .reserve .ordinary => { x with reserveOrdinary := f }
  | .release .announce => { x with releaseAnnounce := f }
  | .release .ordinary => { x with releaseOrdinary := f }
  | .signal => { x with signal := f }
  | .status => { x with status := f }
  | .report => { x with report := f }

/-- The slots in service order (R81). -/
def serviceOrder : List Slot :=
  [.mark, .reserve .announce, .reserve .ordinary, .release .announce, .release .ordinary, .signal, .status, .report]

/-- The slot of a frame (R88). -/
def Frame.slot : Frame → Slot
  | .mark _ => .mark
  | .reserve ty _ _ _ _ => .reserve ty
  | .release ty _ => .release ty
  | .signal _ => .signal
  | .status _ => .status
  | .report _ _ _ => .report

/-- Writes a slot of the Link Controller. -/
def LinkController.setSlot (l : LinkController) (slot : Slot) (f : Option Frame) : LinkController :=
  { l with slots := l.slots.set slot f }

/-- A slot holds a frame that is not on the line (R88, R90). -/
def LinkController.waiting (l : LinkController) (slot : Slot) : Bool :=
  (l.slots.get slot).isSome && l.onLine ≠ some slot

/-- Places a frame: held aside while its slot is on the line, otherwise into the slot, replacing what waits there
(R88). -/
def LinkController.place (l : LinkController) (f : Frame) : LinkController :=
  if l.onLine = some f.slot then { l with heldAside := some f } else l.setSlot f.slot (some f)

/-- Removes the RELEASE of a type that is not on the line: the one in its slot or, while its slot is on the line, the one held
aside behind it, which would otherwise reach the zone after a newer RESERVE (R90). DEDUCED, safe (log entry 34). -/
def LinkController.dropRelease (l : LinkController) (ty : ResType) : LinkController :=
  if l.onLine = some (.release ty) then { l with heldAside := none } else l.setSlot (.release ty) none

/-- A RESERVE takes the place of a RELEASE of its type that is not on the line (R90). -/
def LinkController.placeReserve (l : LinkController) (ty : ResType) (f : Frame) : LinkController :=
  (l.dropRelease ty).place f

/-- A RELEASE removes a RESERVE of its type that waits, and is itself placed there only if the zone holds an entry
(R90). -/
def LinkController.placeRelease (l : LinkController) (ty : ResType) (f : Frame) : LinkController :=
  if l.waiting (.reserve ty) then
    let cleared := l.setSlot (.reserve ty) none
    if l.standing ty then cleared.place f else cleared
  else l.place f

/-- Hand-over of a frame to its slot (R88, R90); refused while MUTED (R92). -/
def LinkController.handOver (l : LinkController) (f : Frame) : LinkController :=
  if l.muted then l
  else
    match f with
    | .reserve ty _ _ _ _ => l.placeReserve ty f
    | .release ty _ => l.placeRelease ty f
    | _ => l.place f

/-- Withdrawal of the frame of a slot (R89). -/
def LinkController.withdraw (l : LinkController) (slot : Slot) : LinkController :=
  if l.onLine = some slot then { l with heldAside := none, lineWithdrawn := true } else l.setSlot slot none

/-- What the slot on the line holds after an attempt that did not complete (R88, R89). -/
def LinkController.afterLoss (l : LinkController) (slot : Slot) : Option Frame :=
  match l.heldAside with
  | some f => some f
  | none => if l.lineWithdrawn then none else l.slots.get slot

/-- The line is given up: no slot is on it and nothing is held aside. -/
def LinkController.offLine (l : LinkController) : LinkController :=
  { l with onLine := none, heldAside := none, lineWithdrawn := false }

/-- The pairing of R90 at the end of a lost or aborted attempt, the frame that was not on the line being the later
hand-over. -/
def LinkController.pairAfterLoss (l : LinkController) (slot : Slot) : LinkController :=
  match slot with
  | .reserve ty =>
    if (l.slots.get (.reserve ty)).isSome && (l.slots.get (.release ty)).isSome then
      let cleared := l.setSlot (.reserve ty) none
      if l.standing ty then cleared else cleared.setSlot (.release ty) none
    else l
  | .release ty =>
    if (l.slots.get (.reserve ty)).isSome && (l.slots.get (.release ty)).isSome then l.setSlot (.release ty) none else l
  | _ => l

/-- An attempt ends lost or aborted (R82, R83, R88–R90). -/
def LinkController.attemptLost (l : LinkController) : LinkController :=
  match l.onLine with
  | none => l
  | some slot => ((l.setSlot slot (l.afterLoss slot)).offLine).pairAfterLoss slot

/-- An attempt ends completed: the slot takes the frame held aside, or is empty (R84, R88, R89). -/
def LinkController.attemptCompleted (l : LinkController) (slot : Slot) : LinkController :=
  (l.setSlot slot l.heldAside).offLine

/-- The frame on the line (R81). -/
def LinkController.lineFrame (l : LinkController) : Option Frame :=
  match l.onLine with
  | none => none
  | some slot => l.slots.get slot

/-- The slot the Link Controller offers at an idle (R81). -/
def LinkController.offer (l : LinkController) : Option Slot :=
  if l.muted then none else serviceOrder.find? fun slot => (l.slots.get slot).isSome

/-- Hand-over to the Link Controller. -/
def State.handOver (s : State) (f : Frame) : State := s.setLink (s.link.handOver f)

/-- Withdrawal from the Link Controller. -/
def State.withdraw (s : State) (slot : Slot) : State := s.setLink (s.link.withdraw slot)

end Sys2Proof.Machine
end

