-- ==== Sys2Proof/Machine/Claims.lean ====
section
/-! DEFINITION. What the Turn-On Scheduler does with the notices of the Channel Controller (R8): the Turn-On Queue
(R139), the ordinary record (R147) and the announce record (R149, R150). -/

namespace Sys2Proof.Machine

/-- A class 0 channel of this station is in INRUSH (R149). -/
def State.surging (s : State) (c : Chan) : Bool := (s.cfg c).cls = 0 && (s.ch c).state = .inrush

/-- The announce amount of the moment (R138, R149). -/
def State.surgeAmount (s : State) : Nat := min 4095 (sumChans s.surging fun c => (s.cfg c).amount)

/-- The announce hold of the moment: the largest inrush remaining plus 1, 0 when no class 0 channel is in INRUSH
(R138, R149). -/
def State.surgeHold (s : State) : Nat :=
  (allChans.filter s.surging).foldl (fun h c => max h ((s.ch c).inrushRemaining + 1)) 0

/-- Writes the announce record. -/
def State.setAnnounce (s : State) (amount hold : Nat) : State :=
  s.setSched { s.sched with announceAmount := amount, announceHold := hold }

/-- Writes the ordinary record. -/
def State.setClaim (s : State) (x : Option Claim) : State := s.setSched { s.sched with ordinary := x }

/-- Writes the Turn-On Queue. -/
def State.setQueue (s : State) (q : List Chan) : State := s.setSched { s.sched with queue := q }

/-- JOINED: the channel joins the tail of the queue (R139). -/
def joined (c : Chan) (s : State) : State := s.setQueue (s.sched.queue ++ [c])

/-- Hands over an ORDINARY RELEASE for a claim made by frame; a claim taken alone has none to release (R146, R147). -/
def releaseClaim (x : Claim) (s : State) : State :=
  if x.byFrame then s.handOver (.release .ordinary x.chan) else s

/-- LEFT QUEUE: the channel leaves the queue, and a claim that names it ends (R139, R147). -/
def leftQueue (c : Chan) (s : State) : State :=
  let s1 := s.setQueue (s.sched.queue.filter fun d => d ≠ c)
  match s1.sched.ordinary with
  | none => s1
  | some x =>
    if x.chan = c then
      match x.phase with
      | .pendingTx => (s1.withdraw (.reserve .ordinary)).setClaim none
      | .settling => (releaseClaim x s1).setClaim none
      | .held => (releaseClaim x s1).setClaim none
    else s1

/-- INRUSH ENDED of a class 1–3 channel: a held claim that names it ends (R147). -/
def surgeOver (c : Chan) (s : State) : State :=
  match s.sched.ordinary with
  | none => s
  | some x => if x.chan = c && x.phase = .held then (releaseClaim x s).setClaim none else s

/-- INRUSH ENDED of a class 0 channel: the announce record is lowered, and released at 0 (R150). -/
def announceLowered (c : Chan) (s : State) : State :=
  let s1 := s.setAnnounce s.surgeAmount s.surgeHold
  if s.sched.announceAmount > 0 && s.surgeAmount = 0 then s1.handOver (.release .announce c) else s1

/-- INRUSH ENDED (R8). -/
def inrushEnded (c : Chan) (s : State) : State := if (s.cfg c).cls = 0 then announceLowered c s else surgeOver c s

/-- INRUSH BEGUN: the announce record is raised, and an ANNOUNCE RESERVE handed over where it rises (R149). -/
def inrushBegun (c : Chan) (s : State) : State :=
  let amount := s.surgeAmount
  let hold := s.surgeHold
  let s1 := s.setAnnounce amount hold
  if s.sched.announceAmount < amount || (amount > 0 && s.sched.announceHold < hold) then
    s1.handOver (.reserve .announce 0 c amount hold)
  else s1

/-- The ANNOUNCE RESERVE handed over on leaving MUTED (R148). -/
def announceAgain (s : State) : State :=
  if s.sched.announceAmount > 0 then
    match allChans.find? fun c => s.surging c && (s.cfg c).amount > 0 with
    | some c => s.handOver (.reserve .announce 0 c s.sched.announceAmount s.sched.announceHold)
    | none => s
  else s

end Sys2Proof.Machine
end

