-- ==== Sys2Proof/Machine/Channels.lean ====
section
/-! DEFINITION. The Channel Controller: entering a state (R3–R5, R11, R13), demand (R7), orders (R16–R18), retry, release
(R14, R15) and the cut (R19, R20). -/

namespace Sys2Proof.Machine

/-- The effective duty is computed again and handed over as the shadow duty (R4). -/
def Channel.recompute (x : Channel) : Channel :=
  { x with effectiveDuty := effectiveDutyOf x.state x.demandDuty x.cap
           shadowDuty := effectiveDutyOf x.state x.demandDuty x.cap }

/-- The attempt count and the PERSIST-noted flag are reset (R55). -/
def Channel.resetAttempts (x : Channel) : Channel :=
  { x with fault := { x.fault with attempts := 0, persistNoted := false } }

/-- What a change of state does to the channel itself: the cap returns to 255 (R5), the effective duty is handed over,
with an immediate off where R4 says so, and the Sense Unit takes the change: the overcurrent count (R47), the open-load
count (R57), the ON-epoch count (R56), the inrush marker and the last sample (R11, R45), the retry timer (R54). -/
def Channel.enter (x : Channel) (st : ChState) (reason : ShedReason) (window : Nat) : Channel :=
  Channel.recompute
    { x with
      state := st
      cap := 255
      shedReason := reason
      inrushRemaining := if st = .inrush then window else 0
      activeDuty := if st.immediateOff then 0 else x.activeDuty
      overCount := if st = .inrush || (x.state.live && st ≠ .on) then 0 else x.overCount
      openCount := if st = .on || x.state = .on then 0 else x.openCount
      onEpochs := if st = .on || x.state = .on then 0 else x.onEpochs
      runningMarker := st = .inrush || x.runningMarker
      lastSample := if st = .inrush then none else x.lastSample
      retryTimer := if st = .cut || (x.state = .tripped && st = .off) then none else x.retryTimer }

/-- The notices of a channel that has just gone from one state to another (R8). Leaving REQUESTED for INRUSH is a grant
and sends no LEFT QUEUE (R9). -/
def notices (c : Chan) (old st : ChState) (s : State) : State :=
  let s1 := if old = .requested && st ≠ .inrush then leftQueue c s else s
  let s2 := if old = .inrush && st ≠ .inrush then inrushEnded c s1 else s1
  let s3 := if st = .requested then joined c s2 else s2
  if st = .inrush && (s.cfg c).cls = 0 then inrushBegun c s3 else s3

/-- A channel enters a state (R3–R5, R8, R11). -/
def enter (c : Chan) (st : ChState) (reason : ShedReason) (s : State) : State :=
  notices c (s.ch c).state st (s.setCh c ((s.ch c).enter st reason (s.cfg c).window))

/-- A channel that is to want power: class 0 enters INRUSH at once (R10), any other REQUESTED. -/
def switchOn (c : Chan) (s : State) : State :=
  if (s.cfg c).cls = 0 then enter c .inrush .none s else enter c .requested .none s

/-- Demand level delivered (R7). -/
def deliver (c : Chan) (level : Nat) (s : State) : State :=
  let m := (s.cfg c).mode
  let was := s.wants c
  let is := demandOn m level
  let s1 := s.updCh c fun x => { x with demandLevel := level, demandDuty := demandDutyOf m level }
  let s2 := if was && !is then s1.updCh c Channel.resetAttempts else s1
  let kept := s2.updCh c Channel.recompute
  match (s.ch c).state with
  | .off => if !was && is then switchOn c s2 else kept
  | .cut => kept
  | _ => if was && !is then enter c .off .none s2 else kept

/-- Grant: acted on in REQUESTED only (R9). -/
def grant (c : Chan) (s : State) : State :=
  if (s.ch c).state = .requested then enter c .inrush .none s else s

/-- Retry due at the Channel Controller (R14). -/
def retryAtChannel (c : Chan) (s : State) : State :=
  if (s.ch c).state = .tripped && s.wants c then switchOn c s else s

/-- A channel returns to OFF and its held demand is taken again (R15, R20). A disabled channel stays in OFF (R2). -/
def retake (c : Chan) (s : State) : State :=
  let s1 := enter c .off .none s
  if (s1.cfg c).enabled && s1.wants c then switchOn c s1 else s1

/-- Release: a latched channel is freed (R15). -/
def releaseLatch (c : Chan) (s : State) : State := if (s.ch c).state = .latched then retake c s else s

/-- Budget orders act on channels in ON of class 1–3 (R16–R18). -/
def State.orderable (s : State) (c : Chan) : Bool := (s.ch c).state = .on && (s.cfg c).cls ≠ 0

/-- Shed order (R18). -/
def shed (c : Chan) (reason : ShedReason) (s : State) : State :=
  if s.orderable c then enter c .shed reason s else s

/-- Writes a cap and hands over the effective duty (R4, R16, R17). -/
def setCap (c : Chan) (cap : Nat) (s : State) : State := s.updCh c fun x => Channel.recompute { x with cap := cap }

/-- Throttle order (R16). -/
def throttle (c : Chan) (cap : Nat) (s : State) : State :=
  if s.orderable c && (s.cfg c).mode = .pwm then
    if (s.cfg c).minDuty ≤ cap then setCap c cap s else enter c .shed .budget s
  else s

/-- Cap raise order (R17). -/
def capRaise (c : Chan) (step : Nat) (s : State) : State :=
  if s.orderable c then setCap c (min 255 ((s.ch c).cap + step)) s else s

/-- Restore order (R18). -/
def restore (c : Chan) (s : State) : State := if (s.ch c).state = .shed then switchOn c s else s

/-- The set of cut causes becomes non-empty: every channel enters CUT (R19). -/
def cutBegins (s : State) : State := forChans (fun c s => enter c .cut .none s) s

/-- The set of cut causes becomes empty: every channel leaves CUT for OFF, its held demand taken again (R20). -/
def cutEnds (s : State) : State := forChans (fun c s => if (s.ch c).state = .cut then retake c s else s) s

/-- A change of the set of cut causes (R19, R20). -/
def changeCauses (causes : CutCauses) (s : State) : State :=
  let s1 := s.setCauses causes
  if s.cuts.isEmpty && !causes.isEmpty then cutBegins s1
  else if !s.cuts.isEmpty && causes.isEmpty then cutEnds s1
  else s1

/-- ISOLATE enters or leaves the set of cut causes (R19). -/
def setIsolateCause (high : Bool) (s : State) : State := changeCauses { s.cuts with isolate := high } s

/-- SUPPLY enters or leaves the set of cut causes (R19, R62). -/
def setSupplyCause (low : Bool) (s : State) : State := changeCauses { s.cuts with supply := low } s

end Sys2Proof.Machine
end

