-- ==== Sys2Proof/Machine/Peers.lean ====
section
/-! DEFINITION. The Peer Unit: the Peer Draw Table (R99–R103, R114) and the Reservation List (R104–R108). -/

namespace Sys2Proof.Machine

/-- A peer's draws count in the steady total (R103). -/
def PeerEntry.counts (e : PeerEntry) : Bool := e.presence ≠ .absent

/-- A STATUS at the Peer Unit (R100). -/
def takeStatus (sender : Stn) (payload : List Byte) (s : State) : State :=
  s.setPeer sender { presence := .present, age := 0, draws := some (statusDrawsOf payload) }

/-- An entry ages by one epoch (R101). -/
def PeerEntry.grow (e : PeerEntry) : PeerEntry := { e with age := min 255 (e.age + 1) }

/-- A PRESENT entry at age 5 becomes STALE (R101). -/
def PeerEntry.toStale (e : PeerEntry) : PeerEntry :=
  if e.presence = .present && 5 ≤ e.age then { e with presence := .stale } else e

/-- A STALE entry at age 250 becomes ABSENT and its draws are dropped (R101). -/
def PeerEntry.toAbsent (e : PeerEntry) : PeerEntry :=
  if e.presence = .stale && 250 ≤ e.age then { e with presence := .absent, draws := none } else e

/-- Peer class sum of class `k` (R103). -/
def State.peerSum (s : State) (k : Cls) : Nat :=
  ((allStns.filter fun p => p ≠ s.own && (s.peer p).counts).map fun p =>
    match (s.peer p).draws with | some d => d.get k | none => 0).sum

/-- Absent allowance (R103). -/
def State.absentAllowance (s : State) : Nat :=
  s.params.peerAllowance *
    (allStns.filter fun p => p ≠ s.own && (s.params.expected.getLsbD p.val && !(s.peer p).counts)).length

/-- An entry of this station and type (R104). -/
def Reservation.isOf (r : Reservation) (station : Stn) (ty : ResType) : Bool := r.station = station && r.ty = ty

/-- The list without the entry of a station and type (R105, R106). -/
def dropReservation (station : Stn) (ty : ResType) (l : List Reservation) : List Reservation :=
  l.filter fun r => !r.isOf station ty

/-- A RESERVE, received or own completed: the claim joins the tail in place of the earlier one (R105, R107). -/
def takeReserve (r : Reservation) (s : State) : State :=
  s.setReservations (dropReservation r.station r.ty s.reservations ++ [r])

/-- A RELEASE, received or own completed (R106, R107). -/
def takeRelease (station : Stn) (ty : ResType) (s : State) : State :=
  s.setReservations (dropReservation station ty s.reservations)

/-- Every hold is lowered by one epoch (R108). -/
def lowerHolds (s : State) : State :=
  s.setReservations (s.reservations.map fun r => { r with hold := r.hold - 1 })

/-- Every entry whose hold has reached 0 is removed (R108). -/
def removeRunOut (s : State) : State := s.setReservations (s.reservations.filter fun r => r.hold ≠ 0)

/-- The entry of one station and type is removed where its hold has reached 0 (R108, row HOLD_RUNS_OUT). -/
def holdRunsOut (station : Stn) (ty : ResType) (s : State) : State :=
  s.setReservations (s.reservations.filter fun r => !(r.isOf station ty && r.hold = 0))

/-- The entries that stand: one whose hold has reached 0 counts as removed wherever the list is read, since the
ageing that removes it has begun (R108, R110). -/
def State.standingEntries (s : State) : List Reservation := s.reservations.filter fun r => r.hold ≠ 0

/-- The standing entry of a station and type (R109, R114). -/
def State.entryOf (s : State) (station : Stn) (ty : ResType) : Option Reservation :=
  s.standingEntries.find? fun r => r.isOf station ty

/-- Sum of the amounts ahead of the own ORDINARY entry (R109, R110). -/
def State.amountAhead (s : State) : Nat :=
  ((s.standingEntries.takeWhile fun r => !r.isOf s.own .ordinary).map (·.amount)).sum

end Sys2Proof.Machine
end

