-- ==== Sys2Proof/Machine/Budget.lean ====
section
/-! DEFINITION. The budget evaluation (R117–R134), its orders taken one after another with what comes between them (R127). -/

namespace Sys2Proof.Machine

/-- One set of figures from a base limit and a steady total (R118, R120). -/
def figuresOf (base guardBand steady : Nat) : Figures :=
  { base := base, limit := base - guardBand, steady := steady, excess := steady - (base - guardBand) }

/-- The zone base limit (R118). -/
def State.zoneBase (s : State) : Nat := if s.pins.charge then s.params.limitRun else s.params.limitBatt

/-- The zone's steady total (R120). -/
def State.zoneSteady (s : State) : Nat :=
  s.sense.draws.sum + (s.peerSum 0 + s.peerSum 1 + s.peerSum 2 + s.peerSum 3) + s.absentAllowance

/-- The zone figures, exact (R118–R120). In LIMP no zone set is formed (R119). -/
def State.zoneFigures (s : State) : Figures :=
  if s.loader.runMode = .limp then Figures.zero else figuresOf s.zoneBase s.params.guardBand s.zoneSteady

/-- The alone figures, exact (R118–R120). -/
def State.aloneFigures (s : State) : Figures := figuresOf s.params.limitAlone s.params.guardBand s.sense.draws.sum

/-- The figures as held for reading: S and E at most 65 535 (R116). -/
def Figures.held (f : Figures) : Figures := { f with steady := min 65535 f.steady, excess := min 65535 f.excess }

/-- The draws of class `k` that share an excess (R122). -/
def State.sharedDraw (s : State) (alone : Bool) (k : Cls) : Nat :=
  if alone then s.sense.draws.get k else s.sense.draws.get k + s.peerSum k

/-- The own cut of one class (R122). -/
def cutOf (rem shared own : Nat) : Nat := if shared = 0 then 0 else ceilDiv (min rem shared * own) shared

/-- The excess left after one class (R122). -/
def excessAfter (rem shared : Nat) : Nat := rem - min rem shared

/-- The own cuts and the excess left after class 1 (R122). -/
structure Shares where
  cut1 : Nat
  cut2 : Nat
  cut3 : Nat
  left : Nat
  deriving DecidableEq, Repr

/-- The shares of an excess, classes 3, 2, 1 (R122). -/
def State.shares (s : State) (alone : Bool) (excess : Nat) : Shares :=
  let c3 := s.sharedDraw alone 3
  let c2 := s.sharedDraw alone 2
  let c1 := s.sharedDraw alone 1
  let e2 := excessAfter excess c3
  let e1 := excessAfter e2 c2
  { cut3 := cutOf excess c3 s.sense.draws.d3
    cut2 := cutOf e2 c2 s.sense.draws.d2
    cut1 := cutOf e1 c1 s.sense.draws.d1
    left := excessAfter e1 c1 }

/-- The OVERLOAD flag after an evaluation (R123). -/
def overloadAfter (before : Bool) (excess left : Nat) : Bool :=
  if 0 < left then true else if excess = 0 then false else before

/-- A budget evaluation under way: the state its parts read and act on, and what comes between them. Each entry of `between` is
taken where one stands in the evaluation: before a part reads the channels, before an order is formed, and before the order
arrives at its channel (R117, R127). -/
structure Course where
  between : List (State → State)
  now : State

/-- What comes next between the parts of the evaluation is taken (R127). -/
def Course.pass (x : Course) : Course :=
  match x.between with
  | [] => x
  | event :: rest => { between := rest, now := event x.now }

/-- What is left over is taken after the last order. -/
def Course.finish (x : Course) : State := x.between.foldl (fun s event => event s) x.now

/-- One order of an evaluation: it is formed from the channel as read, and the Channel Controller acts on it as the channel stands
when it arrives (R127). -/
def Course.order (act : (read : State) → State → State) (x : Course) : Course :=
  let formed := x.pass
  let arrived := formed.pass
  { arrived with now := act formed.now arrived.now }

/-- One order to each of several channels in turn (R127). -/
def Course.orders (act : Chan → (read : State) → State → State) (chans : List Chan) (x : Course) : Course :=
  chans.foldl (fun x c => x.order (act c)) x

/-- A shed order to a class 3 channel in ON goes out for low supply (R121). -/
def State.shedsForSupply (s : State) (c : Chan) : Bool := (s.cfg c).cls = 3 && (s.ch c).state = .on

/-- Low-supply shedding (R121), with what comes between its orders (R127). -/
def shedForSupplyAmid (x : Course) : Course :=
  if x.now.sense.supply = .low then
    let y := x.pass
    y.orders (fun c _ => shed c .supply) (allChans.filter y.now.shedsForSupply)
  else x

/-- Low-supply shedding with nothing between its orders (R121). -/
def shedForSupply (s : State) : State := (shedForSupplyAmid { between := [], now := s }).now

/-- An eligible channel of a class (R124). -/
def State.eligible (s : State) (k : Cls) (c : Chan) : Bool :=
  (s.cfg c).cls = k && ((s.ch c).state = .on && !(s.ch c).closedMarker)

/-- An eligible PWM channel of a class (R124, R125). -/
def State.eligiblePwm (s : State) (k : Cls) (c : Chan) : Bool := s.eligible k c && (s.cfg c).mode = .pwm

/-- An eligible DC channel of a class with a draw above 0 (R126). -/
def State.eligibleDc (s : State) (k : Cls) (c : Chan) : Bool :=
  s.eligible k c && ((s.cfg c).mode = .dc && 0 < (s.ch c).epochDraw)

/-- The draw P of the eligible PWM channels of a class (R124). -/
def State.pwmDraw (s : State) (k : Cls) : Nat := sumChans (s.eligiblePwm k) fun c => (s.ch c).epochDraw

/-- The cap a throttle order carries, from the effective duty read when the order is formed; an order carries at most 255 (R16,
R125). -/
def throttleCap (duty p r : Nat) : Nat := min 255 (duty * (p - r) / p)

/-- Throttling the eligible PWM channels of a class (R125). -/
def throttleClass (chans : List Chan) (p r : Nat) (x : Course) : Course :=
  x.orders (fun c read => throttle c (throttleCap (read.ch c).effectiveDuty p r)) chans

/-- Channels in ascending shed rank, and between equal ranks the lower number first (R126). -/
def State.byRank (s : State) (chans : List Chan) : List Chan :=
  (List.range 16).flatMap fun rank => chans.filter fun c => (s.cfg c).shedRank = rank

/-- Shed orders to DC channels until the draws ordered off reach what is needed. The draw of a channel counts whether or not its
order was acted on (R126, R127). -/
def shedUntil (need : Nat) : List Chan → Nat → Course → Course
  | [], _, x => x
  | c :: rest, sum, x =>
    if need ≤ sum then x
    else shedUntil need rest (sum + (x.now.ch c).epochDraw) (x.order fun _ => shed c .budget)

/-- Shedding a class whose cut exceeds its PWM draw (R126). -/
def shedClass (pwm dc : List Chan) (p r : Nat) (x : Course) : Course :=
  shedUntil (r - p) dc 0 (x.orders (fun c _ => shed c .budget) pwm)

/-- A cut above 0 applied in one class (R124–R126), with what comes between its orders: the eligible channels and P are those read
when the class is applied, an order that finds its channel no longer in ON is ignored, and none goes out in its place (R127). -/
def applyCutAmid (k : Cls) (r : Nat) (x : Course) : Course :=
  if r = 0 then x
  else
    let y := x.pass
    let pwm := allChans.filter (y.now.eligiblePwm k)
    let p := y.now.pwmDraw k
    if 0 < p && r ≤ p then throttleClass pwm p r y
    else shedClass pwm (y.now.byRank (allChans.filter (y.now.eligibleDc k))) p r y

/-- A cut applied in one class with nothing between its orders (R124–R126). -/
def applyCut (k : Cls) (r : Nat) (s : State) : State := (applyCutAmid k r { between := [], now := s }).now

/-- The cuts applied, classes 3, 2, 1 (R124). -/
def applyCuts (cuts : Shares) (x : Course) : Course :=
  applyCutAmid 1 cuts.cut1 (applyCutAmid 2 cuts.cut2 (applyCutAmid 3 cuts.cut3 x))

/-- A channel of a class in ON with a cap below 255 (R130). -/
def State.capped (s : State) (k : Cls) (c : Chan) : Bool :=
  (s.cfg c).cls = k && ((s.ch c).state = .on && (s.ch c).cap < 255)

/-- A class may be the restore class under the supply condition (R131). -/
def classRestorable (supply : Supply) (k : Cls) : Bool := !(supply = .low && k = 3)

/-- A shed reason allows a restore under the supply condition (R131). -/
def reasonRestorable (reason : ShedReason) (supply : Supply) : Bool :=
  match supply, reason with
  | .normal, .budget => true
  | .normal, .supply => true
  | .low, .budget => true
  | _, _ => false

/-- A restorable channel of a class in SHED (R130, R131). -/
def State.restorable (s : State) (k : Cls) (c : Chan) : Bool :=
  (s.cfg c).cls = k && ((s.ch c).state = .shed && reasonRestorable (s.ch c).shedReason s.sense.supply)

/-- A class qualifies for a restore step (R130, R131). -/
def State.qualifies (s : State) (k : Cls) : Bool :=
  classRestorable s.sense.supply k && allChans.any fun c => s.capped k c || s.restorable k c

/-- The restore class: the lowest of classes 1–3 that qualifies (R130). -/
def State.restoreClass (s : State) : Option Cls := [1, 2, 3].find? s.qualifies

/-- The restorable channel of highest shed rank, and between equal ranks of highest number (R130). -/
def State.restoreChoice (s : State) (k : Cls) : Option Chan :=
  (s.byRank (allChans.filter (s.restorable k))).getLast?

/-- One restore step in a class (R130), with what comes between its orders (R127). -/
def restoreStepAmid (k : Cls) (x : Course) : Course :=
  let capped := allChans.filter (x.now.capped k)
  if capped.isEmpty then
    match x.now.restoreChoice k with
    | some c => x.order fun _ => restore c
    | none => x
  else x.orders (fun c read => capRaise c read.params.restoreStep) capped

/-- One restore step in a class with nothing between its orders (R130). -/
def restoreStep (k : Cls) (s : State) : State := (restoreStepAmid k { between := [], now := s }).now

/-- The conditions of restore on the figures in use and the settle count (R129). -/
def restoreOpen (f : Figures) (hysteresis settle : Nat) : Bool :=
  f.excess = 0 && (f.steady + hysteresis ≤ f.limit && settle = 0)

/-- The settle count after an evaluation (R128). -/
def settleAfter (before : Nat) (acted : Bool) : Nat := if acted then 2 else before - 1

/-- The STATUS contents after an evaluation (R132). -/
def State.statusContent (s : State) : StatusContent where
  draws := s.sense.draws
  overload := s.budget.overload
  limp := s.loader.runMode = .limp
  isolated := s.link.isolated
  settling := 0 < s.budget.settle
  lowSupply := s.sense.supply = .low
  lowestNew := s.lowestNew

/-- The exact figures in use at an evaluation (R117, R119). -/
def BudgetEvent.inUse (e : BudgetEvent) : Figures := if e.wasAlone then e.alone else e.zone

/-- Part 1: both sets of figures, and the set in use (R117–R120). The event keeps the figures exact and the settle
count of the start (R134). -/
def formFigures (s : State) : State :=
  s.setBudget { s.budget with
    zone := s.zoneFigures.held
    alone := s.aloneFigures.held
    inUse := if s.alone then .alone else .zone
    carried := { zone := s.zoneFigures, alone := s.aloneFigures, settle := s.budget.settle, wasAlone := s.alone } }

/-- Part 3: the shares of the excess and the OVERLOAD flag (R117, R122, R123), which the FAULT pin follows (R160). -/
def shareExcess (s : State) : State :=
  let x := s.shares s.budget.carried.wasAlone s.budget.carried.inUse.excess
  (s.setBudget { s.budget with
    cut1 := x.cut1, cut2 := x.cut2, cut3 := x.cut3
    overload := overloadAfter s.budget.overload s.budget.carried.inUse.excess x.left }).refreshFault

/-- Part 4: the cuts are applied where the settle count is 0 and some cut is above 0 (R124). -/
def cutPart (x : Course) : Course :=
  let b := x.now.budget
  if b.settle = 0 then applyCuts { cut1 := b.cut1, cut2 := b.cut2, cut3 := b.cut3, left := 0 } x else x

/-- Cuts are applied at this evaluation (R124, R128). -/
def BudgetUnit.cutting (b : BudgetUnit) : Bool := b.settle = 0 && 0 < b.cut1 + b.cut2 + b.cut3

/-- The conditions of restore hold at this evaluation (R129). -/
def State.restoreOpens (s : State) : Bool := restoreOpen s.budget.carried.inUse s.params.hysteresis s.budget.settle

/-- The channels are read for a restore step where its conditions hold (R117, R129). -/
def Course.readForRestore (x : Course) : Course := if x.now.restoreOpens then x.pass else x

/-- The class of the restore step of this evaluation, if one is taken (R129, R130). -/
def State.restoring (s : State) : Option Cls := if s.restoreOpens then s.restoreClass else none

/-- Part 6: the settle count (R128). -/
def settleTo (n : Nat) (s : State) : State := s.setBudget { s.budget with settle := n }

/-- Parts 5 and 6: one restore step, and the settle count (R128–R130). -/
def restorePart (x : Course) : Course :=
  let y := x.readForRestore
  match y.now.restoring with
  | some k =>
    let z := restoreStepAmid k y
    { z with now := settleTo 2 z.now }
  | none => { y with now := settleTo (settleAfter y.now.budget.settle y.now.budget.cutting) y.now }

/-- The budget evaluation, its parts in the order of R117, with what comes between them (R127). -/
def evaluateAmid (between : List (State → State)) (s : State) : State :=
  let x := shedForSupplyAmid { between := between, now := formFigures s }
  let t := (restorePart (cutPart { x with now := shareExcess x.now })).finish
  t.handOver (.status t.statusContent)

/-- The budget evaluation with nothing between its parts (R117). -/
def evaluateBudget (s : State) : State := evaluateAmid [] s

end Sys2Proof.Machine
end

