-- ==== Sys2Proof/Machine/Admission.lean ====
section
/-! DEFINITION. Budget evaluated at the Turn-On Scheduler: the admission test (R109–R112), admission and refusal (R145,
R146), selection (R140, R141). -/

namespace Sys2Proof.Machine

/-- The link test of a claim that has a standing own entry (R109, R110). -/
def State.linkTest (s : State) : Bool :=
  let e := s.budget.carried
  match s.entryOf s.own .ordinary with
  | some r => e.zone.excess = 0 && (e.settle = 0 && e.zone.steady + s.amountAhead + r.amount ≤ e.zone.limit)
  | none => false

/-- The alone test of a claim's amount (R111). -/
def State.aloneTest (s : State) (amount : Nat) : Bool :=
  let e := s.budget.carried
  e.alone.excess = 0 && (e.settle = 0 && e.alone.steady + amount ≤ e.alone.limit)

/-- The admission test, by whether the station is alone at this moment (R109, R111, R145). A claim taken alone without a
frame fails the link test, whatever own entry an earlier claim has left in the list (R110, R111, R148). -/
def State.admits (s : State) (x : Claim) : Bool :=
  if s.alone then s.aloneTest x.amount else x.byFrame && s.linkTest

/-- An entry of class 2 or 3 waits in the queue (R140). -/
def State.lowerWaits (s : State) : Bool := s.sched.queue.any fun c => 2 ≤ (s.cfg c).cls.val

/-- The rotation count after a grant (R140). -/
def rotationAfter (rotation n : Nat) (cls : Cls) (lowerWaits : Bool) : Nat :=
  if cls = 1 && lowerWaits then min (rotation + 1) n else 0

/-- Writes the rotation count. -/
def State.setRotation (s : State) (n : Nat) : State := s.setSched { s.sched with rotation := n }

/-- A pass, before the grant: the channel leaves the queue, the rotation count is updated, and the record is HELD (R145). -/
def holdClaim (x : Claim) (s : State) : State :=
  let s1 := s.setQueue (s.sched.queue.filter fun d => d ≠ x.chan)
  let s2 := s1.setRotation (rotationAfter s1.sched.rotation s.params.rotationN x.cls s1.lowerWaits)
  s2.setClaim (some { x with phase := .held })

/-- A grant arrives at channel `c` after what comes between. A channel that has left REQUESTED ends the span by its LEFT QUEUE, and the
grant finds it so and is ignored (R9, R145); what is left over comes after. -/
def grantAfter (c : Chan) : List (State → State) → State → State
  | [], s => grant c s
  | event :: rest, s =>
    let t := event s
    if (t.ch c).state = .requested then grantAfter c rest t else rest.foldl (fun s event => event s) (grant c t)

/-- A pass: the claim is HELD and the channel granted (R145), with what comes between the grant and its arrival (R9). -/
def admitClaim (between : List (State → State)) (x : Claim) (s : State) : State := grantAfter x.chan between (holdClaim x s)

/-- The deferral after a refusal (R146). -/
def deferralOf (own : Stn) : Nat := 2 + own.val % 4

/-- A failure: the claim is given up and the station defers (R146). -/
def refuse (x : Claim) (s : State) : State :=
  let s1 := (releaseClaim x s).setClaim none
  s1.setSched { s1.sched with deferral := deferralOf s.own }

/-- The admission decision (R145, R146), with what comes between a grant and its arrival; where none is sent, it comes after. -/
def decideAdmissionAmid (between : List (State → State)) (s : State) : State :=
  let after := between.foldl fun s event => event s
  match s.sched.ordinary with
  | some x => if x.phase = .settling then (if s.admits x then admitClaim between x s else after (refuse x s)) else after s
  | none => after s

/-- The admission decision with nothing between a grant and its arrival (R145, R146). -/
def decideAdmission (s : State) : State := decideAdmissionAmid [] s

/-- The earliest-arriving queue entry a test picks. -/
def State.firstWaiting (s : State) (test : Chan → Bool) : Option Chan := s.sched.queue.find? test

/-- The ordinary choice: lowest class, then earliest arrival (R140). -/
def State.ordinaryChoice (s : State) : Option Chan :=
  match s.firstWaiting fun c => (s.cfg c).cls = 1 with
  | some c => some c
  | none =>
    match s.firstWaiting fun c => (s.cfg c).cls = 2 with
    | some c => some c
    | none => s.firstWaiting fun _ => true

/-- Rotation takes this choice (R140). -/
def State.rotates (s : State) : Bool :=
  0 < s.params.rotationN && (s.sched.rotation = s.params.rotationN && s.lowerWaits)

/-- The channel a selection chooses (R140). -/
def State.choice (s : State) : Option Chan :=
  if s.rotates then s.firstWaiting fun c => 2 ≤ (s.cfg c).cls.val else s.ordinaryChoice

/-- A selection may be made (R141). -/
def State.maySelect (s : State) : Bool :=
  s.sched.ordinary.isNone && (s.sched.deferral = 0 && (s.sched.listen = 0 && s.budget.settle = 0))

/-- The claim of a selected channel (R141). -/
def State.claimOf (s : State) (c : Chan) : Claim where
  phase := if s.alone then .settling else .pendingTx
  chan := c
  cls := (s.cfg c).cls
  amount := (s.cfg c).amount
  hold := (s.cfg c).window + 1
  byFrame := !s.alone

/-- Selection of one queue entry, claimed by an ORDINARY RESERVE, or without a frame while alone (R141). -/
def select (s : State) : State :=
  if s.maySelect then
    match s.choice with
    | some c =>
      let x := s.claimOf c
      let s1 := if s.rotates then s.setRotation 0 else s
      let s2 := s1.setClaim (some x)
      if x.byFrame then s2.handOver (.reserve .ordinary x.cls c x.amount x.hold) else s2
    | none => s
  else s

/-- Budget evaluated at the Turn-On Scheduler: the admission decision, with what comes between a grant and its arrival, then a
selection (R141, R145). -/
def budgetEvaluatedAmid (between : List (State → State)) (s : State) : State := select (decideAdmissionAmid between s)

/-- Budget evaluated with nothing between a grant and its arrival (R141, R145). -/
def budgetEvaluated (s : State) : State := budgetEvaluatedAmid [] s

end Sys2Proof.Machine
end

