-- ==== Sys2Proof/Machine/Link.lean ====
section
/-! DEFINITION. The Link Controller: how an own attempt ends (R81–R84), what a valid frame and a discarded reception
count (R85, R86), MUTED (R91–R93), ISOLATED (R94, R95) and the number clash (R97). -/

namespace Sys2Proof.Machine

/-- Entry to MUTED: slots emptied, the own MARK no longer pending, the ordinary record dropped without a frame, no report
pending, the station alone (R92, R33, R148, R156, R96). -/
def enterMuted (s : State) : State :=
  let s1 := s.setLink { s.link with
    slots := LinkController.reset.slots, heldAside := none, lineWithdrawn := false, muted := true, good := 0 }
  let s2 := s1.setTimer { s1.timer with markPending := false }
  let s3 := (s2.setClaim none).setDiag { s2.diag with reportPending := false }
  s3.refreshInUse

/-- The listen count is set to 2 (R143). -/
def State.listenAgain (s : State) : State := s.setSched { s.sched with listen := 2 }

/-- Leaving MUTED (R93, R143, R148, R119). -/
def leaveMuted (s : State) : State :=
  let s1 := s.setLink { s.link with muted := false, txErr := 0, good := 0 }
  announceAgain (s1.listenAgain.refreshInUse)

/-- Leaving ISOLATED (R95, R143, R119). -/
def leaveIsolated (s : State) : State := ((s.setLink { s.link with isolated := false }).listenAgain).refreshInUse

/-- Entry to ISOLATED (R94, R96). -/
def enterIsolated (s : State) : State := (s.setLink { s.link with isolated := true }).refreshInUse

/-- ISOLATED is entered where the silence count has reached 10 (R94). -/
def isolationDue (s : State) : State := if s.link.silence = 10 && !s.link.isolated then enterIsolated s else s

/-- The silence count at an epoch start (R94). -/
def countSilence (s : State) : State := s.setLink { s.link with silence := min 10 (s.link.silence + 1) }

/-- A valid frame while MUTED: the hundredth in a row ends MUTED (R93). -/
def countGood (s : State) : State :=
  if s.link.muted then
    if 99 ≤ s.link.good then leaveMuted s else s.setLink { s.link with good := s.link.good + 1 }
  else s

/-- A valid frame from another station (R86, R93–R95), taken whatever stands on the line. DESIGN CHOICE, unsafe (log entry 27). -/
def validFrame (s : State) : State :=
  let s1 := s.setLink { s.link with silence := 0 }
  countGood (if s1.link.isolated then leaveIsolated s1 else s1)

/-- A receive error (R85, R86). -/
def receiveError (s : State) : State := s.setLink { s.link with rxErr := min 255 (s.link.rxErr + 1) }

/-- A discarded reception (R85, R93), counted whatever stands on the line. DESIGN CHOICE, unsafe (log entry 27). -/
def discardReception (s : State) : State :=
  let s1 := receiveError s
  if s1.link.muted then s1.setLink { s1.link with good := 0 } else s1

/-- A clash: counted, and the clash flag asserts the FAULT pin (R97, R160). -/
def clash (s : State) : State :=
  let s1 := s.setLink { s.link with clash := min 255 (s.link.clash + 1) }
  (s1.setDiag { s1.diag with clashFlag := true }).refreshFault

/-- A frame whose kind is checked for its payload length and, for kinds 0, 1, 2 and 4, for the own number, then delivered
(R86, R97). The length is checked first: a frame that fails both is a receive error and no clash. DESIGN CHOICE, unsafe (log
entry 31). -/
def receiveChecked (length : Nat) (sender : Stn) (payload : List Byte) (delivery : State → State) (s : State) : State :=
  let s1 := validFrame s
  if payload.length ≠ length then receiveError s1
  else if sender = s1.own then clash s1
  else delivery s1

/-- LINE_IDLE: once the bits read make the line idle, one frame is offered (R79, R81). Fewer than 11 recessive bits, or an own
frame on the line, are no idle (log entry 1). -/
def offerFrame (bits : List (Bool × Bool)) (s : State) : State :=
  if lineIsIdle bits then
    match s.link.onLine with
    | some _ => s
    | none => s.setLink { s.link with onLine := s.link.offer }
  else s

/-- A frame bit of the arbitration field that the frame sends recessive (R82, R170). -/
def recessiveAt (own : Stn) (f : Frame) (bit : Nat) : Bool :=
  2 ≤ bit && (bit ≤ 8 && (natBits 7 (f.raw own).arbitration).getD (bit - 2) false)

/-- Contention lost at an arbitration bit (R82). -/
def contentionLost (bit : Nat) (s : State) : State :=
  match s.link.lineFrame with
  | some f => if recessiveAt s.own f bit then s.setLink s.link.attemptLost else s
  | none => s

/-- A frame bit outside the arbitration field (R83, R170). -/
def outsideArbitration (f : Frame) (bit : Nat) : Bool := bit = 1 || (9 ≤ bit && bit ≤ 35 + 8 * f.payload.length)

/-- Abort at a frame bit: the transmit error count rises by 8, and 128 or more is MUTED (R83, R91, R92). -/
def abortFrame (bit : Nat) (s : State) : State :=
  match s.link.lineFrame with
  | some f =>
    if outsideArbitration f bit then
      let s1 := s.setLink { s.link.attemptLost with txErr := s.link.txErr + 8 }
      if 128 ≤ s1.link.txErr then enterMuted s1 else s1
    else s
  | none => s

/-- Writes the standing flag of a type (R90). -/
def LinkController.setStanding (l : LinkController) (ty : ResType) (v : Bool) : LinkController :=
  match ty with
  | .ordinary => { l with standingOrd := v }
  | .announce => { l with standingAnn := v }

/-- Own ORDINARY RESERVE completed, at the Scheduler (R144). -/
def reserveCompleted (chan : Chan) (s : State) : State :=
  match s.sched.ordinary with
  | none => s.handOver (.release .ordinary chan)
  | some x =>
    if x.phase = .pendingTx && x.chan = chan then s.setClaim (some { x with phase := .settling }) else s

/-- The report of a completion to its blocks, in order (R84, R107, R144, R156). The own-MARK-pending flag stays while a
newer MARK waits in the slot (R30, R33; log entry 13). -/
def reportCompletion (f : Frame) (s : State) : State :=
  match f with
  | .mark _ => s.setTimer { s.timer with markPending := (s.link.slots.get .mark).isSome }
  | .reserve ty cls chan amount hold =>
    let s1 := s.setLink (s.link.setStanding ty true)
    let s2 := takeReserve { station := s.own, ty := ty, cls := cls, chan := chan, amount := amount, hold := hold } s1
    if ty = .ordinary then reserveCompleted chan s2 else s2
  | .release ty _ => takeRelease s.own ty (s.setLink (s.link.setStanding ty false))
  | .signal _ => s
  | .status _ => s
  | .report _ _ _ => s.setDiag { s.diag with reportPending := false }

/-- Transmit completion (R84). -/
def completeFrame (s : State) : State :=
  match s.link.onLine, s.link.lineFrame with
  | some slot, some f =>
    reportCompletion f (s.setLink { s.link.attemptCompleted slot with txErr := s.link.txErr - 1 })
  | _, _ => s

end Sys2Proof.Machine
end

