-- ==== Sys2Proof/Machine/Sense.lean ====
section
/-! DEFINITION. The Sense Unit: samples and the epoch's measurement (R42–R46), trips and what follows them (R47–R56),
open load (R57) and supply (R58–R62). -/

namespace Sys2Proof.Machine

/-- The decision of R52: attempt count after the trip, retry delay if a retry follows, PERSIST-noted. -/
structure RetryDecision where
  attempts : Nat
  delay : Option Nat
  persistNoted : Bool
  deriving DecidableEq, Repr

/-- The retry decision (R52). -/
def retryDecision (k : ChannelConfig) (attempts : Nat) : RetryDecision :=
  if attempts < k.retryLimit then
    { attempts := attempts + 1, delay := some (min 255 (k.retryBase * 2 ^ attempts)), persistNoted := false }
  else
    match k.limitAction with
    | .latch => { attempts := attempts, delay := none, persistNoted := false }
    | .persist => { attempts := attempts, delay := some 255, persistNoted := true }

/-- The record a trip writes (R53), and the timer it starts where a retry follows (R54). -/
def Channel.tripped (x : Channel) (k : FaultKind) (current epoch step : Nat) (d : RetryDecision) : Channel :=
  { x with
    fault := { kind := k, current := current, epoch := epoch, step := step, attempts := d.attempts,
               persistNoted := d.persistNoted, isNew := true }
    retryTimer := match d.delay with | some n => some n | none => x.retryTimer }

/-- Trip: taken in INRUSH or ON, ignored elsewhere (R13, R52–R54). The FAULT pin follows the new record (R160). -/
def trip (c : Chan) (k : FaultKind) (current step : Nat) (s : State) : State :=
  if (s.ch c).state.live then
    let d := retryDecision (s.cfg c) (s.ch c).fault.attempts
    let s1 := s.updCh c fun x => x.tripped k current s.timer.number step d
    (enter c (if d.delay.isSome then .tripped else .latched) .none s1).refreshFault
  else s

/-- Comparator cut-off: the active duty alone goes to 0 (R49, R50). -/
def cutOff (c : Chan) (s : State) : State := s.updCh c fun x => { x with activeDuty := 0 }

/-- The limit in force of a channel in INRUSH or ON (R47). -/
def limitInForce (k : ChannelConfig) (st : ChState) : Nat := if st = .inrush then k.inrushLimit else k.steadyLimit

/-- Open load: a sample taken in ON against the threshold (R57). -/
def Channel.openLoad (x : Channel) (threshold sample : Nat) : Channel :=
  if threshold = 0 then x
  else if sample < threshold then
    if x.openCount < 3 then { x with openCount := x.openCount + 1 } else { x with openCount := 0, openFlag := true }
  else { x with openCount := 0, openFlag := false }

/-- What a sample leaves at its channel before the overcurrent test: pending term (R43), last sample (R42), open load
(R57). -/
def Channel.sampled (x : Channel) (sample threshold : Nat) : Channel :=
  let y := { x with pendingTerm := some { sample := sample, duty := x.activeDuty }
                    lastSample := if x.state.live then some sample else x.lastSample }
  if x.state = .on then y.openLoad threshold sample else y

/-- The overcurrent test of a sample (R47, R48). -/
def overcurrent (c : Chan) (sample step : Nat) (s : State) : State :=
  if (s.ch c).state.live then
    if limitInForce (s.cfg c) (s.ch c).state < sample then
      if (s.ch c).overCount = 0 then s.updCh c fun x => { x with overCount := 1 }
      else trip c .overcurrent sample step s
    else s.updCh c fun x => { x with overCount := 0 }
  else s

/-- One on-current sample (R42). Each channel gives one in a period of active duty 1 or more. -/
def takeSample (c : Chan) (current : Nat) (s : State) : State :=
  if s.modulator.running && (1 ≤ (s.ch c).activeDuty && (s.ch c).pendingTerm.isNone) then
    let sample := min current 511
    let step := sampleStep s.own c (s.ch c).activeDuty
    overcurrent c sample step
      ((s.atStep step).updCh c fun x => x.sampled sample (s.cfg c).openThreshold)
  else s

/-- The period completed: pending terms and the pending supply sample are added (R43, R58). -/
def addPending (s : State) : State :=
  let s1 := s.mapCh fun _ x =>
    { x with drawAcc := x.drawAcc + (match x.pendingTerm with | some p => p.sample * p.duty | none => 0)
             pendingTerm := none }
  s1.setSense { s1.sense with supplySum := s1.sense.supplySum + s1.sense.pendingSupply.getD 0, pendingSupply := none }

/-- The period abandoned: pending terms and the pending supply sample are dropped (R43, R58). -/
def dropPending (s : State) : State :=
  let s1 := s.mapCh fun _ x => { x with pendingTerm := none }
  s1.setSense { s1.sense with pendingSupply := none }

/-- Draws and markers of one channel at an epoch start that closes `n` completed periods (R44, R45). The channel's
window does not end at this epoch start when some of it remains. -/
def Channel.closeEpoch (x : Channel) (n : Nat) : Channel :=
  { x with epochDraw := x.drawAcc / (n * 255)
           drawAcc := 0
           closedMarker := x.runningMarker
           runningMarker := x.state = .inrush && x.inrushRemaining ≠ 0 }

/-- The class draw of class `k` (R46). -/
def State.classDraw (s : State) (k : Cls) : Nat :=
  min 4095 (sumChans (fun c => (s.cfg c).cls = k && !(s.ch c).closedMarker) fun c => (s.ch c).epochDraw)

/-- Closing the measurement of an epoch of `n` completed periods (R44–R46). -/
def closeMeasurement (n : Nat) (s : State) : State :=
  let s1 := s.mapCh fun _ x => x.closeEpoch n
  s1.setSense { s1.sense with
    draws := { d0 := s1.classDraw 0, d1 := s1.classDraw 1, d2 := s1.classDraw 2, d3 := s1.classDraw 3 } }

/-- The supply condition after the test of an epoch mean (R59, R61). -/
def supplyAfterMean (cond : Supply) (mean vLow vCut : Nat) : Supply :=
  match cond with
  | .normal => if mean < vLow then .low else .normal
  | .low => if vLow + 10 ≤ mean then .normal else .low
  | .cut => if vCut + 10 ≤ mean then .low else .cut

/-- The epoch mean supply is tested, and leaving CUT is made known (R59, R61, R62). -/
def testSupply (n : Nat) (s : State) : State :=
  let after := supplyAfterMean s.sense.supply (s.sense.supplySum / n) s.params.vLow s.params.vCut
  let s1 := s.setSense { s.sense with supply := after, supplySum := 0 }
  if s.sense.supply = .cut && after ≠ .cut then setSupplyCause false s1 else s1

/-- One supply sample (R58, R60, R62). Each period gives one. -/
def takeSupply (voltage : Nat) (s : State) : State :=
  if s.modulator.running && s.sense.pendingSupply.isNone then
    let v := min voltage 400
    let s1 := (s.atStep 128).setSense { s.sense with pendingSupply := some v }
    if s.sense.supply = .cut then s1
    else if v < s.params.vCut then
      if s.sense.lowSamples = 0 then s1.setSense { s1.sense with lowSamples := 1 }
      else setSupplyCause true (s1.setSense { s1.sense with supply := .cut, lowSamples := 0 })
    else s1.setSense { s1.sense with lowSamples := 0 }
  else s

/-- SHORT: the comparator fires above 640 dA on an output that is on (R49). -/
def comparatorFires (c : Chan) (step current : Nat) (s : State) : State :=
  if step ≤ 254 && (s.onAt c step && 640 < current) then
    let s1 := s.atStep step
    if (s.ch c).state.live then trip c .short 640 step s1 else cutOff c s1
  else s

/-- THERMAL: the over-temperature report is present on an output that is on (R50). -/
def thermalReport (c : Chan) (step : Nat) (s : State) : State :=
  if step ≤ 254 && s.onAt c step then
    let s1 := s.atStep step
    if (s.ch c).state.live then trip c .thermal ((s.ch c).lastSample.getD 0) step s1 else cutOff c s1
  else s

/-- A channel's inrush window has ended: the end-of-window test (R12, R51). -/
def windowEnd (c : Chan) (s : State) : State :=
  if (s.ch c).state = .inrush && (s.ch c).inrushRemaining = 0 then
    match (s.ch c).lastSample with
    | some v => if (s.cfg c).steadyLimit < v then trip c .stall v 0 s else enter c .on .none s
    | none => enter c .on .none s
  else s

/-- A retry timer that has reached 0 stops, and retry due is raised (R54, R14). -/
def retryDue (c : Chan) (s : State) : State :=
  if (s.ch c).retryTimer = some 0 then
    retryAtChannel c (s.updCh c fun x => { x with retryTimer := none })
  else s

/-- The ON-epoch count stands at 50: the attempt count is reset (R56, R55). -/
def attemptReset (c : Chan) (s : State) : State :=
  if (s.ch c).onEpochs = 50 then s.updCh c Channel.resetAttempts else s

/-- A CLEAR at the Sense Unit: the new flag is cleared and the attempt count reset (R55, R159). -/
def clearRecord (c : Chan) (s : State) : State :=
  s.updCh c fun x => { x with fault := { x.fault with attempts := 0, persistNoted := false, isNew := false } }

/-- The counts of one channel that an epoch start moves: inrush remaining (R12), retry timer (R54), ON-epoch count
(R56). -/
def Channel.countEpoch (x : Channel) : Channel :=
  { x with inrushRemaining := if x.state = .inrush then x.inrushRemaining - 1 else x.inrushRemaining
           retryTimer := x.retryTimer.map (· - 1)
           onEpochs := if x.state = .on then min 50 (x.onEpochs + 1) else 0 }

end Sys2Proof.Machine
end

