-- ==== Sys2Proof/Machine/Signals.lean ====
section
/-! DEFINITION. The Signal Unit: the Store (R65–R69), transforms (R70–R72), resolution (R73), the direct inputs (R74)
and their publication (R75). -/

namespace Sys2Proof.Machine

/-- The key is one of the station's own direct inputs (R66). -/
def isOwnInput (own : Stn) (source : Stn) (signal : Fin 64) : Bool := source = own && 60 ≤ signal.val

/-- An entry's key (R65). -/
def StoreEntry.hasKey (e : StoreEntry) (source : Stn) (signal : Nat) : Bool := e.source = source && e.signal.val = signal

/-- The Store entries of a Binding Table: one for each distinct key, in the order of first appearance, but for the own
direct inputs (R65). -/
def storeOf (own : Stn) (table : List Binding) : List StoreEntry :=
  table.foldl (fun store b =>
    if isOwnInput own b.source b.signal || store.any (·.hasKey b.source b.signal.val) then store
    else store ++ [{ source := b.source, signal := b.signal, value := 0, age := 255, state := .expired }]) []

/-- The value an entry gives a binding (R69). -/
def entryValue (b : Binding) (e : StoreEntry) : Nat :=
  match e.state, b.fallback with
  | .fresh, _ => e.value
  | .expired, .hold => e.value
  | .expired, .level => b.fallbackLevel

/-- The input value of a binding (R66, R69). -/
def State.inputValue (s : State) (b : Binding) : Nat :=
  if isOwnInput s.own b.source b.signal then levelOf (dinGet s.signal.inputs (b.signal.val - 60))
  else
    match s.signal.store.find? (·.hasKey b.source b.signal.val) with
    | some e => entryValue b e
    | none => 0

/-- A binding's contribution (R70). -/
def contribution (b : Binding) (phaseOn : Bool) (v : Nat) : Nat :=
  match b.transform with
  | .direct => v
  | .switch => if b.threshold ≤ v then 255 else 0
  | .invert => 255 - v
  | .flash => if b.threshold ≤ v && phaseOn then 255 else 0

/-- The demand level of a channel: the greatest contribution (R72), or in LIMP the level of its direct input (R76). -/
def State.level (s : State) (c : Chan) : Nat :=
  if s.loader.runMode = .limp then (if c.val < 4 then levelOf (dinGet s.signal.inputs c.val) else 0)
  else
    (s.signal.bindings.filter (·.chan = c)).foldl
      (fun m b => max m (contribution b s.signal.phaseOn (s.inputValue b))) 0

/-- Resolves one channel: its level is delivered if it differs from the one held (R73). -/
def resolveOne (c : Chan) (s : State) : State :=
  if s.level c = (s.ch c).demandLevel then s else deliver c (s.level c) s

/-- Resolves the enabled channels that a test names, in ascending channel number (R73). -/
def resolve (test : Chan → Bool) (s : State) : State :=
  forChans (fun c s => if (s.cfg c).enabled && test c then resolveOne c s else s) s

/-- A channel has a binding that a test picks. -/
def State.bound (s : State) (test : Binding → Bool) (c : Chan) : Bool :=
  s.signal.bindings.any fun b => b.chan = c && test b

/-- Writes one pair of a SIGNAL frame into the entry of its key (R67). -/
def writePair (sender : Stn) (store : List StoreEntry) (p : Nat × Nat) : List StoreEntry :=
  store.map fun e => if e.hasKey sender p.1 then { e with value := p.2, age := 0, state := .fresh } else e

/-- A pair's key has an entry (R67). -/
def keyHeld (sender : Stn) (store : List StoreEntry) (p : Nat × Nat) : Bool := store.any (·.hasKey sender p.1)

/-- Writes the Store. -/
def State.setStore (s : State) (store : List StoreEntry) : State := s.setSignal { s.signal with store := store }

/-- A SIGNAL frame at the Signal Unit: its pairs are written in payload order, then every enabled channel bound to a
written key is resolved (R67, R73). -/
def takeSignalFrame (sender : Stn) (payload : List Byte) (s : State) : State :=
  if wholePairs payload then
    let pairs := signalPairs payload
    let written := pairs.filter (keyHeld sender s.signal.store)
    let s1 := s.setStore (pairs.foldl (writePair sender) s.signal.store)
    resolve (s1.bound fun b => b.source = sender && written.any fun p => p.1 = b.signal.val) s1
  else s

/-- An entry that is FRESH at the signal lifetime becomes EXPIRED (R68). -/
def StoreEntry.expire (e : StoreEntry) (lifetime : Nat) : StoreEntry :=
  if e.state = .fresh && lifetime ≤ e.age then { e with state := .expired } else e

/-- An entry ages by one epoch, and expires at the lifetime (R68). -/
def StoreEntry.grow (e : StoreEntry) (lifetime : Nat) : StoreEntry :=
  ({ e with age := min 255 (e.age + 1) }).expire lifetime

/-- The flash phase is taken from the epoch number (R71). -/
def takePhase (s : State) : State := s.setSignal { s.signal with phaseOn := flashPhase s.timer.number }

/-- What the Signal Unit does first at an epoch start: ageing and expiry, then the flash phase (R68, R71). -/
def ageSignals (s : State) : State := takePhase (s.setStore (s.signal.store.map (·.grow s.params.lifetime)))

/-- Every enabled channel is resolved, as at an epoch start (R73). -/
def resolveAll (s : State) : State := resolve (fun _ => true) s

/-- Every enabled channel with a FLASH binding is resolved, as at a realignment that changes the number (R71, R73). -/
def resolveFlash (s : State) : State := resolve (s.bound fun b => b.transform = .flash) s

/-- SIGNAL_EXPIRY: a FRESH entry at the lifetime becomes EXPIRED, and the channels bound to its key are resolved (R68,
R69). -/
def expireEntry (source : Stn) (signal : Fin 64) (s : State) : State :=
  let due := fun (e : StoreEntry) => e.hasKey source signal.val && (e.state = .fresh && s.params.lifetime ≤ e.age)
  if s.signal.store.any due then
    let s1 := s.setStore (s.signal.store.map fun e => if due e then e.expire s.params.lifetime else e)
    resolve (s1.bound fun b => b.source = source && b.signal = signal) s1
  else s

/-- A publication of the direct inputs (R75). -/
def publish (s : State) : State :=
  if s.publishes then
    (s.handOver (.signal s.signal.inputs)).setSignal { s.signal with pubCount := 0 }
  else s

/-- The publication count is raised at an epoch start (R75). -/
def countPublication (s : State) : State :=
  if s.publishes then s.setSignal { s.signal with pubCount := min 8 (s.signal.pubCount + 1) } else s

/-- The publication due when the count has reached 8 (R75). -/
def periodicPublication (s : State) : State := if s.signal.pubCount = 8 then publish s else s

/-- A channel is bound to a direct input that a test picks by its number 0–3 (R73, R76). -/
def State.boundInput (s : State) (test : Nat → Bool) (c : Chan) : Bool :=
  if s.loader.runMode = .limp then c.val < 4 && test c.val
  else s.bound (fun b => isOwnInput s.own b.source b.signal && test (b.signal.val - 60)) c

/-- Reading the direct inputs at a period start: where one differs from the level held, the bound channels are resolved
and a publication made (R74, R75). Several inputs that change at one period start are one event: every level is replaced,
then the channels bound to any of them are resolved in one ascending pass. DESIGN CHOICE, unsafe (log entry 30). -/
def readInputs (din : DinLevels) (s : State) : State :=
  if din = s.signal.inputs then s
  else
    let s1 := s.setSignal { s.signal with inputs := din }
    publish (resolve (s1.boundInput fun i => dinGet din i ≠ dinGet s.signal.inputs i) s1)

end Sys2Proof.Machine
end

