-- ==== Sys2Proof/Machine/Epoch.lean ====
section
/-! DEFINITION. Periods (R23, R26, R27), the epoch start and the order its parts are taken in (R31–R36, R142), and MARK
received. -/

namespace Sys2Proof.Machine

/-- The step counter returns to 0 and every shadow duty is copied into the active duty (R23, R26). -/
def loadDuties (s : State) : State := s.mapCh fun _ x => { x with activeDuty := x.shadowDuty }

/-- Every channel whose window has ended (R12), in ascending number: the order of channels whose windows end at one epoch
start is a DESIGN CHOICE, unsafe (log entry 29). -/
def windowEnds (s : State) : State := forChans windowEnd s

/-- Every channel whose retry timer has run out (R54, R14), in ascending number: the order of retries due at one epoch
start is a DESIGN CHOICE, unsafe (log entry 29). -/
def retries (s : State) : State := forChans retryDue s

/-- Every channel whose ON-epoch count stands at 50 (R56). -/
def attemptResets (s : State) : State := forChans attemptReset s

/-- Presence of every peer by its age (R101). -/
def peerPresence (s : State) : State := s.mapPeers fun e => e.toStale.toAbsent

/-- One part of an epoch start that closes `n` completed periods (R32). A part is taken as a whole, over all its channels, peers or
entries: where R12 or R14 lets each channel's fall of demand come before or after its own countdown or retry, one operand gives one
order for all channels. DESIGN CHOICE, unsafe (log entry 36). The evaluation and the admission here have nothing between their orders
and their grant; those of `epochTask` have. -/
def runTask (n : Nat) (din : DinLevels) (t : EpochTask) (s : State) : State :=
  match t with
  | .loadDuties => loadDuties s
  | .readInputs => readInputs din s
  | .closeMeasurement => closeMeasurement n s
  | .supplyTest => testSupply n s
  | .signals => resolveAll s
  | .budget => evaluateBudget s
  | .admission => budgetEvaluated s
  | .windowEnds => windowEnds s
  | .retries => retries s
  | .attemptResets => attemptResets s
  | .peerPresence => peerPresence s
  | .holdRemovals => removeRunOut s
  | .publication => periodicPublication s
  | .isolation => isolationDue s

/-- What must be taken before a part: measurement and supply before the evaluation that they lead to, the evaluation
before budget evaluated (R46, R117, R134). -/
def withNeeds (t : EpochTask) : List EpochTask :=
  match t with
  | .budget => [.closeMeasurement, .supplyTest, .budget]
  | .admission => [.closeMeasurement, .supplyTest, .budget, .admission]
  | t => [t]

/-- The parts every epoch start has (R32); the others are the waits that may be left to their own rows. -/
def epochParts : List EpochTask :=
  [.loadDuties, .readInputs, .closeMeasurement, .supplyTest, .signals, .budget, .admission]

/-- Keeps the first of equal parts. -/
def firstOnly : List EpochTask → List EpochTask
  | [] => []
  | t :: rest => t :: (firstOnly rest).filter fun u => u ≠ t

/-- The parts of an epoch start in the order they are taken: those named, then the rest of the epoch start proper. -/
def orderParts (o : EpochOrder) : List EpochTask := firstOnly ((o.tasks ++ epochParts).flatMap withNeeds)

/-- Of several lists of parts, what is taken at each: the parts that act at the channels, each once, and none of those `taken`. -/
def onceEach (taken : List EpochTask) : List (List EpochTask) → List (List EpochTask)
  | [] => []
  | ts :: rest =>
    let us := (firstOnly ts).filter fun t => t.atChannels && !taken.contains t
    us :: onceEach (taken ++ us) rest

/-- The parts taken at each moment that the evaluation of an epoch start leaves between its readings and its orders (R127). -/
def insideParts (o : EpochOrder) : List (List EpochTask) := onceEach o.tasks o.within

/-- The parts taken between the grant of an epoch start and its arrival (R9, R145). -/
def spanParts (o : EpochOrder) : List EpochTask := (onceEach (o.tasks ++ (insideParts o).flatten) [o.granting]).flatten

/-- The parts of an epoch start in order, without those taken inside the evaluation or before the arrival of a grant. -/
def outsideParts (o : EpochOrder) : List EpochTask :=
  (orderParts o).filter fun t => !((insideParts o).flatten ++ spanParts o).contains t

/-- Takes parts in order. -/
def runTasks (n : Nat) (din : DinLevels) (tasks : List EpochTask) (s : State) : State :=
  tasks.foldl (fun s t => runTask n din t s) s

/-- One part of an epoch start, the evaluation with the parts that are taken inside it (R127), the admission with those taken before
a grant arrives (R9, R145). -/
def epochTask (n : Nat) (din : DinLevels) (o : EpochOrder) (t : EpochTask) (s : State) : State :=
  match t with
  | .budget => evaluateAmid ((insideParts o).map (runTasks n din)) s
  | .admission => budgetEvaluatedAmid ((spanParts o).map (runTask n din)) s
  | t => runTask n din t s

/-- The waits that ended at an earlier epoch start and were left to their own rows, taken before the next epoch start
(log entry 5). -/
def settleWaits (s : State) : State :=
  (isolationDue (periodicPublication (removeRunOut (peerPresence (attemptResets (retries (windowEnds s)))))))

/-- The Turn-On Scheduler at an epoch start: its two counts and the announce hold (R142, R150). -/
def schedulerEpoch (s : State) : State :=
  s.setSched { s.sched with
    listen := s.sched.listen - 1, deferral := s.sched.deferral - 1, announceHold := s.surgeHold }

/-- The counts that every epoch start moves, before any of its other parts (R12, R54, R56, R75, R94, R101, R108, R142). The
Signal Unit ages its entries and takes the flash phase first of all (R68, R71), so that no resolution at an epoch start reads
an entry not yet aged or the phase of the epoch before. -/
def countEpochs (schedulerFirst : Bool) (s : State) : State :=
  let s1 := if schedulerFirst then schedulerEpoch s else s
  let s2 := s1.mapCh fun _ x => x.countEpoch
  let s3 := if schedulerFirst then s2 else schedulerEpoch s2
  countPublication (ageSignals (countSilence (lowerHolds (s3.mapPeers PeerEntry.grow))))

/-- The epoch that runs closes with `n` completed periods and epoch `m` starts (R31, R32, R34). -/
def epochStart (n m : Nat) (inp : Inputs) (ord : EpochOrder) (s : State) : State :=
  let s1 := (settleWaits s).setPins { s.pins with charge := inp.charge }
  let s2 := s1.setTimer { s1.timer with number := m, completed := 0 }
  (outsideParts ord).foldl (fun s t => epochTask n inp.din ord t s) (countEpochs ord.schedulerFirst s2)

/-- The own MARK is handed over at an own expiry, and is pending; not queued while MUTED (R31, R33, R38). -/
def queueMark (number : Nat) (s : State) : State :=
  if s.link.muted then s
  else
    let s1 := s.handOver (.mark number)
    s1.setTimer { s1.timer with markPending := true }

/-- Own expiry: the fourth completion closes the epoch with 4 periods (R31). -/
def ownExpiry (inp : Inputs) (ord : EpochOrder) (s : State) : State :=
  let m := (s.timer.number + 1) % 256
  epochStart 4 m inp ord (queueMark m ((addPending s).atStep 0))

/-- The parts of a period start that opens no epoch, in their order (R26, R74). -/
def periodParts (o : EpochOrder) : List EpochTask :=
  (orderParts o).filter fun t => t = .loadDuties || t = .readInputs

/-- Period completed, and the next period begins; the fourth completion is the own expiry (R23, R31, R43, R58). -/
def periodCompleted (inp : Inputs) (ord : EpochOrder) (s : State) : State :=
  if s.timer.completed < 3 then
    let s1 := (addPending s).atStep 0
    let s2 := s1.setTimer { s1.timer with completed := s1.timer.completed + 1 }
    runTasks 0 inp.din (periodParts ord) (s2.setPins { s2.pins with charge := inp.charge })
  else ownExpiry inp ord s

/-- The own MARK is withdrawn and no longer pending (R34, R35). -/
def withdrawMark (s : State) : State :=
  let s1 := if s.timer.markPending then s.withdraw .mark else s
  s1.setTimer { s1.timer with markPending := false }

/-- The period is abandoned and a new one begins at step 0 (R27). -/
def abandonPeriod (s : State) : State := (dropPending s).atStep 0

/-- One part of a realignment (R35): the period start, and the resolution of the FLASH channels where the number has changed
(R71). -/
def realignTask (moved : Bool) (din : DinLevels) (t : EpochTask) (s : State) : State :=
  match t with
  | .loadDuties => loadDuties s
  | .readInputs => readInputs din s
  | .signals => if moved then resolveFlash s else s
  | _ => s

/-- Realignment onto a received number, no epoch start: the flash phase is taken at once where the number has changed (R35,
R71). -/
def realign (m : Nat) (inp : Inputs) (ord : EpochOrder) (s : State) : State :=
  let s1 := abandonPeriod (withdrawMark s)
  let s2 := (s1.setTimer { s1.timer with number := m }).setPins { s1.pins with charge := inp.charge }
  let s3 := if m ≠ s.timer.number then takePhase s2 else s2
  (orderParts ord).foldl (fun x t => realignTask (m ≠ s.timer.number) inp.din t x) s3

/-- A MARK accepted after the first period (R34). -/
def acceptMark (m : Nat) (inp : Inputs) (ord : EpochOrder) (s : State) : State :=
  epochStart s.timer.completed m inp ord (abandonPeriod (withdrawMark s))

/-- A MARK at the Epoch Timer (R34–R36). -/
def takeMark (m : Nat) (inp : Inputs) (ord : EpochOrder) (s : State) : State :=
  if 1 ≤ s.timer.completed then acceptMark m inp ord s
  else if s.timer.markPending then realign m inp ord s
  else s

end Sys2Proof.Machine
end

