-- ==== Sys2Proof/Machine/EpochFamily.lean ====
section
/-! DEFINITION. Meanings of the period and epoch commands. -/

namespace Sys2Proof.Machine

/-- PERIOD_COMPLETED (R23, R26, R31, R43). The fourth completion is the own expiry (log entry 2). -/
def execPeriodCompleted (inp : Inputs) (ord : EpochOrder) (s : State) : Host.Outcome State Fault Refusal :=
  .next (whenLoaded (periodCompleted inp ord) s)

/-- OWN_EXPIRY (R31, R32): the fourth completion. At any other completed-period count it does not arise (log entries 1,
2). -/
def execOwnExpiry (inp : Inputs) (ord : EpochOrder) (s : State) : Host.Outcome State Fault Refusal :=
  .next (whenLoaded (fun x => if x.timer.completed = 3 then ownExpiry inp ord x else x) s)

end Sys2Proof.Machine
end

