-- ==== Sys2Proof/Machine/LineFamily.lean ====
section
/-! DEFINITION. Meanings of the events of the own sending, and of a discarded reception. -/

namespace Sys2Proof.Machine

/-- LINE_IDLE (R79, R81). -/
def execLineIdle (s : State) (bits : List (Bool × Bool) := idleBits) : Host.Outcome State Fault Refusal :=
  .next (whenLoaded (offerFrame bits) s)

/-- CONTENTION_LOST (R82). -/
def execContentionLost (bit : Nat) (s : State) : Host.Outcome State Fault Refusal :=
  .next (whenLoaded (contentionLost bit) s)

/-- ABORT (R83, R91, R92). -/
def execAbort (bit : Nat) (s : State) : Host.Outcome State Fault Refusal :=
  .next (whenLoaded (abortFrame bit) s)

/-- TRANSMIT_COMPLETION (R84). -/
def execTransmitCompletion (s : State) : Host.Outcome State Fault Refusal :=
  .next (whenLoaded completeFrame s)

/-- DISCARDED_RECEPTION (R79, R85). A dominant level that is no start, and samples that form a valid frame, are no discarded
reception (R79, log entry 1). It is counted whatever stands on the line: one that comes while an own frame is on the line, where the
station is no receiver (R81), raises the receive error count all the same. DESIGN CHOICE, unsafe (log entry 27). -/
def execDiscardedReception (samples : List (Bool × Bool)) (s : State) (before : List (Bool × Bool) := idleBits) :
    Host.Outcome State Fault Refusal :=
  .next (whenLoaded (fun x => if discards before samples then discardReception x else x) s)

end Sys2Proof.Machine
end

