-- ==== Sys2Proof/Machine/Loader.lean ====
section
/-! DEFINITION. Reset (R161), the straps (R162), the image (R163, R164) and load end (R169). -/

namespace Sys2Proof.Machine

/-- Every block at its reset values (R161). The levels of the input pins and the queue of commands are not the part's to
reset. -/
def resetPart (s : State) : State := { State.reset with pins := s.pins, pending := s.pending }

/-- The bit a strap reads as; one left open reads as 1 (R162). -/
def strapBit (x : Strap) : Nat := if x = .low then 0 else 1

/-- The station number of the straps, STN0 least significant (R162). -/
def strapNumber (x : Straps) : Stn :=
  Fin.ofNat 16 (strapBit x.stn0 + 2 * strapBit x.stn1 + 4 * strapBit x.stn2 + 8 * strapBit x.stn3)

/-- The hold ends: the straps are read, and the read of the image begins (R161–R163). -/
def beginLoad (x : Straps) (s : State) : State :=
  if s.loader.phase = .held then
    s.setLoader { s.loader with station := strapNumber x, phase := .reading }
  else s

/-- Checking of the image buffer: RUNNING with the image's configuration, or LIMP with the fixed one (R164–R168). -/
def checkImage (buffer : List Byte) (l : Loader) : Loader :=
  if imageAccepted buffer then
    { l with buffer := buffer, runMode := .running, config := some (imageConfiguration buffer) }
  else { l with buffer := buffer, runMode := .limp, config := some limpConfiguration }

/-- The Binding Table in force (R164, R167, R168). -/
def tableOf (buffer : List Byte) : List Binding := if imageAccepted buffer then imageBindings buffer else []

/-- Load end, step 1: the configuration is handed to every block, the Binding Table filled and the Store created
(R169, R64, R65). -/
def handOut (buffer : List Byte) (s : State) : State :=
  let s1 := s.setLoader { checkImage buffer s.loader with phase := .loaded }
  s1.setSignal { s1.signal with bindings := tableOf buffer, store := storeOf s1.own (tableOf buffer) }

/-- Load end, step 2: epoch 0 and the first period start, with the first reading of the direct inputs (R169, R29, R40,
R74). -/
def startPeriods (din : DinLevels) (s : State) : State :=
  let s1 := s.setTimer { running := true, number := 0, completed := 0, markPending := false }
  let s2 := { s1 with modulator := { running := true, step := 0 } }
  loadDuties (s2.setSignal { s2.signal with inputs := din })

/-- Load end, step 4: the ISOLATE level is taken (R169, R21). -/
def takeIsolateLevel (s : State) : State := if s.pins.isolate then setIsolateCause true s else s

/-- Load end, step 5: the flash phase of epoch 0, the first resolution, delivered to every enabled channel, and the first
publication (R169, R22, R73, R75). -/
def firstResolution (s : State) : State :=
  let s1 := s.setSignal { s.signal with phaseOn := flashPhase 0 }
  publish (forChans (fun c s => if (s.cfg c).enabled then deliver c (s.level c) s else s) s1)

/-- Load end, step 6: the listen count and the FAULT pin (R169, R143, R160). -/
def startListening (s : State) : State := s.listenAgain.refreshFault

/-- Load end, its steps in order (R169). -/
def loadEnd (buffer : List Byte) (din : DinLevels) (s : State) : State :=
  startListening (firstResolution (takeIsolateLevel (startPeriods din (handOut buffer s))))

/-- The serial read stops: the image is checked and load end follows (R163, R164, R169). -/
def finishRead (memory : List Byte) (din : DinLevels) (s : State) : State :=
  if s.loader.phase = .reading then loadEnd (readImage memory) din s else s

/-- A change of the ISOLATE input: taken after load end; before it the level alone is noted (R19, R21). -/
def isolateChanged (high : Bool) (s : State) : State :=
  let s1 := s.setPins { s.pins with isolate := high }
  if s.isLoaded && high ≠ s.pins.isolate then setIsolateCause high s1 else s1

end Sys2Proof.Machine
end

