-- ==== Sys2Proof/Machine/LoadFamily.lean ====
section
/-! DEFINITION. Meanings of the reset and load commands. -/

namespace Sys2Proof.Machine

/-- RESET (R161, R29, R98): every block returns to its reset values, whatever was in flight. -/
def execReset (s : State) : Host.Outcome State Fault Refusal :=
  .next (resetPart s)

/-- HOLD_ENDS (R161, R162). -/
def execHoldEnds (straps : Straps) (s : State) : Host.Outcome State Fault Refusal :=
  .next (beginLoad straps s)

/-- READ_STOPS (R163, R164–R169). -/
def execReadStops (memory : List Byte) (din : DinLevels) (s : State) : Host.Outcome State Fault Refusal :=
  .next (finishRead memory din s)

end Sys2Proof.Machine
end

