-- ==== Sys2Proof/Machine/Diagnostics.lean ====
section
/-! DEFINITION. The Diagnostic Responder: a QUERY (R155), its report (R156–R158, layouts R171), CLEAR and CLEAR ALL
(R159). -/

namespace Sys2Proof.Machine

/-- The seven items a QUERY may name (R155, R171). -/
inductive Item where
  | summary | channel | peer | link | clear | clearAll | record
  deriving DecidableEq, Repr

/-- Item codes (R171). -/
def Item.code : Item → Nat
  | .summary => 0
  | .channel => 1
  | .peer => 2
  | .link => 3
  | .clear => 4
  | .clearAll => 5
  | .record => 6

/-- The item of a code; 7–15 name none (R155). -/
def itemOf (code : Nat) : Option Item :=
  [Item.summary, .channel, .peer, .link, .clear, .clearAll, .record].find? fun i => i.code = code

/-- The item's argument names a channel or a peer (R155). -/
def Item.named : Item → Bool
  | .channel => true
  | .peer => true
  | .clear => true
  | .record => true
  | _ => false

/-- Channel state codes (R171). -/
def chStateCode : ChState → Nat
  | .off => 0
  | .requested => 1
  | .inrush => 2
  | .on => 3
  | .shed => 4
  | .tripped => 5
  | .latched => 6
  | .cut => 7

/-- Fault kind codes (R171). -/
def faultCode : FaultKind → Nat
  | .none => 0
  | .short => 1
  | .overcurrent => 2
  | .stall => 3
  | .thermal => 4

/-- Presence codes (R171). -/
def presenceCode : Presence → Nat
  | .absent => 0
  | .present => 1
  | .stale => 2

/-- Supply condition codes (R171). -/
def supplyCode : Supply → Nat
  | .normal => 0
  | .low => 1
  | .cut => 2

/-- Link state codes (R78, R171). -/
def linkCode (l : LinkController) : Nat := l.muted.toNat * 2 + l.isolated.toNat

/-- Run mode codes, LISTEN where RUNNING with the listen count above 0 (R157, R171). -/
def State.runModeCode (s : State) : Nat :=
  if s.loader.runMode = .limp then 1 else if 0 < s.sched.listen then 2 else 0

/-- Channels in ON (R157). -/
def State.onCount (s : State) : Nat := (allChans.filter fun c => (s.ch c).state = .on).length

/-- New faults (R157). -/
def State.newCount (s : State) : Nat := (allChans.filter fun c => (s.ch c).fault.isNew).length

/-- The high byte of a two-byte value (R171). -/
def highByte (n : Nat) : Byte := byteOf (n / 256)

/-- SUMMARY content (R157, R171). -/
def State.summaryContent (s : State) : List Byte :=
  [byteOf (s.runModeCode * 64 + linkCode s.link * 16 + supplyCode s.sense.supply * 4 + s.budget.overload.toNat * 2 +
      s.diag.clashFlag.toNat),
   byteOf s.onCount, byteOf s.newCount, highByte s.budget.figures.steady, byteOf s.budget.figures.steady, 0]

/-- CHANNEL content (R158, R171). -/
def State.channelContent (s : State) (c : Chan) : List Byte :=
  let x := s.ch c
  let word := x.epochDraw * 128 + x.fault.attempts * 16
  [byteOf (chStateCode x.state * 32 + x.openFlag.toNat * 16 + x.fault.isNew.toNat * 8 + faultCode x.fault.kind),
   byteOf x.demandDuty, byteOf x.cap, highByte word, byteOf word, byteOf x.fault.epoch]

/-- Class, channel and hold less 1 of a list entry, 0 where none is held (R171). -/
def entryFields (r : Option Reservation) : Nat × Nat × Nat :=
  match r with
  | some r => (r.cls.val, r.chan.val, r.hold - 1)
  | none => (0, 0, 0)

/-- Sum of an entry's held class draws, 0 when ABSENT (R114). -/
def PeerEntry.drawSum (e : PeerEntry) : Nat :=
  if e.presence = .absent then 0 else match e.draws with | some d => d.sum | none => 0

/-- PEER content (R158, R114, R171). -/
def State.peerContent (s : State) (p : Stn) : List Byte :=
  let e := s.peer p
  let o := s.entryOf p .ordinary
  let a := s.entryOf p .announce
  [byteOf (presenceCode e.presence * 64 + o.isSome.toNat * 32 + a.isSome.toNat * 16 + (entryFields o).1 * 4 +
      (entryFields a).1),
   byteOf e.age, highByte e.drawSum, byteOf e.drawSum,
   byteOf ((entryFields o).2.1 * 16 + (entryFields a).2.1),
   byteOf ((entryFields o).2.2 * 16 + (entryFields a).2.2)]

/-- LINK content (R157, R171). -/
def State.linkContent (s : State) : List Byte :=
  [byteOf s.link.txErr, byteOf s.link.rxErr, byteOf (linkCode s.link), byteOf s.diag.overruns, byteOf s.link.clash, 0]

/-- RECORD content (R158, R171). -/
def State.recordContent (s : State) (c : Chan) : List Byte :=
  let f := (s.ch c).fault
  [byteOf (faultCode f.kind * 32 + f.isNew.toNat * 16 + f.persistNoted.toNat * 8 + f.attempts),
   highByte (f.current * 64), byteOf (f.current * 64), byteOf f.epoch, byteOf f.step, 0]

/-- CLEAR of one channel: its record at the Sense Unit, then the release (R159, R55, R15). -/
def clearChannel (c : Chan) (s : State) : State := releaseLatch c (clearRecord c s)

/-- CLEAR c: the channel, then the FAULT pin (R159). -/
def clearOne (c : Chan) (s : State) : State := (clearChannel c s).refreshFault

/-- CLEAR ALL: every channel, then the clash flag and count, then the FAULT pin (R159). -/
def clearEvery (s : State) : State :=
  let s1 := forChans clearChannel s
  let s2 := (s1.setDiag { s1.diag with clashFlag := false }).setLink { s1.link with clash := 0 }
  s2.refreshFault

/-- What an item carries out before it is answered (R159). -/
def itemAction (item : Item) (arg : Byte) (s : State) : State :=
  match item with
  | .clear => clearOne (Fin.ofNat 16 arg.toNat) s
  | .clearAll => clearEvery s
  | _ => s

/-- The content an item is answered with (R156–R158). -/
def State.itemContent (s : State) (item : Item) (arg : Byte) : List Byte :=
  let n : Fin 16 := Fin.ofNat 16 arg.toNat
  match item with
  | .summary => s.summaryContent
  | .channel => s.channelContent n
  | .peer => s.peerContent n
  | .link => s.linkContent
  | .clear => s.channelContent n
  | .clearAll => s.summaryContent
  | .record => s.recordContent n

/-- The report is handed over and is pending; while MUTED the hand-over is refused and nothing is pending (R156). -/
def sendReport (item : Item) (arg : Byte) (s : State) : State :=
  if s.link.muted then s
  else
    let s1 := s.handOver (.report item.code arg (s.itemContent item arg))
    s1.setDiag { s1.diag with reportPending := true }

/-- A QUERY addressed to the station for an item it knows: dropped and counted while a report is pending, otherwise
executed and answered (R155, R156). -/
def takeItem (item : Item) (arg : Byte) (s : State) : State :=
  if s.diag.reportPending then s.setDiag { s.diag with overruns := min 255 (s.diag.overruns + 1) }
  else sendReport item arg (itemAction item arg s)

/-- A QUERY at the Responder; the first line of R155 that applies decides. -/
def takeQuery (b0 arg : Byte) (s : State) : State :=
  if queryTarget b0 ≠ s.own then s
  else
    match itemOf (queryItem b0) with
    | none => s
    | some item => if item.named && 16 ≤ arg.toNat then s else takeItem item arg s

/-- A valid QUERY of two payload bytes is counted and delivered, whatever its sender and target (R86, R87). It ends ISOLATED
before it is delivered (R95, R155) and its content is read as it is taken (R156), so no report carries ISOLATED, which R157
allows: DEDUCED, unsafe (log entry 33). -/
def receiveQuery (b0 arg : Byte) (s : State) : State := takeQuery b0 arg (validFrame s)

end Sys2Proof.Machine
end

