-- ==== Sys2Proof/Machine/QueryFamily.lean ====
section
/-! DEFINITION. Meanings of the QUERY frames (R155–R159). -/

namespace Sys2Proof.Machine

/-- SUMMARY (R155, R156, R157). -/
def execSummary (_sender target : Stn) (arg : Byte) (s : State) : Host.Outcome State Fault Refusal :=
  .next (whenLoaded (receiveQuery (queryByte target (Item.code .summary)) arg) s)

/-- CHANNEL (R155, R156, R158). -/
def execChannel (_sender target : Stn) (arg : Byte) (s : State) : Host.Outcome State Fault Refusal :=
  .next (whenLoaded (receiveQuery (queryByte target (Item.code .channel)) arg) s)

/-- PEER (R155, R156, R158, R114). -/
def execPeer (_sender target : Stn) (arg : Byte) (s : State) : Host.Outcome State Fault Refusal :=
  .next (whenLoaded (receiveQuery (queryByte target (Item.code .peer)) arg) s)

/-- LINK (R155, R156, R157). -/
def execLink (_sender target : Stn) (arg : Byte) (s : State) : Host.Outcome State Fault Refusal :=
  .next (whenLoaded (receiveQuery (queryByte target (Item.code .link)) arg) s)

/-- CLEAR (R155, R156, R159). -/
def execClear (_sender target : Stn) (arg : Byte) (s : State) : Host.Outcome State Fault Refusal :=
  .next (whenLoaded (receiveQuery (queryByte target (Item.code .clear)) arg) s)

/-- CLEAR_ALL (R155, R156, R159). -/
def execClearAll (_sender target : Stn) (arg : Byte) (s : State) : Host.Outcome State Fault Refusal :=
  .next (whenLoaded (receiveQuery (queryByte target (Item.code .clearAll)) arg) s)

/-- RECORD (R155, R156, R158). -/
def execRecord (_sender target : Stn) (arg : Byte) (s : State) : Host.Outcome State Fault Refusal :=
  .next (whenLoaded (receiveQuery (queryByte target (Item.code .record)) arg) s)

/-- QUERY_IGNORED (R155): the two payload bytes are sorted by R155 as those of any QUERY. -/
def execQueryIgnored (_sender : Stn) (b0 b1 : Byte) (s : State) : Host.Outcome State Fault Refusal :=
  .next (whenLoaded (receiveQuery b0 b1) s)

end Sys2Proof.Machine
end

