-- ==== Sys2Proof/Machine/ReceiveFamily.lean ====
section
/-! DEFINITION. Meanings of the received frames (R86, R87). -/

namespace Sys2Proof.Machine

/-- MARK_RECEIVED (R34–R36). -/
def execMarkReceived (sender : Stn) (payload : List Byte) (inp : Inputs) (ord : EpochOrder) (s : State) : Host.Outcome State Fault Refusal :=
  .next (whenLoaded (receiveChecked (requiredLength .mark) sender payload (takeMark (payloadByte payload 0) inp ord)) s)

/-- RESERVE_RECEIVED (R105). -/
def execReserveReceived (sender : Stn) (payload : List Byte) (s : State) : Host.Outcome State Fault Refusal :=
  .next (whenLoaded (receiveChecked (requiredLength .reserve) sender payload (takeReserve (reserveOf sender payload))) s)

/-- RELEASE_RECEIVED (R106). -/
def execReleaseReceived (sender : Stn) (payload : List Byte) (s : State) : Host.Outcome State Fault Refusal :=
  .next (whenLoaded (receiveChecked (requiredLength .release) sender payload (takeRelease sender (releaseTypeOf payload))) s)

/-- STATUS_RECEIVED (R100). -/
def execStatusReceived (sender : Stn) (payload : List Byte) (s : State) : Host.Outcome State Fault Refusal :=
  .next (whenLoaded (receiveChecked (requiredLength .status) sender payload (takeStatus sender payload)) s)

/-- SIGNAL_RECEIVED (R67): passed on whatever its length and sender. -/
def execSignalReceived (sender : Stn) (payload : List Byte) (s : State) : Host.Outcome State Fault Refusal :=
  .next (whenLoaded (fun x => takeSignalFrame sender payload (validFrame x)) s)

/-- REPORT_FRAME_RECEIVED (R86): counted, not delivered. -/
def execReportFrameReceived (_sender : Stn) (_payload : List Byte) (s : State) : Host.Outcome State Fault Refusal :=
  .next (whenLoaded validFrame s)

/-- KIND_7_FRAME_RECEIVED (R86): counted, not delivered. -/
def execKind7FrameReceived (_sender : Stn) (_payload : List Byte) (s : State) : Host.Outcome State Fault Refusal :=
  .next (whenLoaded (fun x => validFrame x) s)

/-- PAYLOAD_LENGTH_DISCARD (R86). A payload of the required length is no discard (log entry 1). One of a wrong length that
bears the own number is a receive error and no clash: DESIGN CHOICE, unsafe (log entry 31). -/
def execPayloadLengthDiscard (kind : FixedKind) (_sender : Stn) (payload : List Byte) (s : State) : Host.Outcome State Fault Refusal :=
  .next (whenLoaded (fun x => if payload.length ≠ requiredLength kind then receiveError (validFrame x) else x) s)

end Sys2Proof.Machine
end

