-- ==== Sys2Proof/Machine/SenseFamily.lean ====
section
/-! DEFINITION. Meanings of the samples, the comparator and the temperature report, and ISOLATE. -/

namespace Sys2Proof.Machine

/-- CURRENT_SAMPLE (R42, R47, R48, R57). -/
def execCurrentSample (c : Chan) (current : Nat) (s : State) : Host.Outcome State Fault Refusal :=
  .next (whenLoaded (takeSample c current) s)

/-- SUPPLY_SAMPLE (R58, R60, R62). -/
def execSupplySample (voltage : Nat) (s : State) : Host.Outcome State Fault Refusal :=
  .next (whenLoaded (takeSupply voltage) s)

/-- SHORT (R49). -/
def execShort (c : Chan) (step : Nat) (current : Nat) (s : State) : Host.Outcome State Fault Refusal :=
  .next (whenLoaded (comparatorFires c step current) s)

/-- THERMAL (R50). -/
def execThermal (c : Chan) (step : Nat) (s : State) : Host.Outcome State Fault Refusal :=
  .next (whenLoaded (thermalReport c step) s)

/-- ISOLATE_CHANGE (R19, R20, R21). -/
def execIsolateChange (high : Bool) (s : State) : Host.Outcome State Fault Refusal :=
  .next (isolateChanged high s)

end Sys2Proof.Machine
end

