-- ==== Sys2Proof/Machine/WaitFamily.lean ====
section
/-! DEFINITION. Meanings of the waits that end at a count. A wait that has not ended does not arise (log entries 1, 5). -/

namespace Sys2Proof.Machine

/-- SIGNAL_EXPIRY (R68, R69, R73). -/
def execSignalExpiry (source : Stn) (signal : Fin 64) (s : State) : Host.Outcome State Fault Refusal :=
  .next (whenLoaded (expireEntry source signal) s)

/-- PEER_STALE (R101). -/
def execPeerStale (p : Stn) (s : State) : Host.Outcome State Fault Refusal :=
  .next (whenLoaded (fun x => x.setPeer p (x.peer p).toStale) s)

/-- PEER_ABSENT (R101). -/
def execPeerAbsent (p : Stn) (s : State) : Host.Outcome State Fault Refusal :=
  .next (whenLoaded (fun x => x.setPeer p (x.peer p).toAbsent) s)

/-- HOLD_RUNS_OUT (R108). -/
def execHoldRunsOut (station : Stn) (ty : ResType) (s : State) : Host.Outcome State Fault Refusal :=
  .next (whenLoaded (holdRunsOut station ty) s)

/-- INRUSH_WINDOW_END (R12, R51). -/
def execInrushWindowEnd (c : Chan) (s : State) : Host.Outcome State Fault Refusal :=
  .next (whenLoaded (windowEnd c) s)

/-- RETRY_DUE (R14, R54). -/
def execRetryDue (c : Chan) (s : State) : Host.Outcome State Fault Refusal :=
  .next (whenLoaded (retryDue c) s)

/-- ATTEMPT_RESET (R55, R56). -/
def execAttemptReset (c : Chan) (s : State) : Host.Outcome State Fault Refusal :=
  .next (whenLoaded (attemptReset c) s)

/-- PERIODIC_PUBLICATION (R75). -/
def execPeriodicPublication (s : State) : Host.Outcome State Fault Refusal :=
  .next (whenLoaded periodicPublication s)

/-- ISOLATED_ENTRY (R94, R96). -/
def execIsolatedEntry (s : State) : Host.Outcome State Fault Refusal :=
  .next (whenLoaded isolationDue s)

end Sys2Proof.Machine
end

