-- ==== Sys2Proof/Machine/Dispatch.lean ====
section
/-! DEFINITION. Each command's meaning, one arm per constructor. -/

namespace Sys2Proof.Machine

def exec (i : Instr) (s : State) : Host.Outcome State Fault Refusal :=
  match i with
  | .reset => Sys2Proof.Machine.execReset s
  | .holdEnds straps => Sys2Proof.Machine.execHoldEnds straps s
  | .readStops memory din => Sys2Proof.Machine.execReadStops memory din s
  | .periodCompleted inp ord => Sys2Proof.Machine.execPeriodCompleted inp ord s
  | .ownExpiry inp ord => Sys2Proof.Machine.execOwnExpiry inp ord s
  | .signalExpiry source signal => Sys2Proof.Machine.execSignalExpiry source signal s
  | .peerStale p => Sys2Proof.Machine.execPeerStale p s
  | .peerAbsent p => Sys2Proof.Machine.execPeerAbsent p s
  | .holdRunsOut station ty => Sys2Proof.Machine.execHoldRunsOut station ty s
  | .inrushWindowEnd c => Sys2Proof.Machine.execInrushWindowEnd c s
  | .retryDue c => Sys2Proof.Machine.execRetryDue c s
  | .attemptReset c => Sys2Proof.Machine.execAttemptReset c s
  | .periodicPublication => Sys2Proof.Machine.execPeriodicPublication s
  | .isolatedEntry => Sys2Proof.Machine.execIsolatedEntry s
  | .currentSample c current => Sys2Proof.Machine.execCurrentSample c current s
  | .supplySample voltage => Sys2Proof.Machine.execSupplySample voltage s
  | .short c step current => Sys2Proof.Machine.execShort c step current s
  | .thermal c step => Sys2Proof.Machine.execThermal c step s
  | .isolateChange high => Sys2Proof.Machine.execIsolateChange high s
  | .lineIdle bits => Sys2Proof.Machine.execLineIdle s bits
  | .contentionLost bit => Sys2Proof.Machine.execContentionLost bit s
  | .abort bit => Sys2Proof.Machine.execAbort bit s
  | .transmitCompletion => Sys2Proof.Machine.execTransmitCompletion s
  | .discardedReception samples before => Sys2Proof.Machine.execDiscardedReception samples s before
  | .markReceived sender payload inp ord => Sys2Proof.Machine.execMarkReceived sender payload inp ord s
  | .reserveReceived sender payload => Sys2Proof.Machine.execReserveReceived sender payload s
  | .releaseReceived sender payload => Sys2Proof.Machine.execReleaseReceived sender payload s
  | .statusReceived sender payload => Sys2Proof.Machine.execStatusReceived sender payload s
  | .signalReceived sender payload => Sys2Proof.Machine.execSignalReceived sender payload s
  | .reportFrameReceived sender payload => Sys2Proof.Machine.execReportFrameReceived sender payload s
  | .kind7FrameReceived sender payload => Sys2Proof.Machine.execKind7FrameReceived sender payload s
  | .summary sender target arg => Sys2Proof.Machine.execSummary sender target arg s
  | .channel sender target arg => Sys2Proof.Machine.execChannel sender target arg s
  | .peer sender target arg => Sys2Proof.Machine.execPeer sender target arg s
  | .link sender target arg => Sys2Proof.Machine.execLink sender target arg s
  | .clear sender target arg => Sys2Proof.Machine.execClear sender target arg s
  | .clearAll sender target arg => Sys2Proof.Machine.execClearAll sender target arg s
  | .record sender target arg => Sys2Proof.Machine.execRecord sender target arg s
  | .queryIgnored sender b0 b1 => Sys2Proof.Machine.execQueryIgnored sender b0 b1 s
  | .payloadLengthDiscard kind sender payload => Sys2Proof.Machine.execPayloadLengthDiscard kind sender payload s

end Sys2Proof.Machine
end

