-- ==== Sys2Proof/Machine/Ticking.lean ====
section
/-! DEFINITION. What time alone does: the Modulator's step counter runs (R23). -/

namespace Sys2Proof.Machine

/-- One modulation step passes: the running counter advances, and stands at 254 until the period completes (R23). The
completion itself is a command. -/
def tick (s : State) : State :=
  if s.modulator.running && s.modulator.step < 254 then s.atStep (s.modulator.step + 1) else s

end Sys2Proof.Machine
end

