-- ==== Sys2Proof/Machine/Receiver.lean ====
section
/-! DEFINITION. Which command a run of bits on the line comes as, at a station that is not sending: the start test (R79), the
receiver's checks (R85), the kind codes (R171) and the checks and the delivery by kind (R86, R87). -/

namespace Sys2Proof.Machine

/-- The kinds of frame (R80, R171). -/
inductive FrameKind where
  | mark | reserve | release | signal | status | query | report | unnamed
  deriving DecidableEq, Repr

/-- The kind of a code (R171). -/
def kindOf : Fin 8 → FrameKind
  | 0 => .mark
  | 1 => .reserve
  | 2 => .release
  | 3 => .signal
  | 4 => .status
  | 5 => .query
  | 6 => .report
  | 7 => .unnamed

/-- A QUERY of two payload bytes at station `own`: the command of its item, or QUERY_IGNORED by the first three lines of R155
(items R171). -/
def queryCommand (own sender : Stn) (b0 b1 : Byte) : Instr :=
  match itemOf (queryItem b0) with
  | none => .queryIgnored sender b0 b1
  | some item =>
    if queryTarget b0 ≠ own || (item.named && 16 ≤ b1.toNat) then .queryIgnored sender b0 b1
    else
      match item with
      | .summary => .summary sender (queryTarget b0) b1
      | .channel => .channel sender (queryTarget b0) b1
      | .peer => .peer sender (queryTarget b0) b1
      | .link => .link sender (queryTarget b0) b1
      | .clear => .clear sender (queryTarget b0) b1
      | .clearAll => .clearAll sender (queryTarget b0) b1
      | .record => .record sender (queryTarget b0) b1

/-- The command of a kind whose payload length is checked, or the discard of one of another length (R86). -/
def ofLength (kind : FixedKind) (f : RawFrame) (i : Instr) : Instr :=
  if f.payload.length = requiredLength kind then i else .payloadLengthDiscard kind f.station f.payload

/-- The command a valid frame comes as at station `own`, by its kind (R86, R87, R171). The inputs and the order are those of
the epoch start that a MARK may bring. -/
def receivedCommand (own : Stn) (f : RawFrame) (inp : Inputs) (ord : EpochOrder) : Instr :=
  match kindOf f.kind with
  | .mark => ofLength .mark f (.markReceived f.station f.payload inp ord)
  | .reserve => ofLength .reserve f (.reserveReceived f.station f.payload)
  | .release => ofLength .release f (.releaseReceived f.station f.payload)
  | .signal => .signalReceived f.station f.payload
  | .status => ofLength .status f (.statusReceived f.station f.payload)
  | .query => ofLength .query f (queryCommand own f.station (f.payload.getD 0 0) (f.payload.getD 1 0))
  | .report => .reportFrameReceived f.station f.payload
  | .unnamed => .kind7FrameReceived f.station f.payload

/-- The command a reception comes as: none where no start is taken, DISCARDED_RECEPTION where a check fails (R79, R85). -/
def lineCommand (own : Stn) (before samples : List (Bool × Bool)) (inp : Inputs) (ord : EpochOrder) : Option Instr :=
  if startTaken before samples then
    match verdict samples with
    | .valid f => some (receivedCommand own f inp ord)
    | _ => some (.discardedReception samples before)
  else none

end Sys2Proof.Machine
end

