-- ==== Sys2Proof/Machine/SerialPort.lean ====
section
/-! DEFINITION. The four-wire port in the READING phase: what the part drives on CFG_SEL, CFG_CLK and CFG_OUT, and the bits it
takes from CFG_IN (R163). -/

namespace Sys2Proof.Machine

/-- What the part sends before the image: the read command, value 3, then the start address 0 as two bytes (R163). -/
def readCommand : List Byte := [3, 0, 0]

/-- One cycle of CFG_CLK (R163): the level that CFG_OUT carries from the falling edge before it, and the level that CFG_IN is
sampled at on its rising edge. R163 names no bit on CFG_OUT while the image is clocked in, and samples none while the command
is sent: `none`. -/
structure PortCycle where
  out : Option Bool
  sampled : Option Bool
  deriving DecidableEq, Repr

/-- A cycle that sends a bit. -/
def PortCycle.send (bit : Bool) : PortCycle := { out := some bit, sampled := none }

/-- A cycle that clocks in a bit. -/
def PortCycle.take (bit : Bool) : PortCycle := { out := none, sampled := some bit }

/-- The cycles of a read that leaves `buffer` in the image buffer: command and address, then the bytes in order of address,
each most significant bit first (R163). -/
def portCycles (buffer : List Byte) : List PortCycle :=
  (payloadBits readCommand).map PortCycle.send ++ (payloadBits buffer).map PortCycle.take

/-- The bytes that the sampled bits of a run of cycles make up, in the order read (R163). -/
def clockedIn (n : Nat) (cycles : List PortCycle) : List Byte := bitsBytes n (cycles.filterMap PortCycle.sampled)

/-- Levels of the three pins the part drives, `none` where CFG_OUT carries no bit (R163). -/
structure PortLevels where
  selHigh : Bool
  clkHigh : Bool
  out : Option Bool
  deriving DecidableEq, Repr

/-- At rest CFG_SEL is high and CFG_CLK low (R161, R163). -/
def PortLevels.rest : PortLevels := { selHigh := true, clkHigh := false, out := none }

/-- The two halves of a cycle: low, with CFG_OUT changed after the falling edge, then high (R163). -/
def PortCycle.levels (x : PortCycle) : List PortLevels :=
  [{ selHigh := false, clkHigh := false, out := x.out }, { selHigh := false, clkHigh := true, out := x.out }]

/-- The levels of the port through a whole read of the memory, from the moment CFG_SEL goes low to the moment it goes high
(R163). R163 does not order the first bit on CFG_OUT, which no falling edge precedes, against the fall of CFG_SEL, nor the last
falling edge of CFG_CLK against its rise: each pair is one moment. DESIGN CHOICE, unsafe (log entry 38). -/
def portLevels (memory : List Byte) : List PortLevels :=
  (portCycles (readImage memory)).flatMap PortCycle.levels ++ [PortLevels.rest]

end Sys2Proof.Machine
end

