-- ==== Sys2Proof/Safety.lean ====
section
/-! DEFINITION. What a sound state of the part is, rule by rule, in the terms the statements use. Every one is a property of a
state that every step keeps. -/

namespace Sys2Proof.Machine

/-- One channel obeys the rules of effective duty, cap, shed reason and inrush remaining (R3, R4, R5). -/
abbrev Channel.Ruled (x : Channel) : Prop :=
  x.effectiveDuty = effectiveDutyOf x.state x.demandDuty x.cap ∧ x.shadowDuty = x.effectiveDuty ∧
  (x.state ≠ .on → x.cap = 255) ∧ x.cap ≤ 255 ∧ (x.shedReason = .none ↔ x.state ≠ .shed) ∧
  (x.state ≠ .inrush → x.inrushRemaining = 0)

/-- Every channel obeys those rules (R3, R4, R5). -/
abbrev State.ChannelsRuled (s : State) : Prop := ∀ c, (s.ch c).Ruled

/-- The FAULT pin is asserted exactly while its condition holds (R160). -/
abbrev State.FaultPinTrue (s : State) : Prop := s.diag.faultAsserted = s.faultCondition

/-- Before load end every block stands at its reset values; only the Loader moves, and it holds no image, no run mode and no
configuration yet (R3, R41, R77, R98, R115, R137, R138, R154, R161). -/
abbrev State.HeldAtReset (s : State) : Prop :=
  s.isLoaded = false →
    s = { State.reset with
            loader := { State.reset.loader with phase := s.loader.phase, station := s.loader.station }
            pins := s.pins
            pending := s.pending }

/-- SUPPLY is a cut cause exactly while the supply condition is CUT, ISOLATE while the input is high, and every channel is in
CUT exactly while some cause stands (R19, R20, R21, R62). -/
abbrev State.CutRuled (s : State) : Prop :=
  (s.cuts.supply = true ↔ s.sense.supply = .cut) ∧ (s.isLoaded = true → s.cuts.isolate = s.pins.isolate) ∧
  ∀ c, ((s.ch c).state = .cut ↔ s.cuts.isEmpty = false)

/-- At most one entry for each station and type (R104). -/
abbrev State.OnePerClaimant (s : State) : Prop :=
  ∀ p ty, (s.reservations.filter fun r => r.isOf p ty).length ≤ 1

/-- Draws are held exactly by an entry that is not ABSENT, and the own entry stands at its reset values (R99). -/
abbrev State.PeersRuled (s : State) : Prop :=
  (∀ p, (s.peer p).draws.isSome = true ↔ (s.peer p).presence ≠ .absent) ∧
  s.peer s.own = { presence := .absent, age := 255, draws := none }

/-- While MUTED every slot is empty, nothing is on the line or pending, and the error count stands at 128 to 135; otherwise it
stands below 128 (R78, R91, R92). -/
abbrev State.MutedRuled (s : State) : Prop :=
  (s.link.muted = true →
    s.link.slots = LinkController.reset.slots ∧ s.link.onLine = none ∧ s.timer.markPending = false ∧
    s.diag.reportPending = false ∧ 128 ≤ s.link.txErr ∧ s.link.txErr ≤ 135) ∧
  (s.link.muted = false → s.link.txErr ≤ 127)

/-- Each slot holds frames of its own purpose, the slot on the line is occupied, nothing is held aside or withdrawn while no slot
is on the line (R81, R88, R89), and no RELEASE is held aside while a RESERVE of its type waits, which it would follow on the line
(R90). -/
abbrev State.SlotsRuled (s : State) : Prop :=
  (∀ x f, s.link.slots.get x = some f → f.slot = x) ∧
  (∀ f, s.link.heldAside = some f → s.link.onLine = some f.slot) ∧
  (∀ x, s.link.onLine = some x → (s.link.slots.get x).isSome = true) ∧
  (s.link.onLine = none → s.link.lineWithdrawn = false) ∧
  (∀ ty, s.link.onLine = some (.release ty) → s.link.heldAside.isSome = true → s.link.slots.get (.reserve ty) = none)

/-- Report pending is set exactly while the REPORT slot is occupied, and a REPORT on the line has nothing behind it (R154,
R156). -/
abbrev State.ReportRuled (s : State) : Prop :=
  (s.diag.reportPending = true ↔ s.link.slots.report.isSome = true) ∧
  (s.link.onLine = some .report → s.link.heldAside = none ∧ s.link.lineWithdrawn = false)

/-- A class 0 channel is never REQUESTED or SHED, and never in the queue or the ordinary record (R5, R139). -/
abbrev State.ClassZeroFree (s : State) : Prop :=
  (∀ c, (s.cfg c).cls = 0 → (s.ch c).state ≠ .requested ∧ (s.ch c).state ≠ .shed) ∧
  ∀ x, s.sched.ordinary = some x → (s.cfg x.chan).cls ≠ 0

/-- The queue holds exactly the channels in REQUESTED, each once (R139). -/
abbrev State.QueueRuled (s : State) : Prop :=
  s.sched.queue.Nodup ∧ ∀ c, c ∈ s.sched.queue ↔ (s.ch c).state = .requested

/-- The ordinary record names a channel in REQUESTED while PENDING_TX or SETTLING, and a channel in INRUSH while HELD (R145). The
span before a grant arrives lies within one step, so it shows in no state between steps (log entry 32). -/
abbrev State.ClaimRuled (s : State) : Prop :=
  ∀ x, s.sched.ordinary = some x →
    if x.phase = .held then (s.ch x.chan).state = .inrush else (s.ch x.chan).state = .requested

/-- The amount of the class 0 channels that are in INRUSH, by the records of `s` and the channels of `t` (R138, R149). -/
abbrev State.SurgeSum (s t : State) : Nat :=
  min 4095 (((allChans.filter fun d => (s.cfg d).cls = 0 && (t.ch d).state = .inrush).map fun d => (s.cfg d).amount).sum)

/-- The largest inrush remaining of the class 0 channels that are in INRUSH plus 1, 0 when there is none (R138, R149). -/
abbrev State.SurgeSpan (s t : State) : Nat :=
  (allChans.filter fun d => (s.cfg d).cls = 0 && (t.ch d).state = .inrush).foldl
    (fun h d => max h ((t.ch d).inrushRemaining + 1)) 0

/-- The announce record's amount is that of the class 0 channels in INRUSH (R138, R149). -/
abbrev State.AnnounceRuled (s : State) : Prop := s.sched.announceAmount = s.SurgeSum s

/-- The rules of admission together (R5, R138, R139, R145). -/
abbrev State.AdmissionRuled (s : State) : Prop :=
  s.ClassZeroFree ∧ s.QueueRuled ∧ s.ClaimRuled ∧ s.AnnounceRuled

/-- A retry timer runs in TRIPPED alone, and only a channel under LATCH is LATCHED (R13, R54). -/
abbrev State.RetriesRuled (s : State) : Prop :=
  ∀ c, ((s.ch c).retryTimer.isSome = true → (s.ch c).state = .tripped) ∧
    ((s.ch c).state = .latched → (s.cfg c).limitAction = .latch)

/-- A disabled channel is OFF or CUT, with no demand and an output that is off in every period (R2). -/
abbrev State.DisabledIdle (s : State) : Prop :=
  ∀ c, (s.cfg c).enabled = false →
    ((s.ch c).state = .off ∨ (s.ch c).state = .cut) ∧ (s.ch c).demandLevel = 0 ∧ (s.ch c).demandDuty = 0 ∧
    (s.ch c).effectiveDuty = 0 ∧ (s.ch c).shadowDuty = 0 ∧ (s.ch c).activeDuty = 0

/-- Demand is on in every state that wants power, and off in OFF; the demand duty is that of the level (R6, R7). -/
abbrev State.DemandRuled (s : State) : Prop :=
  ∀ c, ((s.ch c).state = .off → (s.cfg c).enabled = true → s.wants c = false) ∧
    ((s.ch c).state ≠ .off → (s.ch c).state ≠ .cut → s.wants c = true) ∧
    (s.ch c).demandDuty = demandDutyOf (s.cfg c).mode (s.ch c).demandLevel

/-- The counts of one channel stay inside their ranges (R3, R41, R53). The attempt count is bounded by the retry limits in force,
inrush remaining by the windows (R11, R52). A retry timer of 0, which R41 does not have, stands while RETRY_DUE is outstanding: the
model's choice (log entry 5). -/
abbrev Channel.CountsInRange (x : Channel) : Prop :=
  x.inrushRemaining ≤ 15 ∧ x.overCount ≤ 1 ∧ x.openCount ≤ 3 ∧ x.onEpochs ≤ 50 ∧
  (∀ n, x.retryTimer = some n → n ≤ 255) ∧ x.fault.attempts ≤ 7

/-- The counters of the blocks stay inside their ranges (R3, R23, R30, R41, R53, R65, R78, R99, R116, R138, R154), with the
windows and retry limits in force in theirs (R166). The rotation count is bounded by the rotation N in force (R140). A publication
count of 8, where R75 gives 0–7, stands while PERIODIC_PUBLICATION is outstanding: the model's choice (log entry 5). -/
abbrev State.CountersInRange (s : State) : Prop :=
  (∀ c, (s.cfg c).window ≤ 15 ∧ (s.cfg c).retryLimit ≤ 7 ∧ (s.ch c).CountsInRange) ∧ s.sense.lowSamples ≤ 1 ∧
  (∀ p, (s.peer p).age ≤ 255) ∧ (∀ e ∈ s.signal.store, e.age ≤ 255) ∧ s.signal.pubCount ≤ 8 ∧ s.sched.announceHold ≤ 16 ∧
  s.modulator.step ≤ 254 ∧ s.timer.number ≤ 255 ∧ s.timer.completed ≤ 3 ∧ s.link.rxErr ≤ 255 ∧ s.link.silence ≤ 10 ∧
  s.link.good ≤ 99 ∧ s.link.clash ≤ 255 ∧ s.budget.settle ≤ 2 ∧ s.sched.listen ≤ 2 ∧ s.sched.deferral ≤ 5 ∧
  s.sched.rotation ≤ s.params.rotationN ∧ s.sched.announceAmount ≤ 4095 ∧ s.diag.overruns ≤ 255

/-- Nothing of the loaded configuration has moved (R1, R64, R65, R161). -/
abbrev State.SameConfiguration (s t : State) : Prop :=
  t.loader = s.loader ∧ t.signal.bindings = s.signal.bindings ∧
  t.signal.store.map (fun e => (e.source, e.signal)) = s.signal.store.map fun e => (e.source, e.signal)

/-- What an event at the channels leaves alone: every block but the channels, the Turn-On Scheduler, the transmit slots and
the FAULT pin, the cut causes and the step counter (the last two are named apart). -/
abbrev State.KeepsBeyondChannels (s t : State) : Prop :=
  t.timer = s.timer ∧ t.signal = s.signal ∧ t.peers = s.peers ∧ t.reservations = s.reservations ∧ t.budget = s.budget ∧
  t.loader = s.loader ∧ t.pending = s.pending ∧ t.diag = { s.diag with faultAsserted := t.diag.faultAsserted } ∧
  t.link = { s.link with slots := t.link.slots, heldAside := t.link.heldAside, lineWithdrawn := t.link.lineWithdrawn }

/-- What the end of channel `c`'s window, if one ran, does at the Scheduler and to the frames that wait: a held claim of it ends,
released where it was made by frame (R147), and the announce record is recomputed, released where its amount falls to 0
(R150). -/
abbrev State.SurgeEnds (s t : State) (c : Chan) : Prop :=
  let held := (s.cfg c).cls ≠ 0 ∧ ∃ y, s.sched.ordinary = some y ∧ y.chan = c ∧ y.phase = .held
  ((s.ch c).state ≠ .inrush ∨ (s.cfg c).cls ≠ 0 ∧ ¬held → t.sched = s.sched ∧ t.link = s.link) ∧
  ((s.ch c).state = .inrush → held → t.sched = { s.sched with ordinary := none } ∧
    ∀ y, s.sched.ordinary = some y →
      t.link = if y.byFrame = true then s.link.handOver (.release .ordinary c) else s.link) ∧
  ((s.ch c).state = .inrush → (s.cfg c).cls = 0 →
    t.sched = { s.sched with announceAmount := s.SurgeSum t, announceHold := s.SurgeSpan t } ∧
    t.link =
      if 0 < s.sched.announceAmount ∧ s.SurgeSum t = 0 then s.link.handOver (.release .announce c) else s.link)

/-- What a trip of channel `c` leaves (R13, R52, R53, R54, R147, R150, R160). -/
abbrev State.TripLeaves (s t : State) (c : Chan) (kind : FaultKind) (current step : Nat) : Prop :=
  let x := s.ch c
  let y := t.ch c
  let k := s.cfg c
  y.state = (if x.fault.attempts < k.retryLimit ∨ k.limitAction = .persist then .tripped else .latched) ∧
  y.cap = 255 ∧ y.inrushRemaining = 0 ∧ y.effectiveDuty = 0 ∧ y.shadowDuty = 0 ∧ y.activeDuty = 0 ∧
  y.fault =
    { kind := kind, current := current, epoch := s.timer.number, step := step, isNew := true
      attempts := if x.fault.attempts < k.retryLimit then x.fault.attempts + 1 else x.fault.attempts
      persistNoted := !decide (x.fault.attempts < k.retryLimit) && decide (k.limitAction = .persist) } ∧
  y.retryTimer =
    (if x.fault.attempts < k.retryLimit then some (min 255 (k.retryBase * 2 ^ x.fault.attempts))
     else if k.limitAction = .persist then some 255 else x.retryTimer) ∧
  y.demandLevel = x.demandLevel ∧ y.demandDuty = x.demandDuty ∧ t.diag.faultAsserted = true ∧
  (∀ d, d ≠ c → t.ch d = s.ch d) ∧ t.cuts = s.cuts ∧ t.sense = s.sense ∧ t.pins = s.pins ∧ s.KeepsBeyondChannels t ∧
  s.SurgeEnds t c

/-- The frames that the beginning of a cut hands over or withdraws (R151): the RESERVE of a claim in PENDING_TX is withdrawn (R89),
a later claim made by frame is released, and the announce amount falls to 0 with the last class 0 channel that carries some of
it, which the ANNOUNCE RELEASE names (R150). -/
abbrev State.CutReleases (s t : State) : Prop :=
  let l := match s.sched.ordinary with
    | none => s.link
    | some x =>
      if x.phase = .pendingTx then
        if s.link.onLine = some (.reserve .ordinary) then { s.link with heldAside := none, lineWithdrawn := true }
        else s.link.setSlot (.reserve .ordinary) none
      else if x.byFrame = true then s.link.handOver (.release .ordinary x.chan)
      else s.link
  let announced (c : Chan) := (s.cfg c).cls = 0 ∧ (s.ch c).state = .inrush ∧ 0 < (s.cfg c).amount
  ((∀ c, ¬announced c) → t.link = l) ∧
  ∀ c, announced c → (∀ d, c < d → ¬announced d) → t.link = l.handOver (.release .announce c)

/-- What the beginning of a cut leaves at every channel, at the Scheduler and in the slots (R19, R151). -/
abbrev State.CutLeaves (s t : State) : Prop :=
  (∀ c, (t.ch c).state = .cut ∧ (t.ch c).effectiveDuty = 0 ∧ (t.ch c).shadowDuty = 0 ∧ (t.ch c).activeDuty = 0 ∧
    (t.ch c).cap = 255 ∧ (t.ch c).shedReason = .none ∧ (t.ch c).inrushRemaining = 0 ∧ (t.ch c).retryTimer = none ∧
    (t.ch c).demandLevel = (s.ch c).demandLevel ∧ (t.ch c).demandDuty = (s.ch c).demandDuty ∧
    (t.ch c).fault = (s.ch c).fault) ∧
  t.sched = { s.sched with
    queue := [], ordinary := none, announceAmount := 0
    announceHold := if ∃ c, (s.cfg c).cls = 0 ∧ (s.ch c).state = .inrush then 0 else s.sched.announceHold } ∧
  s.CutReleases t ∧ t.diag = s.diag ∧ s.KeepsBeyondChannels t

/-- The state a demand level leaves a channel in: the table of R7, with class 0 switched on at once (R10). -/
abbrev Channel.demandState (x : Channel) (k : ChannelConfig) (level : Nat) : ChState :=
  if x.state = .cut then .cut
  else if demandOn k.mode x.demandLevel = true ∧ demandOn k.mode level = false then .off
  else if x.state = .off ∧ demandOn k.mode x.demandLevel = false ∧ demandOn k.mode level = true then
    (if k.cls = 0 then .inrush else .requested)
  else x.state

/-- What a delivered demand level makes of channel `x` (R4, R6, R7, R11, R54, R55). -/
abbrev Channel.FollowsDemand (x y : Channel) (k : ChannelConfig) (level : Nat) : Prop :=
  y.demandLevel = level ∧
  y.demandDuty = (match k.mode with | .pwm => level | .dc => if 128 ≤ level then 255 else 0) ∧
  y.state = x.demandState k level ∧
  y.effectiveDuty = effectiveDutyOf y.state y.demandDuty y.cap ∧ y.shadowDuty = y.effectiveDuty ∧
  y.activeDuty = x.activeDuty ∧
  y.cap = (if y.state = x.state then x.cap else 255) ∧
  y.inrushRemaining =
    (if y.state = x.state then x.inrushRemaining else if y.state = .inrush then k.window else 0) ∧
  y.retryTimer = (if x.state = .tripped ∧ y.state = .off then none else x.retryTimer) ∧
  y.fault =
    (if demandOn k.mode x.demandLevel = true ∧ demandOn k.mode level = false then
      { x.fault with attempts := 0, persistNoted := false } else x.fault)

/-- `v` is the input value of a binding, by the table of R69: the level of a direct input (R66), else what the Store entry of the
key holds, or the binding's fallback level where the entry is EXPIRED and the fallback LEVEL. A key without an entry, which the
Store of a load has for no binding (R65), reads 0. -/
abbrev State.InputReads (s : State) (b : Binding) (v : Nat) : Prop :=
  if b.source = s.own ∧ 60 ≤ b.signal.val then
    v = if dinGet s.signal.inputs (b.signal.val - 60) = true then 255 else 0
  else
    match s.signal.store.find? fun e => e.source = b.source && e.signal = b.signal with
    | some e => v = if e.state = .expired ∧ b.fallback = .level then b.fallbackLevel else e.value
    | none => v = 0

/-- A binding makes the contribution `n` of an input value `v`, by the table of R70. -/
abbrev Contributes (b : Binding) (phaseOn : Bool) (v n : Nat) : Prop :=
  match b.transform with
  | .direct => n = v
  | .switch => n = if b.threshold ≤ v then 255 else 0
  | .invert => n = 255 - v
  | .flash => n = if b.threshold ≤ v ∧ phaseOn = true then 255 else 0

/-- `level` is the demand level of channel `c`: the greatest contribution of the bindings that name it, 0 where none does (R72); in
LIMP the level of its direct input (R76). -/
abbrev State.LevelIs (s : State) (c : Chan) (level : Nat) : Prop :=
  if s.loader.runMode = .limp then
    level = if c.val < 4 ∧ dinGet s.signal.inputs c.val = true then 255 else 0
  else
    (∀ b ∈ s.signal.bindings, b.chan = c →
      ∃ v n, s.InputReads b v ∧ Contributes b s.signal.phaseOn v n ∧ n ≤ level) ∧
    (level = 0 ∨ ∃ b ∈ s.signal.bindings, b.chan = c ∧ ∃ v, s.InputReads b v ∧ Contributes b s.signal.phaseOn v level)

/-- The enabled channels a test picks are resolved: a level that differs from the one held is delivered, and every other
channel stands as it was (R73). The level is that of the inputs, the Store and the phase as `t` holds them (R69, R70, R72). -/
abbrev State.Resolves (s t : State) (test : Chan → Prop) : Prop :=
  ∀ c, ∃ level, t.LevelIs c level ∧
    let delivered := (s.cfg c).enabled = true ∧ test c ∧ level ≠ (s.ch c).demandLevel
    (delivered → (s.ch c).FollowsDemand (t.ch c) (s.cfg c) level) ∧ (¬delivered → t.ch c = s.ch c)

/-- An epoch of `n` completed periods has closed and epoch `m` has begun: the timer, and the measurement of draw
accumulators `acc` and supply sum `sum` (R31, R32, R34, R44–R46, R59, R61). -/
abbrev State.EpochClosed (s t : State) (n m : Nat) (acc : Chan → Nat) (sum : Nat) : Prop :=
  t.timer.running = s.timer.running ∧ t.timer.number = m ∧ t.timer.completed = 0 ∧
  t.modulator = { s.modulator with step := 0 } ∧
  (∀ c, (t.ch c).epochDraw = acc c / (n * 255) ∧ (t.ch c).drawAcc = 0 ∧ (t.ch c).pendingTerm = none ∧
    ((s.ch c).runningMarker = true → (t.ch c).closedMarker = true)) ∧
  (∀ k, t.sense.draws.get k =
    min 4095 (((allChans.filter fun c => (t.cfg c).cls = k && !(t.ch c).closedMarker).map
      fun c => (t.ch c).epochDraw).sum)) ∧
  t.sense.supplySum = 0 ∧ t.sense.pendingSupply = none ∧
  t.sense.supply =
    (match s.sense.supply with
     | .normal => if sum / n < s.params.vLow then .low else .normal
     | .low => if s.params.vLow + 10 ≤ sum / n then .normal else .low
     | .cut => if s.params.vCut + 10 ≤ sum / n then .low else .cut)

/-- What an epoch start with the direct inputs at `din` makes of the inrush markers, whatever the order of its parts (R45). The
running-epoch marker is set for a channel in INRUSH whose window does not end there. Where no fall of demand is taken, it is clear
for every other channel, and the closed-epoch marker is set only for a channel that was marked or that enters INRUSH there; a channel
that falls keeps the mark it has where the markers are moved first. A retry left to its own row is settled first (log entry 5). -/
abbrev State.MarkersMoved (s t : State) (din : DinLevels) : Prop :=
  ∀ c,
    let x := s.ch c
    let y := t.ch c
    let falls := demandOn (s.cfg c).mode x.demandLevel = true ∧ demandOn (s.cfg c).mode y.demandLevel = false
    (x.runningMarker = true → y.closedMarker = true) ∧
    (y.state = .inrush → (y.runningMarker = true ↔ y.inrushRemaining ≠ 0)) ∧
    (din = s.signal.inputs → y.state ≠ .inrush → ¬falls → y.runningMarker = false) ∧
    (din = s.signal.inputs → y.state ≠ .inrush → x.state = .inrush → x.inrushRemaining = 1 → y.runningMarker = false) ∧
    (din = s.signal.inputs → y.state ≠ .inrush → ¬falls → x.runningMarker = false → ¬(x.state = .tripped ∧ x.retryTimer = some 0) →
      y.closedMarker = false)

/-- What an epoch start ages, whatever the order of its parts: Store entries and flash phase for epoch `m`, peer entries, the
holds of the Reservation List, the silence count from `silence` and the listen count from `listen` (R68, R71, R94, R101, R108,
R142). -/
abbrev State.EpochAged (s t : State) (m silence listen : Nat) : Prop :=
  t.signal.store = s.signal.store.map (fun e =>
    { e with age := min 255 (e.age + 1)
             state := if e.state = .fresh ∧ s.params.lifetime ≤ min 255 (e.age + 1) then .expired else e.state }) ∧
  (t.signal.phaseOn = true ↔ m % 32 < 16) ∧
  (∀ p, (t.peer p).age = min 255 ((s.peer p).age + 1)) ∧
  t.standingEntries = (s.reservations.map fun r => { r with hold := r.hold - 1 }).filter (fun r => r.hold ≠ 0) ∧
  t.link.silence = min 10 (silence + 1) ∧ t.sched.listen = listen - 1

/-- The counts of the channels that an epoch start moves, whatever the order of its parts and whatever else it does to channel `c`:
inrush remaining (R12), retry timer (R54) and ON-epoch count (R56). A window that does not end leaves the channel in INRUSH unless
its demand falls. A retry timer that stands at 0 for its own row is settled first (log entry 5). -/
abbrev State.ChannelCounted (s t : State) (din : DinLevels) (c : Chan) : Prop :=
  let x := s.ch c
  let y := t.ch c
  (y.state = .inrush → y.inrushRemaining = (s.cfg c).window ∨
    x.state = .inrush ∧ 1 ≤ x.inrushRemaining ∧ y.inrushRemaining = x.inrushRemaining - 1 ∨
    x.state = .tripped ∧ x.retryTimer = some 0 ∧ y.inrushRemaining = (s.cfg c).window - 1) ∧
  (x.state = .inrush → 2 ≤ x.inrushRemaining → din = s.signal.inputs → demandOn (s.cfg c).mode y.demandLevel = true →
    y.state = .inrush ∧ y.inrushRemaining = x.inrushRemaining - 1) ∧
  (∀ k, x.retryTimer = some (k + 1) → x.state = .tripped → y.state = .tripped →
    y.retryTimer = some k ∨ k = 0 ∧ y.retryTimer = none) ∧
  (x.state = .on → y.state = .on → 1 ≤ (s.cfg c).window → y.onEpochs = min 50 (x.onEpochs + 1)) ∧
  (y.state ≠ .on → y.onEpochs = 0)

/-- The counts that an epoch start with the direct inputs at `din` moves, whatever the order of its parts: those of every channel,
the deferral count, which a refusal sets afresh (R142, R146), the publication count, which a publication sets to 0 (R75), and the
announce hold, one higher where the Scheduler read the windows first (R150). A count that stands at 8 or 0 for its own row is
settled first (log entry 5). -/
abbrev State.EpochCounted (s t : State) (din : DinLevels) (schedulerFirst : Bool) : Prop :=
  let publishes := s.params.dinPublish = true ∧ s.loader.runMode = .running
  let next := (if s.signal.pubCount = 8 then 0 else s.signal.pubCount) + 1
  (∀ c, s.ChannelCounted t din c) ∧
  (t.sched.deferral = s.sched.deferral - 1 ∨
    t.sched.deferral = 2 + s.own.val % 4 ∧ ∃ x, s.sched.ordinary = some x ∧ x.phase = .settling) ∧
  (¬publishes → t.signal.pubCount = s.signal.pubCount) ∧
  (publishes → din ≠ s.signal.inputs → t.signal.pubCount = 0) ∧
  (publishes → din = s.signal.inputs → t.signal.pubCount = min 8 next ∨ 8 ≤ next ∧ t.signal.pubCount = 0) ∧
  (t.sched.announceHold = s.SurgeSpan t ∨
    schedulerFirst = true ∧ 0 < s.SurgeSpan t ∧ t.sched.announceHold = s.SurgeSpan t + 1)

/-- A claim passes the admission test, by what the evaluation carried and the entries that stand (R109–R111, R145). -/
abbrev State.ClaimPasses (t : State) (x : Claim) : Prop :=
  let e := t.budget.carried
  if t.link.muted = true ∨ t.link.isolated = true ∨ t.loader.runMode = .limp then
    e.alone.excess = 0 ∧ e.settle = 0 ∧ e.alone.steady + x.amount ≤ e.alone.limit
  else x.byFrame = true ∧ e.zone.excess = 0 ∧ e.settle = 0 ∧ ∃ ahead r behind,
    (t.reservations.filter fun q => q.hold ≠ 0) = ahead ++ r :: behind ∧
    (∀ q ∈ ahead, ¬(q.station = t.own ∧ q.ty = .ordinary)) ∧ r.station = t.own ∧ r.ty = .ordinary ∧
    e.zone.steady + (ahead.map Reservation.amount).sum + r.amount ≤ e.zone.limit

/-- The evaluation that an epoch start makes, whatever the order of its parts, over the measurement it closes and with the CHARGE
level given (R117, R118, R120, R134): the settle count it began with, both sets of figures, exact, and the settle count it
leaves. The peers' part of S is given where no peer changes its presence at this epoch start, since R102 leaves open which is
first (R103). -/
abbrev State.EpochEvaluated (s t : State) (charge : Bool) : Prop :=
  let e := t.budget.carried
  let d := t.sense.draws
  let own := d.d0 + d.d1 + d.d2 + d.d3
  let guard := s.params.guardBand
  let base := if charge = true then s.params.limitRun else s.params.limitBatt
  let peers : Nat := ((allStns.filter fun p => p ≠ s.own && (t.peer p).presence ≠ .absent).map fun p =>
    match (t.peer p).draws with | some x => x.d0 + x.d1 + x.d2 + x.d3 | none => 0).sum
  let missing := (allStns.filter fun p =>
    p ≠ s.own && (s.params.expected.getLsbD p.val && (t.peer p).presence = .absent)).length
  e.settle = s.budget.settle ∧
  e.alone = ⟨s.params.limitAlone, s.params.limitAlone - guard, own, own - (s.params.limitAlone - guard)⟩ ∧
  (s.loader.runMode = .limp → e.zone = ⟨0, 0, 0, 0⟩) ∧
  (s.loader.runMode ≠ .limp → e.zone.base = base ∧ e.zone.limit = base - guard ∧
    e.zone.excess = e.zone.steady - (base - guard) ∧
    ((∀ p, (t.peer p).presence = (s.peer p).presence) →
      e.zone.steady = own + peers + s.params.peerAllowance * missing)) ∧
  (0 < s.budget.settle → t.budget.settle = s.budget.settle - 1) ∧
  (s.budget.settle = 0 → t.budget.settle = 0 ∨ t.budget.settle = 2)

/-- The admission that an epoch start makes, whatever the order of its parts (R134, R141, R145, R146), where no demand falls, no
direct input changes and the link keeps its state: a claim that was SETTLING is decided, granted where it passes and otherwise given
up with the deferral; and with no claim, the counts 0 and a channel waiting, a claim is selected. Where no demand falls, a grant finds
its channel in REQUESTED (R9). -/
abbrev State.EpochDecides (s t : State) (din : DinLevels) : Prop :=
  s.AdmissionRuled → din = s.signal.inputs → t.link.isolated = s.link.isolated → (∀ c, 1 ≤ (s.cfg c).window) →
  (∀ c, demandOn (s.cfg c).mode (s.ch c).demandLevel = true → demandOn (s.cfg c).mode (t.ch c).demandLevel = true) →
  (∀ x, s.sched.ordinary = some x → x.phase = .settling →
    (t.ClaimPasses x → t.sched.ordinary = some { x with phase := .held } ∧ (t.ch x.chan).state = .inrush) ∧
    (¬t.ClaimPasses x → t.sched.ordinary = none ∧ t.sched.deferral = 2 + s.own.val % 4 ∧
      (t.ch x.chan).state = .requested)) ∧
  (s.sched.ordinary = none → s.sched.queue ≠ [] → t.sched.deferral = 0 → t.sched.listen = 0 → t.budget.settle = 0 →
    ∃ y, t.sched.ordinary = some y ∧ (t.ch y.chan).state = .requested ∧
      y.phase = (if t.link.muted = true ∨ t.link.isolated = true ∨ t.loader.runMode = .limp then .settling else .pendingTx))

/-- Channel `c` is bound to a direct input that `din` changes; in LIMP that is the input of its number (R74, R163). -/
abbrev State.InputMoves (s : State) (din : DinLevels) (c : Chan) : Prop :=
  (s.cfg c).enabled = true ∧ ∃ i < 4, dinGet din i ≠ dinGet s.signal.inputs i ∧
    if s.loader.runMode = .limp then c.val = i
    else ∃ k ∈ s.signal.bindings, k.chan = c ∧ k.source = s.own ∧ k.signal.val = 60 + i

/-- A period start with the direct inputs at `din` copies the shadow duty of channel `c` into its active duty (R26, R27), where no
part of the step changes the channel. -/
abbrev State.DutyLoaded (s t : State) (din : DinLevels) (c : Chan) : Prop :=
  ¬s.InputMoves din c → (t.ch c).state = (s.ch c).state → (t.ch c).demandLevel = (s.ch c).demandLevel →
    (t.ch c).shadowDuty = (s.ch c).shadowDuty → (t.ch c).activeDuty = (s.ch c).shadowDuty

/-- The period start of an epoch start copies the shadow duties (R26, R27), whatever the order of its parts. A channel whose window
has run out but waits for its own row is settled first (log entry 5), and may trip and be retried at the same epoch start: it is
left out. -/
abbrev State.EpochDutiesLoaded (s t : State) (din : DinLevels) : Prop :=
  ∀ c, ((s.ch c).state = .inrush → 1 ≤ (s.ch c).inrushRemaining) → s.DutyLoaded t din c

/-- What an epoch start leaves of a cut that SUPPLY causes, whatever the order of its parts (R20, R61, R62). While the condition stays
CUT, or ISOLATE is a cause too, every channel stays in CUT. Otherwise every channel has left CUT and its demand has been taken: a
class 0 channel is in INRUSH, one of class 1–3 in REQUESTED, and one without demand in OFF; and where no demand level changes the
queue holds the channels in ascending number. -/
abbrev State.SupplyCutEnds (s t : State) (din : DinLevels) : Prop :=
  s.CutRuled → s.AdmissionRuled → s.sense.supply = .cut →
  (t.sense.supply = .cut ∨ s.cuts.isolate = true → ∀ c, (t.ch c).state = .cut) ∧
  (t.sense.supply ≠ .cut → s.cuts.isolate = false → t.cuts = { isolate := false, supply := false } ∧
    (∀ c,
      let wants := (s.cfg c).enabled = true ∧ demandOn (s.cfg c).mode (t.ch c).demandLevel = true
      let surges := wants ∧ (s.cfg c).cls = 0
      (t.ch c).state = (if surges then .inrush else if wants then .requested else .off) ∧
      (t.ch c).inrushRemaining = (if surges then (s.cfg c).window else 0) ∧
      (t.ch c).effectiveDuty = (if surges then (t.ch c).demandDuty else 0) ∧
      (t.ch c).shadowDuty = (t.ch c).effectiveDuty ∧ (t.ch c).cap = 255 ∧ (t.ch c).shedReason = .none) ∧
    t.sched.announceAmount = s.SurgeSum t ∧
    (din = s.signal.inputs → (∀ c, (t.ch c).demandLevel = (s.ch c).demandLevel) →
      t.sched.queue = allChans.filter fun c => (t.ch c).state = .requested))

/-- Every enabled channel holds the level that its bindings make (R72, R73). -/
abbrev State.AllResolved (t : State) : Prop := ∀ c, (t.cfg c).enabled = true → t.LevelIs c (t.ch c).demandLevel

/-- A start bit stands at bit `i`, counted from 0: a dominant level that follows 10 recessive bits (R79). -/
abbrev StartAt (bits : List (Bool × Bool)) (i : Nat) : Prop :=
  10 ≤ i ∧ i < bits.length ∧ bitSamples bits i ≠ (true, true) ∧
  ∀ j < i, i ≤ j + 10 → bitSamples bits j = (true, true)

/-- A run of bits without a start ends in `n` recessive bits (R79). -/
abbrev IdleRead (n : Nat) (bits : List (Bool × Bool)) : Prop :=
  n ≤ bits.length ∧ (∀ j < bits.length, bits.length ≤ j + n → bitSamples bits j = (true, true)) ∧ ∀ i, ¬StartAt bits i

/-- What an epoch start leaves alone at the Link Controller (as it stood in `u`), the Diagnostic Responder, the Loader, the
Binding Table and the ISOLATE cause: all but the frames that wait, the silence count, ISOLATED and the FAULT pin. -/
abbrev State.EpochFrame (s u t : State) : Prop :=
  t.link = { u.link with slots := t.link.slots, heldAside := t.link.heldAside, silence := t.link.silence
                         lineWithdrawn := t.link.lineWithdrawn, isolated := t.link.isolated } ∧
  t.diag = { s.diag with faultAsserted := t.diag.faultAsserted } ∧ t.cuts.isolate = s.cuts.isolate ∧
  t.loader = s.loader ∧ t.signal.bindings = s.signal.bindings

/-- What the slots hold after an attempt of slot `x` that did not complete: the frame, or the one held aside for it, or none where it
was withdrawn (R82, R83, R88, R89), and of a RESERVE and a RELEASE of one type only what the pairing leaves (R90). -/
abbrev LinkController.AttemptLeaves (l m : LinkController) (x : Slot) : Prop :=
  let after := match l.heldAside with | some g => some g | none => if l.lineWithdrawn = true then none else l.slots.get x
  let paired := ∃ ty, (x = .reserve ty ∧ l.slots.get (.release ty) ≠ none ∨
    x = .release ty ∧ l.slots.get (.reserve ty) ≠ none) ∧ after ≠ none
  (¬paired → ∀ y, m.slots.get y = if y = x then after else l.slots.get y) ∧
  (paired → m.slots.get x = none ∧
    (∀ ty, x = .reserve ty →
      m.slots.get (.release ty) = if l.standing ty = true then l.slots.get (.release ty) else none) ∧
    ∀ y, y ≠ x → (∀ ty, x = .reserve ty → y ≠ .release ty) → m.slots.get y = l.slots.get y)

/-- The STATUS of an evaluation has been handed over (R88, R132, R133): it waits in its slot, or is held aside while an earlier one
is on the line. Its ISOLATED flag and its lowest new fault are read when it is composed, at a moment between `s` and `t`: they lie
between what holds in `s` and what holds in `t`, and with `t` for `s` they are exactly those of `t`. -/
abbrev State.StatusHandedOver (s t : State) : Prop :=
  ∃ content : StatusContent,
    (if t.link.onLine = some .status then t.link.heldAside = some (.status content)
     else t.link.slots.status = some (.status content)) ∧
    content.draws = t.sense.draws ∧ content.overload = t.budget.overload ∧
    (content.limp = true ↔ t.loader.runMode = .limp) ∧ (content.settling = true ↔ 0 < t.budget.settle) ∧
    (content.lowSupply = true ↔ t.sense.supply = .low) ∧
    (s.link.isolated = true → content.isolated = true) ∧ (content.isolated = true → t.link.isolated = true) ∧
    (∀ c, content.lowestNew = some c → (t.ch c).fault.isNew = true ∧ ∀ d, d < c → (s.ch d).fault.isNew = false) ∧
    (content.lowestNew = none → ∀ d, (s.ch d).fault.isNew = false)

/-- What a shed order makes of a channel in ON (R4, R5, R18, R47, R56, R57). -/
abbrev Channel.ShedFor (x : Channel) (reason : ShedReason) : Channel :=
  { x with state := .shed, shedReason := reason, cap := 255, effectiveDuty := 0, shadowDuty := 0, inrushRemaining := 0
           overCount := 0, openCount := 0, onEpochs := 0 }

/-- What a new cap makes of a channel in ON (R4, R16, R17). -/
abbrev Channel.CappedAt (x : Channel) (cap : Nat) : Channel :=
  { x with cap := cap, effectiveDuty := min x.demandDuty cap, shadowDuty := min x.demandDuty cap }

/-- The restore of a SHED channel of class 1–3: it enters REQUESTED and joins the tail of the queue (R18, R139). -/
abbrev State.Restored (s : State) (c : Chan) : State :=
  { s.setCh c { s.ch c with state := .requested, shedReason := .none, cap := 255, effectiveDuty := 0, shadowDuty := 0
                            inrushRemaining := 0 } with
    sched := { s.sched with queue := s.sched.queue ++ [c] } }

/-- A channel of class `k` in ON with a cap below 255 (R130). -/
abbrev State.IsCapped (s : State) (k : Cls) (c : Chan) : Prop :=
  (s.cfg c).cls = k ∧ (s.ch c).state = .on ∧ (s.ch c).cap < 255

/-- A channel of class `k` in SHED that may be restored, by the table of R131. -/
abbrev State.IsRestorable (s : State) (k : Cls) (c : Chan) : Prop :=
  (s.cfg c).cls = k ∧ (s.ch c).state = .shed ∧
  (s.sense.supply = .normal ∧ (s.ch c).shedReason ≠ .none ∨ s.sense.supply = .low ∧ (s.ch c).shedReason = .budget)

/-- Class `k` qualifies for a restore step (R130, R131). -/
abbrev State.Qualifies (s : State) (k : Cls) : Prop :=
  ¬(s.sense.supply = .low ∧ k = 3) ∧ ∃ c, s.IsCapped k c ∨ s.IsRestorable k c

/-- What comes between the orders of an evaluation acts at the channels `aside` alone, and leaves the measurement and the
configuration (R117, R127). -/
abbrev EventsAt (aside : Chan → Prop) (between : List (State → State)) : Prop :=
  ∀ event ∈ between, ∀ u : State, (event u).loader = u.loader ∧
    ∀ c, ((event u).ch c).epochDraw = (u.ch c).epochDraw ∧ (¬aside c → (event u).ch c = u.ch c)

end Sys2Proof.Machine

namespace Sys2Proof

/-- The station parameters in their ranges (R165). -/
abbrev Params.InRange (p : Params) : Prop :=
  p.limitRun ≤ 4095 ∧ p.limitBatt ≤ 4095 ∧ p.limitAlone ≤ 4095 ∧ p.guardBand ≤ 4095 ∧ p.hysteresis ≤ 4095 ∧
  1 ≤ p.restoreStep ∧ p.restoreStep ≤ 64 ∧ p.vLow ≤ 390 ∧ p.vCut ≤ p.vLow ∧ 2 ≤ p.lifetime ∧ p.lifetime ≤ 255 ∧
  p.rotationN ≤ 3 ∧ p.peerAllowance ≤ 4095

/-- A channel record in its ranges (R166). -/
abbrev ChannelConfig.InRange (k : ChannelConfig) : Prop :=
  k.shedRank ≤ 15 ∧ 1 ≤ k.steadyLimit ∧ k.steadyLimit ≤ k.inrushLimit ∧ k.inrushLimit ≤ 511 ∧ 1 ≤ k.window ∧
  k.window ≤ 15 ∧ k.amount ≤ 4095 ∧ k.minDuty ≤ 255 ∧ k.openThreshold ≤ 31 ∧ 1 ≤ k.retryBase ∧ k.retryBase ≤ 15 ∧
  k.retryLimit ≤ 7

/-- A configuration in its ranges (R165, R166). -/
abbrev Configuration.InRange (k : Configuration) : Prop := k.params.InRange ∧ ∀ c : Chan, (k.records[c]).InRange

end Sys2Proof
end

