-- ==== Sys2Proof/Certificates/Slice0/Obligations.lean ====
section
/-! DEFINITION. The statements for the provers, each a property of the model that a rule of the spec, or a choice of the model
that its docstring names, calls for. -/

open Sys2Proof Sys2Proof.Machine

/-! ### The queue of commands -/

/-- A step runs the command at the front of the queue with the rest of the queue. -/
def Obligations.StepRunsTheFrontCommand : Prop :=
  ∀ (s : State) (i : Instr) (rest : List Instr),
    s.pending = i :: rest → step s = exec i { s with pending := rest }

/-- Every command of the table answers a next state, and leaves the queue to the step (no fault, no refusal: log entry 20). -/
def Obligations.EveryCommandCompletes : Prop :=
  ∀ (i : Instr) (s : State), ∃ t, exec i s = .next t ∧ t.pending = s.pending

/-- Before load end no block takes an event: every command but the three of the load and ISOLATE's level changes nothing
(R3, R40, R41, R78, R98, R138, R154). -/
def Obligations.NothingIsTakenBeforeLoadEnd : Prop :=
  ∀ (i : Instr) (s : State), s.isLoaded = false →
    (match i with
      | .reset | .holdEnds _ | .readStops _ _ | .isolateChange _ => False
      | _ => True) →
    exec i s = .next s

/-! ### Reset and load -/

/-- RESET puts every item of every block at its reset value (R3, R23, R30, R41, R77, R78, R99, R104, R116, R138, R154, R161), whatever
was in flight, and every output is off. The levels of the input pins and the queue are not the part's to reset (log entry
10). -/
def Obligations.ResetPutsEveryBlockAtItsResetValues : Prop :=
  ∀ s : State, ∃ t, exec .reset s = .next t ∧ t.pins = s.pins ∧ t.pending = s.pending ∧
    (∀ c, t.ch c =
      { state := .off, demandLevel := 0, demandDuty := 0, cap := 255, effectiveDuty := 0, shedReason := .none,
        inrushRemaining := 0, activeDuty := 0, shadowDuty := 0, drawAcc := 0, pendingTerm := none, epochDraw := 0,
        runningMarker := false, closedMarker := false, lastSample := none, overCount := 0, openCount := 0,
        openFlag := false, onEpochs := 0, retryTimer := none,
        fault := { kind := .none, current := 0, epoch := 0, step := 0, attempts := 0, persistNoted := false,
                   isNew := false } }) ∧
    (∀ c n, t.onAt c n = false) ∧
    t.cuts = { isolate := false, supply := false } ∧ t.modulator = { running := false, step := 0 } ∧
    t.timer = { running := false, number := 0, completed := 0, markPending := false } ∧
    t.sense = { supply := .normal, supplySum := 0, pendingSupply := none, lowSamples := 0,
                draws := { d0 := 0, d1 := 0, d2 := 0, d3 := 0 } } ∧
    t.signal.bindings = [] ∧ t.signal.store = [] ∧ (∀ i, dinGet t.signal.inputs i = false) ∧ t.signal.phaseOn = true ∧
    t.signal.pubCount = 0 ∧
    (∀ x, t.link.slots.get x = none) ∧ t.link.onLine = none ∧ t.link.heldAside = none ∧ t.link.txErr = 0 ∧
    t.link.rxErr = 0 ∧ t.link.muted = false ∧ t.link.isolated = false ∧ t.link.silence = 0 ∧ t.link.good = 0 ∧
    t.link.clash = 0 ∧ (∀ ty, t.link.standing ty = false) ∧
    (∀ p, t.peer p = { presence := .absent, age := 255, draws := none }) ∧ t.reservations = [] ∧
    (t.budget.zone = ⟨0, 0, 0, 0⟩ ∧ t.budget.alone = ⟨0, 0, 0, 0⟩ ∧ t.budget.inUse = .zone ∧ t.budget.cut1 = 0 ∧
      t.budget.cut2 = 0 ∧ t.budget.cut3 = 0 ∧ t.budget.settle = 0 ∧ t.budget.overload = false) ∧
    (t.sched.queue = [] ∧ t.sched.ordinary = none ∧ t.sched.announceAmount = 0 ∧ t.sched.announceHold = 0 ∧
      t.sched.rotation = 0 ∧ t.sched.deferral = 0 ∧ t.sched.listen = 2) ∧
    t.diag = { reportPending := false, overruns := 0, clashFlag := false, faultAsserted := false } ∧
    t.loader = { phase := .held, station := 0, runMode := .none, buffer := [], config := none }

/-- HOLD_ENDS in the HELD phase reads the straps, STN0 least significant and an open one as 1, and begins the read of the image
(R161, R162); nothing else moves. In any other phase the hold has ended already (log entry 1). -/
def Obligations.HoldEndsReadsTheStraps : Prop :=
  ∀ (s : State) (x : Straps) (n : Stn),
    n.val = (if x.stn0 = .low then 0 else 1) + (if x.stn1 = .low then 0 else 2) + (if x.stn2 = .low then 0 else 4) +
      (if x.stn3 = .low then 0 else 8) →
    (s.loader.phase = .held →
      exec (.holdEnds x) s = .next { s with loader := { s.loader with station := n, phase := .reading } }) ∧
    (s.loader.phase ≠ .held → exec (.holdEnds x) s = .next s)

/-- The read of the image (R163, R172): with format 1, a binding count `n` of 0–48 and the length 222 + 6n, as many bytes as the
length gives, otherwise the header alone; and the three checks of R164 pass exactly where the sum is right as well. A byte the
memory does not give reads as 255. Over the port (R163) the part sends the read command 3 and the address 0 on CFG_OUT, 24 bits, and
then samples the bytes of the buffer, each most significant bit first; at the end of the read CFG_SEL is high and CFG_CLK low. That
the first bit comes with the fall of CFG_SEL, and its rise with the last fall of CFG_CLK, is the model's choice (log entry 38). -/
def Obligations.AnImageIsReadAndCheckedExactly : Prop :=
  ∀ (memory : List Byte) (m : Nat → Nat), (∀ i, m i = (memory.getD i 255).toNat) →
    let header := m 0 = 1 ∧ m 3 ≤ 48 ∧ m 1 * 256 + m 2 = 222 + 6 * m 3
    (header → (readImage memory).length = 222 + 6 * m 3) ∧ (¬header → (readImage memory).length = 4) ∧
    (∀ i, i < (readImage memory).length → imageByte (readImage memory) i = m i) ∧
    (imageAccepted (readImage memory) = true ↔
      header ∧ ((List.range (220 + 6 * m 3)).map m).sum % 65536 = m (220 + 6 * m 3) * 256 + m (221 + 6 * m 3)) ∧
    (let cycles := portCycles (readImage memory)
     cycles.length = 8 * (3 + (readImage memory).length) ∧
     (∀ i < 24, cycles[i]? = some { out := some (decide (i = 6 ∨ i = 7)), sampled := none }) ∧
     (∀ i < 8 * (readImage memory).length,
       cycles[24 + i]? = some { out := none, sampled := some (decide (m (i / 8) / 2 ^ (7 - i % 8) % 2 = 1)) }) ∧
     (portLevels memory).length = 2 * cycles.length + 1 ∧
     (∀ i < cycles.length, ∀ high : Bool,
       (portLevels memory)[2 * i + high.toNat]? =
         (cycles[i]?).map fun x => { selHigh := false, clkHigh := high, out := x.out }) ∧
     (portLevels memory)[2 * cycles.length]? = some { selHigh := true, clkHigh := false, out := none })

/-- Which value the bytes `m` of an image put in force: the station parameters with their defaults and clamps (R165), the channel
records with the values of encodings without a meaning (R166), and the binding records (R167), each at its place (R172). Every field
lies in its range; no two binding records in force share source station, signal number and channel, of matching records the earlier
is kept, and the table stands in image order (R64, R167); and the Store holds one entry for each bound key but the own direct inputs,
in order of first appearance (R65). -/
def Obligations.EveryImageIsClampedIntoRange : Prop :=
  ∀ (image : List Byte) (own : Stn) (m w : Nat → Nat), (∀ i, m i = (image.getD i 0).toNat) →
    (∀ i, w i = m i * 256 + m (i + 1)) →
    let held (v top : Nat) := if top < v then top else v
    let vLow := if w 16 = 65535 then 220 else held (w 16) 390
    (imageConfiguration image).params =
      { limitRun := if w 4 = 65535 then 1600 else held (w 4) 4095
        limitBatt := if w 6 = 65535 then 1000 else held (w 6) 4095
        limitAlone := if w 8 = 65535 then 400 else held (w 8) 4095
        guardBand := if w 10 = 65535 then 50 else held (w 10) 4095
        hysteresis := if w 12 = 65535 then 100 else held (w 12) 4095
        restoreStep := if m 14 = 255 then 16 else if m 14 = 0 then 1 else held (m 14) 64
        vLow := vLow
        vCut := held (if w 18 = 65535 then 160 else w 18) vLow
        lifetime := if w 20 = 65535 then 10 else if w 20 < 2 then 2 else held (w 20) 255
        rotationN := held (m 15) 3
        expected := BitVec.ofNat 16 (w 22)
        peerAllowance := held (w 24) 4095
        dinPublish := decide (m 26 = 1) } ∧
    (∀ (c : Chan) (a steady : Nat), a = 28 + 12 * c.val → steady = (if w (a + 2) = 0 then 1 else held (w (a + 2)) 511) →
      let k := (imageConfiguration image).records[c]
      (k.enabled = true ↔ m a / 64 % 4 = 1) ∧ (k.mode = .pwm ↔ m a / 16 % 4 = 1) ∧
      (k.limitAction = .persist ↔ m a / 4 % 4 = 1) ∧ k.cls.val = held (m (a + 1) / 16) 3 ∧ k.shedRank = m (a + 1) % 16 ∧
      k.steadyLimit = steady ∧
      k.inrushLimit = (if w (a + 4) < steady then steady else held (w (a + 4)) 511) ∧ k.amount = held (w (a + 6)) 4095 ∧
      k.minDuty = m (a + 8) ∧ k.openThreshold = held (m (a + 9)) 31 ∧
      k.window = (if m (a + 10) / 16 = 0 then 1 else m (a + 10) / 16) ∧ k.retryLimit = held (m (a + 10) % 16) 7 ∧
      k.retryBase = if m (a + 11) = 0 then 1 else held (m (a + 11)) 15) ∧
    (∀ (i a : Nat), a = 220 + 6 * i → (imageBinding image i = none ↔ 16 ≤ m (a + 2)) ∧
      ∀ b, imageBinding image i = some b → b.source.val = held (m a) 15 ∧ b.signal.val = held (m (a + 1)) 63 ∧
        b.chan.val = m (a + 2) ∧
        (b.transform = .switch ↔ m (a + 3) % 16 = 1) ∧ (b.transform = .invert ↔ m (a + 3) % 16 = 2) ∧
        (b.transform = .flash ↔ m (a + 3) % 16 = 3) ∧ (b.fallback = .level ↔ m (a + 3) / 16 = 1) ∧
        b.threshold = m (a + 4) ∧ b.fallbackLevel = m (a + 5)) ∧
    (imageConfiguration image).InRange ∧
    (imageBindings image).length ≤ imageByte image 3 ∧
    ((imageBindings image).map fun b => (b.source, b.signal, b.chan)).Nodup ∧
    (∀ b ∈ imageBindings image, ∃ i < imageByte image 3, imageBinding image i = some b) ∧
    (∀ i < imageByte image 3, ∀ b, imageBinding image i = some b →
      ∃ k ∈ imageBindings image, k.source = b.source ∧ k.signal = b.signal ∧ k.chan = b.chan) ∧
    (imageBindings image = (List.range (imageByte image 3)).filterMap fun i =>
      match imageBinding image i with
      | none => none
      | some b =>
        if ∃ j < i, ∃ d ∈ imageBinding image j, d.source = b.source ∧ d.signal = b.signal ∧ d.chan = b.chan then none
        else some b) ∧
    (∀ keys, keys = ((imageBindings image).filter fun b => !(b.source = own && 60 ≤ b.signal.val)).map
        (fun b => (b.source, b.signal)) →
      (storeOf own (imageBindings image)).map (fun e => (e.source, e.signal)) =
        (List.range keys.length).filterMap fun i =>
          match keys[i]? with
          | none => none
          | some key => if key ∈ keys.take i then none else some key) ∧
    ((storeOf own (imageBindings image)).map fun e => (e.source, e.signal)).Nodup ∧
    (∀ src sig, (∃ e ∈ storeOf own (imageBindings image), e.source = src ∧ e.signal = sig) ↔
      (∃ b ∈ imageBindings image, b.source = src ∧ b.signal = sig) ∧ ¬(src = own ∧ 60 ≤ sig.val))

/-- READ_STOPS while the image is read ends the load (R169): the run mode by the checks (R164), the configuration in force, epoch 0
and its first period (R29, R40), the straps' number kept, the Store EXPIRED (R77), the ISOLATE level taken before the first
resolution (R21, R22), every enabled channel at the level its bindings make (R69, R70, R72), the first publication (R75) and the
listen count (R143). The announce record carries the class 0 channels that switch on, and its RESERVE, which names the last one to
raise the amount or, where that is above 0, the hold, waits in its slot (R149, R153). -/
def Obligations.ReadStopsSetsThePartGoing : Prop :=
  ∀ (s : State) (memory : List Byte) (din : DinLevels), s.HeldAtReset → s.loader.phase = .reading →
    let image := readImage memory
    ∃ t, exec (.readStops memory din) s = .next t ∧
      t.loader =
        { phase := .loaded, station := s.loader.station, buffer := image
          runMode := if imageAccepted image = true then .running else .limp
          config := some (if imageAccepted image = true then imageConfiguration image else limpConfiguration) } ∧
      t.timer = { running := true, number := 0, completed := 0, markPending := false } ∧
      t.modulator = { running := true, step := 0 } ∧
      t.signal.inputs = din ∧ t.signal.phaseOn = true ∧ t.signal.pubCount = 0 ∧
      t.signal.bindings = (if imageAccepted image = true then imageBindings image else []) ∧
      t.signal.store = storeOf s.loader.station t.signal.bindings ∧
      (∀ e ∈ t.signal.store, e.value = 0 ∧ e.age = 255 ∧ e.state = .expired) ∧
      t.cuts = { isolate := s.pins.isolate, supply := false } ∧
      (∀ c, ∃ level, t.LevelIs c level ∧
        (t.ch c).demandLevel = (if (t.cfg c).enabled = true then level else 0) ∧ (t.ch c).activeDuty = 0 ∧
        (t.ch c).state =
          (if s.pins.isolate = true then .cut
           else if (t.cfg c).enabled = true ∧ demandOn (t.cfg c).mode level = true then
             (if (t.cfg c).cls = 0 then .inrush else .requested)
           else .off) ∧
        (t.ch c).shadowDuty = (t.ch c).effectiveDuty ∧
        ((t.ch c).state = .inrush → (t.ch c).effectiveDuty = (t.ch c).demandDuty ∧
          (t.ch c).inrushRemaining = (t.cfg c).window ∧ (t.ch c).runningMarker = true)) ∧
      t.sched.announceAmount = t.SurgeSum t ∧ t.sched.announceHold = t.SurgeSpan t ∧
      (t.SurgeSum t = 0 → t.link.slots.reserveAnnounce = none) ∧
      (let surges (c : Chan) := (t.cfg c).cls = 0 ∧ (t.ch c).state = .inrush
       let before (c : Chan) := ((allChans.filter fun d => d < c && ((t.cfg d).cls = 0 && (t.ch d).state = .inrush)).map
         fun d => (t.cfg d).amount).sum
       let raises (c : Chan) := surges c ∧ (before c < 4095 ∧ 0 < (t.cfg c).amount ∨
         0 < before c + (t.cfg c).amount ∧ ∀ d, d < c → surges d → (t.cfg d).window < (t.cfg c).window)
       ∀ c, raises c → (∀ d, c < d → ¬raises d) →
         t.link.slots.reserveAnnounce = some (.reserve .announce 0 c (t.SurgeSum t) (t.SurgeSpan t))) ∧
      t.link = { s.link with slots :=
        { s.link.slots with signal := t.link.slots.signal, reserveAnnounce := t.link.slots.reserveAnnounce } } ∧
      t.sched.queue = (allChans.filter fun c => (t.ch c).state = .requested) ∧ t.sched.ordinary = none ∧
      t.sched.listen = 2 ∧ t.sched.deferral = 0 ∧
      t.link.slots.signal =
        (if t.params.dinPublish = true ∧ t.loader.runMode = .running then some (.signal din) else none) ∧
      t.link.slots.mark = none ∧ t.reservations = [] ∧
      t.diag = { reportPending := false, overruns := 0, clashFlag := false, faultAsserted := false } ∧
      t.sense = s.sense ∧ t.peers = s.peers ∧ t.pins = s.pins

/-- A rejected image puts the part into LIMP with the fixed configuration of R168: no binding, channels 0–3 DC lamps of class 0, the
other channels disabled. -/
def Obligations.LimpRunsTheFixedConfiguration : Prop :=
  ∀ (s : State) (memory : List Byte) (din : DinLevels), s.loader.phase = .reading →
    imageAccepted (readImage memory) = false →
    ∃ t, exec (.readStops memory din) s = .next t ∧ t.loader.runMode = .limp ∧ t.own = s.own ∧ t.alone = true ∧
      t.params =
        { limitRun := 0, limitBatt := 0, limitAlone := 300, guardBand := 0, hysteresis := 100, restoreStep := 16
          vLow := 220, vCut := 160, lifetime := 10, rotationN := 0, expected := 0, peerAllowance := 0
          dinPublish := false } ∧
      (∀ c : Chan, t.cfg c =
        { enabled := c.val ≤ 3, mode := .dc, cls := 0, shedRank := 0, steadyLimit := 100, inrushLimit := 300, window := 2
          amount := 300, minDuty := 0, openThreshold := 0, retryBase := 4, retryLimit := 3, limitAction := .latch }) ∧
      t.signal.bindings = [] ∧ t.signal.store = [] ∧
      (∀ c : Chan, c.val ≤ 3 → (t.ch c).demandLevel = if dinGet din c.val = true then 255 else 0)

/-! ### Periods and epochs -/

/-- The output of channel `c` at step `t` of a period (R24, R25): on for `d` steps beginning at the edge offset, wrapping past the end
of the period, `d` the active duty; exactly `d` on-steps in a period; every output off while the Modulator does not run. The
sample step of R42 lies inside. -/
def Obligations.OutputsAreOnForTheirDuty : Prop :=
  ∀ (s : State) (c : Chan) (o d : Nat), o = s.own.val % 8 * 31 + 2 * c.val → d = (s.ch c).activeDuty → d ≤ 255 →
    (s.modulator.running = false → ∀ t, s.onAt c t = false) ∧
    (s.modulator.running = true →
      (∀ t < 255, s.onAt c t = true ↔ (o ≤ t ∧ t < o + d) ∨ t + 255 < o + d) ∧
      ((List.range 255).filter fun t => s.onAt c t).length = d ∧
      (1 ≤ d → sampleStep s.own c d = (o + d / 2) % 255 ∧ s.onAt c (sampleStep s.own c d) = true))

/-- PERIOD_COMPLETED in the first three periods of an epoch, with the direct inputs at the levels held: the pending samples are
added weighted by their duty (R43, R58), the next period begins at step 0 with the shadow duties copied (R23, R26), and the
count rises (R31). Nothing else moves, in whatever order the parts are taken. -/
def Obligations.PeriodCompletedBeginsTheNextPeriod : Prop :=
  ∀ (s : State) (charge : Bool) (ord : EpochOrder), s.isLoaded = true → s.timer.completed < 3 →
    exec (.periodCompleted { din := s.signal.inputs, charge := charge } ord) s =
      .next { s with
        channels := Vector.ofFn fun c =>
          { s.ch c with
            drawAcc := (s.ch c).drawAcc + (match (s.ch c).pendingTerm with | some p => p.sample * p.duty | none => 0)
            pendingTerm := none
            activeDuty := (s.ch c).shadowDuty }
        sense := { s.sense with supplySum := s.sense.supplySum + s.sense.pendingSupply.getD 0, pendingSupply := none }
        modulator := { s.modulator with step := 0 }
        timer := { s.timer with completed := s.timer.completed + 1 }
        pins := { s.pins with charge := charge } }

/-- A period start reads the direct inputs (R74): the levels held are replaced, the enabled channels bound to an input that changed
take their level (R69, R70, R72, R73, R76), no other channel's demand moves, and a change is published (R75). Inputs that change at
one period start are one event, the model's choice (log entry 30). -/
def Obligations.APeriodStartReadsTheDirectInputs : Prop :=
  ∀ (s : State) (inp : Inputs) (ord : EpochOrder), s.isLoaded = true → s.timer.completed < 3 →
    ∃ t, exec (.periodCompleted inp ord) s = .next t ∧ t.signal.inputs = inp.din ∧ t.timer.completed = s.timer.completed + 1 ∧
      t.modulator.step = 0 ∧ t.signal.store = s.signal.store ∧
      (∀ c,
        let hit := (s.cfg c).enabled = true ∧ ∃ i < 4, dinGet inp.din i ≠ dinGet s.signal.inputs i ∧
          if s.loader.runMode = .limp then c.val = i
          else ∃ b ∈ s.signal.bindings, b.chan = c ∧ b.source = s.own ∧ b.signal.val = 60 + i
        (hit → ∃ level, t.LevelIs c level ∧ (t.ch c).demandLevel = level ∧
          (t.ch c).state =
            (if level = (s.ch c).demandLevel then (s.ch c).state else (s.ch c).demandState (s.cfg c) level)) ∧
        (¬hit → (t.ch c).demandLevel = (s.ch c).demandLevel ∧ (t.ch c).state = (s.ch c).state)) ∧
      (inp.din ≠ s.signal.inputs → s.params.dinPublish = true → s.loader.runMode = .running →
        t.signal.pubCount = 0 ∧
        (s.link.muted = false →
          if s.link.onLine = some .signal then t.link.heldAside = some (.signal inp.din)
          else t.link.slots.signal = some (.signal inp.din))) ∧
      (inp.din = s.signal.inputs → t.link = s.link ∧ t.signal = s.signal)

/-- OWN_EXPIRY, the fourth completion (R31): epoch n closes with 4 periods and epoch (n + 1) mod 256 starts; the measurement is
closed with its inrush markers moved (R45), the waits and counts of every block move by one, the shadow duties are copied (R26),
every enabled channel is resolved (R73), the budget is evaluated over the closed measurement (R117) and admission decided and selection made on that evaluation (R134, R141,
R145), the end of a SUPPLY cut takes every held demand again (R20, R61, R62), a STATUS goes to its slot, and the own MARK is queued
and pending unless the link is MUTED (R33, R38). The configuration stands in its ranges (R165, R166), as every one in force does
(TheConfigurationStandsUntilReset). The fourth PERIOD_COMPLETED is the same event (log entry 2), and each part is taken as a whole
(log entry 36). The parts that `ord` names within the evaluation come between its orders (R127), and those it names for the grant
before that arrives (R9, R145); an event from outside comes before or after the step (log entries 32 and 37). -/
def Obligations.OwnExpiryStartsTheNextEpoch : Prop :=
  ∀ (s : State) (inp : Inputs) (ord : EpochOrder), s.isLoaded = true → s.configuration.InRange → s.timer.completed = 3 →
    let m := (s.timer.number + 1) % 256
    ∃ t, exec (.ownExpiry inp ord) s = .next t ∧ exec (.periodCompleted inp ord) s = .next t ∧
      s.EpochClosed t 4 m
        (fun c => (s.ch c).drawAcc + (match (s.ch c).pendingTerm with | some p => p.sample * p.duty | none => 0))
        (s.sense.supplySum + s.sense.pendingSupply.getD 0) ∧
      s.EpochAged t m s.link.silence s.sched.listen ∧ s.EpochCounted t inp.din ord.schedulerFirst ∧
      s.EpochEvaluated t inp.charge ∧ s.EpochDecides t inp.din ∧ s.EpochDutiesLoaded t inp.din ∧ t.AllResolved ∧
      s.SupplyCutEnds t inp.din ∧ s.MarkersMoved t inp.din ∧
      t.signal.inputs = inp.din ∧ t.pins = { s.pins with charge := inp.charge } ∧
      (s.link.muted = true → t.timer.markPending = s.timer.markPending) ∧
      (s.link.muted = false → t.timer.markPending = true ∧ s.StatusHandedOver t ∧
        if s.link.onLine = some .mark then t.link.heldAside = some (.mark m) else t.link.slots.mark = some (.mark m)) ∧
      s.EpochFrame s t

/-- A MARK from another station after the first period is accepted (R34): the epoch closes with the periods completed so far, the
partial period's samples are dropped (R27, R43), epoch m starts, and the own MARK is withdrawn. As at an own expiry, the inrush
markers move (R45), the waits and counts of every block move by one, the shadow duties are copied (R26), every enabled channel is resolved (R73), the budget is
evaluated (R117), admission decided and selection made (R134, R141, R145), and the end of a SUPPLY cut takes every held demand again
(R20, R61, R62). `u` is what the frame counts as a valid frame (R86). The configuration stands in its ranges (R165, R166), as every
one in force does (TheConfigurationStandsUntilReset). Each part is taken as a whole (log entry 36). The parts that `ord` names within
the evaluation come between its orders (R127), and those it names for the grant before that arrives (R9, R145); an event from
outside comes before or after the step (log entries 32 and 37). -/
def Obligations.AMarkAfterTheFirstPeriodIsFollowed : Prop :=
  ∀ (s : State) (sender : Stn) (b : Byte) (inp : Inputs) (ord : EpochOrder), s.isLoaded = true → s.configuration.InRange →
    sender ≠ s.own → 1 ≤ s.timer.completed →
    ∃ u t, exec (.kind7FrameReceived sender []) s = .next u ∧ exec (.markReceived sender [b] inp ord) s = .next t ∧
      s.EpochClosed t s.timer.completed b.toNat (fun c => (s.ch c).drawAcc) s.sense.supplySum ∧
      s.EpochAged t b.toNat 0 u.sched.listen ∧ s.EpochCounted t inp.din ord.schedulerFirst ∧ t.signal.inputs = inp.din ∧
      s.EpochEvaluated t inp.charge ∧ u.EpochDecides t inp.din ∧ s.EpochDutiesLoaded t inp.din ∧ t.AllResolved ∧
      s.SupplyCutEnds t inp.din ∧ s.MarkersMoved t inp.din ∧
      t.timer.markPending = false ∧
      (s.timer.markPending = true → s.link.onLine ≠ some .mark → t.link.slots.mark = none) ∧
      (s.timer.markPending = true → s.link.onLine = some .mark → t.link.heldAside = none ∧ t.link.lineWithdrawn = true) ∧
      (s.timer.markPending = false → t.link.slots.mark = s.link.slots.mark) ∧
      (u.link.muted = false → u.StatusHandedOver t) ∧ s.EpochFrame u t ∧ t.pins = { s.pins with charge := inp.charge }

/-- A MARK from another station in the first period: with an own MARK pending the station realigns (R35), restarting its period
under the received number with no epoch start: the shadow duties are copied (R27), and where the number has changed the enabled
channels with a FLASH binding are resolved (R71), beside those bound to an input that has changed (R74); otherwise the MARK is
ignored and counts as a valid frame alone (R36). -/
def Obligations.AMarkInTheFirstPeriodStartsNoEpoch : Prop :=
  ∀ (s : State) (sender : Stn) (b : Byte) (inp : Inputs) (ord : EpochOrder), s.isLoaded = true → sender ≠ s.own →
    s.timer.completed = 0 → ∃ u, exec (.kind7FrameReceived sender []) s = .next u ∧
    (s.timer.markPending = false → exec (.markReceived sender [b] inp ord) s = .next u) ∧
    (s.timer.markPending = true →
      ∃ t, exec (.markReceived sender [b] inp ord) s = .next t ∧
        t.timer = { s.timer with number := b.toNat, markPending := false } ∧ t.modulator = { s.modulator with step := 0 } ∧
        (s.link.onLine ≠ some .mark → t.link.slots.mark = none) ∧
        (s.link.onLine = some .mark → t.link.heldAside = none ∧ t.link.lineWithdrawn = true) ∧ t.link.silence = 0 ∧
        t.sched.listen = u.sched.listen ∧ t.sched.deferral = s.sched.deferral ∧ (∀ c, s.DutyLoaded t inp.din c) ∧
        (∀ c,
          let hit := ((s.cfg c).enabled = true ∧ b.toNat ≠ s.timer.number ∧
            ∃ k ∈ s.signal.bindings, k.chan = c ∧ k.transform = .flash) ∨ s.InputMoves inp.din c
          (hit → t.LevelIs c (t.ch c).demandLevel) ∧
          (¬hit → (t.ch c).demandLevel = (s.ch c).demandLevel ∧ (t.ch c).state = (s.ch c).state)) ∧
        (∀ c, (t.ch c).drawAcc = (s.ch c).drawAcc ∧ (t.ch c).pendingTerm = none ∧ (t.ch c).epochDraw = (s.ch c).epochDraw ∧
          (t.ch c).closedMarker = (s.ch c).closedMarker) ∧
        t.sense = { s.sense with pendingSupply := none } ∧ t.peers = s.peers ∧ t.reservations = s.reservations ∧
        t.budget = u.budget ∧ t.signal.store = s.signal.store ∧ t.signal.inputs = inp.din ∧
        t.cuts = s.cuts ∧ t.diag = s.diag ∧ t.loader = s.loader ∧ t.pins = { s.pins with charge := inp.charge } ∧
        t.signal.phaseOn = (if b.toNat = s.timer.number then s.signal.phaseOn else decide (b.toNat % 32 < 16)))

/-! ### The budget and admission -/

/-- The figures of one evaluation (R117–R120), the own cuts (R122), OVERLOAD (R123), the orders it comes to and the settle count
(R121, R124, R128–R130), and what it hands on (R132–R134). `P` and `allowance` are what the peers' entries give (R103); `S`, `L`, `E`
are the exact figures in use; they are held saturated at 65 535 (R116), and the event that follows carries them exact. While the
supply is LOW every class 3 channel in ON is shed first. Then, with the settle count 0, the cuts are applied in classes 3, 2, 1, or
where S stands at or below L − H one restore step is taken in the lowest class that qualifies. The evaluation here has nothing between
its parts; what comes between its orders (R127) is in ACutThrottlesThePwmChannels. -/
def Obligations.AnEvaluationFormsItsFigures : Prop :=
  ∀ (s t lowShed : State) (base allowance steady S L E : Nat) (P C : Cls → Nat), t = evaluateBudget s →
    lowShed = shedForSupply s →
    let d := s.sense.draws
    let own := d.d0 + d.d1 + d.d2 + d.d3
    let guard := s.params.guardBand
    let alone := s.link.muted = true ∨ s.link.isolated = true ∨ s.loader.runMode = .limp
    base = (if s.pins.charge = true then s.params.limitRun else s.params.limitBatt) →
    (∀ k, P k = ((allStns.filter fun p => p ≠ s.own && (s.peer p).presence ≠ .absent).map fun p =>
      match (s.peer p).draws with | some x => x.get k | none => 0).sum) →
    allowance = s.params.peerAllowance * (allStns.filter fun p =>
      p ≠ s.own && (s.params.expected.getLsbD p.val && (s.peer p).presence = .absent)).length →
    steady = own + (P 0 + P 1 + P 2 + P 3) + allowance →
    S = (if alone then own else steady) →
    L = (if alone then s.params.limitAlone - guard else base - guard) →
    E = S - L →
    (∀ k, C k = if alone then d.get k else d.get k + P k) →
    let cuts := t.budget.cut1 + t.budget.cut2 + t.budget.cut3
    t.budget.carried =
      { zone := if s.loader.runMode = .limp then ⟨0, 0, 0, 0⟩ else ⟨base, base - guard, steady, steady - (base - guard)⟩
        alone := ⟨s.params.limitAlone, s.params.limitAlone - guard, own, own - (s.params.limitAlone - guard)⟩
        settle := s.budget.settle
        wasAlone := decide alone } ∧
    t.budget.zone =
      (if s.loader.runMode = .limp then ⟨0, 0, 0, 0⟩
       else ⟨base, base - guard, min 65535 steady, min 65535 (steady - (base - guard))⟩) ∧
    t.budget.alone =
      ⟨s.params.limitAlone, s.params.limitAlone - guard, min 65535 own, min 65535 (own - (s.params.limitAlone - guard))⟩ ∧
    t.budget.inUse = (if alone then .alone else .zone) ∧
    t.budget.cut3 = (if C 3 = 0 then 0 else (min E (C 3) * d.d3 + C 3 - 1) / C 3) ∧
    t.budget.cut2 = (if C 2 = 0 then 0 else (min (E - C 3) (C 2) * d.d2 + C 2 - 1) / C 2) ∧
    t.budget.cut1 = (if C 1 = 0 then 0 else (min (E - C 3 - C 2) (C 1) * d.d1 + C 1 - 1) / C 1) ∧
    t.budget.overload = (if C 3 + C 2 + C 1 < E then true else if E = 0 then false else s.budget.overload) ∧
    (∀ c, lowShed.ch c =
      if s.sense.supply = .low ∧ (s.cfg c).cls = 3 ∧ (s.ch c).state = .on then (s.ch c).ShedFor .supply else s.ch c) ∧
    (0 < s.budget.settle → t.channels = lowShed.channels ∧ t.budget.settle = s.budget.settle - 1) ∧
    (s.budget.settle = 0 → L < S + s.params.hysteresis →
      t.channels =
        (applyCut 1 t.budget.cut1 (applyCut 2 t.budget.cut2 (applyCut 3 t.budget.cut3 lowShed))).channels ∧
      t.budget.settle = if 0 < cuts then 2 else 0) ∧
    (s.budget.settle = 0 → S + s.params.hysteresis ≤ L → cuts = 0 ∧
      (∀ k, k ≠ 0 → s.Qualifies k → (∀ j, j ≠ 0 → j < k → ¬s.Qualifies j) →
        t.channels = (restoreStep k lowShed).channels ∧ t.sched = (restoreStep k lowShed).sched ∧ t.budget.settle = 2) ∧
      ((∀ k, k ≠ 0 → ¬s.Qualifies k) →
        t.channels = lowShed.channels ∧ t.sched = s.sched ∧ t.budget.settle = 0)) ∧
    (0 < s.budget.settle ∨ L < S + s.params.hysteresis → t.sched = s.sched) ∧
    t.FaultPinTrue ∧ (s.link.muted = false → t.StatusHandedOver t) ∧ t.sense = s.sense ∧ t.sched.listen = s.sched.listen

/-- The stations of a class that see the same figures cut at least what the class is to give up, and less than one dA more for each
that draws in it; none cuts more than it draws (R122). -/
def Obligations.SharesCoverTheExcess : Prop :=
  ∀ (rem : Nat) (draws : List Nat),
    let total := draws.sum
    let cuts := draws.map (cutOf rem total)
    min rem total ≤ cuts.sum ∧
    (0 < total → cuts.sum < min rem total + (draws.filter fun d => 0 < d).length) ∧
    (∀ d ∈ draws, cutOf rem total d ≤ d ∧ (d = 0 → cutOf rem total d = 0))

/-- A cut `r` in one class (R124–R127). One that fits within the PWM draw P throttles every eligible PWM channel to
floor(e × (P − r) / P), at most the 255 an order can carry, or sheds it where that lies below its minimum duty (R16). Any other sheds
every eligible PWM channel, and of the eligible DC channels that draw, in ascending shed rank and then number, each one that is
reached while those before it draw less than r − P. A restore step in one class (R130): where it holds capped channels in ON, each is
raised by the step; otherwise the restorable channel of highest rank, and between equal ranks of highest number, joins the Turn-On
Queue. With nothing between the orders, nothing else moves. Whatever comes between the reading of the class and the arrival of an
order (R127), the channels it leaves alone are ordered as if it had not come, since the draw of an ignored order counts and none goes
out in its place; and a channel that an event has taken out of ON and SHED stays as the event left it. -/
def Obligations.ACutThrottlesThePwmChannels : Prop :=
  ∀ (s t : State) (k : Cls) (r P : Nat) (draws : Chan → Nat), k ≠ 0 → (∀ c, (s.cfg c).shedRank ≤ 15) →
    let eligible (c : Chan) := (s.cfg c).cls = k ∧ (s.ch c).state = .on ∧ (s.ch c).closedMarker = false
    let pwm (c : Chan) := eligible c ∧ (s.cfg c).mode = .pwm
    let dc (c : Chan) := eligible c ∧ (s.cfg c).mode = .dc ∧ 0 < (s.ch c).epochDraw
    let earlier (d c : Chan) := (s.cfg d).shedRank < (s.cfg c).shedRank ∨ (s.cfg d).shedRank = (s.cfg c).shedRank ∧ d < c
    P = ((allChans.filter fun c => (s.cfg c).cls = k && ((s.ch c).state = .on && !(s.ch c).closedMarker &&
      (s.cfg c).mode = .pwm)).map fun c => (s.ch c).epochDraw).sum →
    (∀ c, draws c = ((allChans.filter fun d => (s.cfg d).cls = k && ((s.ch d).state = .on && !(s.ch d).closedMarker &&
      (s.cfg d).mode = .dc) && ((s.cfg d).shedRank < (s.cfg c).shedRank ||
        (s.cfg d).shedRank = (s.cfg c).shedRank && d < c)).map fun d => (s.ch d).epochDraw).sum) →
    (0 < r → t = applyCut k r s →
      t = { s with channels := t.channels } ∧
      (r ≤ P → ∀ c,
        let cap := min 255 ((s.ch c).effectiveDuty * (P - r) / P)
        t.ch c =
          if pwm c then (if (s.cfg c).minDuty ≤ cap then (s.ch c).CappedAt cap else (s.ch c).ShedFor .budget)
          else s.ch c) ∧
      (P < r → ∀ c, t.ch c = if pwm c ∨ dc c ∧ draws c < r - P then (s.ch c).ShedFor .budget else s.ch c)) ∧
    (t = restoreStep k s →
      ((∃ c, s.IsCapped k c) → t = { s with channels := t.channels } ∧
        ∀ c, t.ch c =
          if s.IsCapped k c then (s.ch c).CappedAt (min 255 ((s.ch c).cap + s.params.restoreStep)) else s.ch c) ∧
      ((∀ c, ¬s.IsCapped k c) → ∀ c, s.IsRestorable k c → (∀ d, s.IsRestorable k d → d ≠ c → earlier d c) →
        t = s.Restored c) ∧
      ((∀ c, ¬s.IsCapped k c) → (∀ c, ¬s.IsRestorable k c) → t = s)) ∧
    (∀ (aside : Chan → Prop) (between : List (State → State)) (quiet : State) (amid : List (State → State) → Course),
      EventsAt aside between →
      (0 < r ∧ quiet = applyCut k r s ∧ (∀ b, amid b = applyCutAmid k r { between := (fun u => u) :: b, now := s })) ∨
        (quiet = shedForSupply s ∧ ∀ b, amid b = shedForSupplyAmid { between := (fun u => u) :: b, now := s }) ∨
        (quiet = restoreStep k s ∧ ∀ b, amid b = restoreStepAmid k { between := b, now := s }) →
      (∀ c, ¬aside c → (amid between).finish.ch c = quiet.ch c) ∧
      ∀ c event, between = [event] → ((event s).ch c).state ≠ .on → ((event s).ch c).state ≠ .shed →
        (amid between).finish.ch c = (event s).ch c)

/-- The orders of the Budget Unit at one channel. A cap raise (R17) is acted on in ON and class 1–3, the cap rising by the step to at
most 255 and the effective duty following, and a throttle (R16) there in mode PWM alone, shedding the channel where the cap lies below
its minimum duty. A shed order (R18) takes a class 1–3 channel in ON to SHED with its reason; a restore order (R18) takes a class 1–3
channel in SHED to REQUESTED at the tail of the queue. Everywhere else the order is ignored. -/
def Obligations.ACapRaiseActsInOnAlone : Prop :=
  ∀ (s : State) (c : Chan) (step cap : Nat) (reason : ShedReason),
    let x := s.ch c
    let acted := x.state = .on ∧ (s.cfg c).cls ≠ 0
    capRaise c step s =
      (if acted then s.setCh c (x.CappedAt (if x.cap + step < 255 then x.cap + step else 255)) else s) ∧
    throttle c cap s =
      (if acted ∧ (s.cfg c).mode = .pwm then
        s.setCh c (if (s.cfg c).minDuty ≤ cap then x.CappedAt cap else x.ShedFor .budget)
      else s) ∧
    shed c reason s = (if acted then s.setCh c (x.ShedFor reason) else s) ∧
    ((s.cfg c).cls ≠ 0 → restore c s = if x.state = .shed then s.Restored c else s)

/-- The admission decision on a claim in SETTLING (R109–R112, R140, R145, R146): it passes exactly where no excess stands, the settle
count was 0 and the claim fits with the steady total and, by the link test, every claim ahead of it; a claim taken alone fails once
the station is not alone (R111, R148). A pass takes the channel from the queue, moves the rotation count, holds the record and
grants the channel, which enters INRUSH with its window, marked, its overcurrent count and last sample begun afresh (R11, R41, R45). A
failure frees the record, releases a claim made by frame, and defers. Where something comes between the grant and its arrival (R9, R145),
it meets the claim HELD and the rotation moved: a channel that it takes out of REQUESTED is left as it is, the grant ignored, and one
that it leaves there is granted. A fall of demand there ends the claim by LEFT QUEUE in HELD, released where it was made by frame
(R147), and the channel is OFF and not marked. That an entry whose hold stands at 0 counts as removed is the model's choice (log
entry 5). -/
def Obligations.AdmissionNeedsRoomInTheFeed : Prop :=
  ∀ (s t : State) (x : Claim), s.AdmissionRuled → s.sched.ordinary = some x → x.phase = .settling → t = decideAdmission s →
    let e := s.budget.carried
    let alone := s.link.muted = true ∨ s.link.isolated = true ∨ s.loader.runMode = .limp
    let passes : Prop :=
      if alone then e.alone.excess = 0 ∧ e.settle = 0 ∧ e.alone.steady + x.amount ≤ e.alone.limit
      else x.byFrame = true ∧ e.zone.excess = 0 ∧ e.settle = 0 ∧ ∃ ahead r behind,
        (s.reservations.filter fun q => q.hold ≠ 0) = ahead ++ r :: behind ∧
        (∀ q ∈ ahead, ¬(q.station = s.own ∧ q.ty = .ordinary)) ∧ r.station = s.own ∧ r.ty = .ordinary ∧
        e.zone.steady + (ahead.map Reservation.amount).sum + r.amount ≤ e.zone.limit
    let lowerWaits := ∃ c ∈ s.sched.queue, c ≠ x.chan ∧ 2 ≤ (s.cfg c).cls.val
    let y := s.ch x.chan
    (passes →
      t.ch x.chan = { y with state := .inrush, cap := 255, shedReason := .none, inrushRemaining := (s.cfg x.chan).window
                             effectiveDuty := y.demandDuty, shadowDuty := y.demandDuty, overCount := 0
                             runningMarker := true, lastSample := none } ∧
      (∀ c, c ≠ x.chan → t.ch c = s.ch c) ∧
      t = { s with
        channels := t.channels
        sched := { s.sched with
          queue := s.sched.queue.filter fun c => c ≠ x.chan
          ordinary := some { x with phase := .held }
          rotation := t.sched.rotation } } ∧
      (x.cls = 1 ∧ lowerWaits → t.sched.rotation = min (s.sched.rotation + 1) s.params.rotationN) ∧
      (¬(x.cls = 1 ∧ lowerWaits) → t.sched.rotation = 0) ∧
      let held := { s with
        sched := { s.sched with
          queue := s.sched.queue.filter fun c => c ≠ x.chan
          ordinary := some { x with phase := .held }
          rotation := t.sched.rotation } }
      (∀ event : State → State,
        let v := decideAdmissionAmid [event] s
        (((event held).ch x.chan).state ≠ .requested → v = event held) ∧
        (((event held).ch x.chan).state = .requested →
          (v.ch x.chan).state = .inrush ∧ ∀ c, c ≠ x.chan → v.ch c = (event held).ch c)) ∧
      ∀ level, demandOn (s.cfg x.chan).mode y.demandLevel = true → demandOn (s.cfg x.chan).mode level = false →
        let v := decideAdmissionAmid [deliver x.chan level] s
        y.FollowsDemand (v.ch x.chan) (s.cfg x.chan) level ∧ (v.ch x.chan).state = .off ∧
        (v.ch x.chan).runningMarker = y.runningMarker ∧ (∀ c, c ≠ x.chan → v.ch c = s.ch c) ∧
        v = { held with
          channels := v.channels
          sched := { held.sched with ordinary := none }
          link := if x.byFrame = true then s.link.handOver (.release .ordinary x.chan) else s.link }) ∧
    (¬passes → (∀ event : State → State, decideAdmissionAmid [event] s = event t) ∧ t =
      { s with
        sched := { s.sched with ordinary := none, deferral := 2 + s.own.val % 4 }
        link := if x.byFrame = true then s.link.handOver (.release .ordinary x.chan) else s.link })

/-- A selection (R140, R141): made with the record NONE, the counts 0 and a channel waiting, and then alone. It claims the earliest
channel of the lowest class, or where rotation calls the earliest of class 2 or 3, by an ORDINARY RESERVE where the station is not
alone and without a frame where it is. -/
def Obligations.ASelectionClaimsTheLowestClass : Prop :=
  ∀ (s t : State), s.AdmissionRuled → t = select s →
    let may := s.sched.ordinary = none ∧ s.sched.deferral = 0 ∧ s.sched.listen = 0 ∧ s.budget.settle = 0 ∧ s.sched.queue ≠ []
    let rotates := 1 ≤ s.params.rotationN ∧ s.sched.rotation = s.params.rotationN ∧
      ∃ c ∈ s.sched.queue, 2 ≤ (s.cfg c).cls.val
    (¬may → t = s) ∧
    (may → ∃ before c after, s.sched.queue = before ++ c :: after ∧
      (rotates → 2 ≤ (s.cfg c).cls.val ∧ ∀ d ∈ before, (s.cfg d).cls.val < 2) ∧
      (¬rotates → (∀ d ∈ before, (s.cfg c).cls.val < (s.cfg d).cls.val) ∧
        ∀ d ∈ after, (s.cfg c).cls.val ≤ (s.cfg d).cls.val) ∧
      (rotates → t.sched.rotation = 0) ∧ (¬rotates → t.sched.rotation = s.sched.rotation) ∧
      t = { s with
        sched := { s.sched with
          rotation := t.sched.rotation
          ordinary := some
            { phase := if s.alone = true then .settling else .pendingTx
              chan := c
              cls := (s.cfg c).cls
              amount := (s.cfg c).amount
              hold := (s.cfg c).window + 1
              byFrame := !s.alone } }
        link := if s.alone = true then s.link
          else s.link.handOver (.reserve .ordinary (s.cfg c).cls c (s.cfg c).amount ((s.cfg c).window + 1)) })

/-! ### Waits that end at a count -/

/-- SIGNAL_EXPIRY of a FRESH entry at the lifetime (R68): the entry becomes EXPIRED and keeps its value, and the enabled channels bound
to its key are resolved, each to the greatest contribution of its bindings, in which a binding of fallback LEVEL now reads its
fallback level and one of fallback HOLD the value kept (R69, R70, R72, R73). The row acts alone where the epoch start has not taken
it (log entry 6). -/
def Obligations.SignalExpiryHandsOverToTheFallback : Prop :=
  ∀ (s : State) (src : Stn) (sig : Fin 64), s.isLoaded = true →
    (∃ e ∈ s.signal.store, e.source = src ∧ e.signal = sig ∧ e.state = .fresh ∧ s.params.lifetime ≤ e.age) →
    ∃ t, exec (.signalExpiry src sig) s = .next t ∧
      t.signal = { s.signal with
        store := s.signal.store.map fun e =>
          if e.source = src ∧ e.signal = sig ∧ e.state = .fresh ∧ s.params.lifetime ≤ e.age then
            { e with state := .expired } else e } ∧
      s.Resolves t (fun c => ∃ b ∈ s.signal.bindings, b.chan = c ∧ b.source = src ∧ b.signal = sig) ∧
      t.timer = s.timer ∧ t.sense = s.sense ∧ t.peers = s.peers ∧ t.reservations = s.reservations ∧ t.budget = s.budget ∧
      t.diag = s.diag ∧ t.cuts = s.cuts ∧ t.modulator = s.modulator ∧ t.loader = s.loader

/-- PEER_STALE, PEER_ABSENT and HOLD_RUNS_OUT where their count has been reached (R101, R108), nothing else moving; where it has not,
they do not arise and nothing changes (log entry 1). -/
def Obligations.PeerWaitsRunOut : Prop :=
  ∀ (s : State) (p : Stn) (ty : ResType), s.isLoaded = true →
    let e := s.peer p
    exec (.peerStale p) s =
      .next (if e.presence = .present ∧ 5 ≤ e.age then s.setPeer p { e with presence := .stale } else s) ∧
    exec (.peerAbsent p) s =
      .next (if e.presence = .stale ∧ 250 ≤ e.age then s.setPeer p { e with presence := .absent, draws := none } else s) ∧
    exec (.holdRunsOut p ty) s =
      .next { s with reservations := s.reservations.filter fun r => !(r.station = p && r.ty = ty && r.hold = 0) }

/-- INRUSH_WINDOW_END of a channel whose count has reached 0 (R12, R51): a last sample above the steady limit is a STALL trip, recorded at
step 0; otherwise the channel enters ON at its demand duty. Either way its claim ends, with the RELEASE of a claim made by frame
(R147) or, where the announce amount falls to 0, the ANNOUNCE RELEASE (R150). -/
def Obligations.AnInrushWindowEndsInOnOrStall : Prop :=
  ∀ (s : State) (c : Chan), s.isLoaded = true → (s.ch c).state = .inrush → (s.ch c).inrushRemaining = 0 →
    let x := s.ch c
    ∃ t, exec (.inrushWindowEnd c) s = .next t ∧
      (∀ v, x.lastSample = some v → (s.cfg c).steadyLimit < v → s.TripLeaves t c .stall v 0) ∧
      ((∀ v, x.lastSample = some v → v ≤ (s.cfg c).steadyLimit) →
        t.ch c = { x with state := .on, cap := 255, shedReason := .none, effectiveDuty := min x.demandDuty 255
                          shadowDuty := min x.demandDuty 255, openCount := 0, onEpochs := 0 } ∧
        (∀ d, d ≠ c → t.ch d = s.ch d) ∧ t.cuts = s.cuts ∧ t.sense = s.sense ∧ t.pins = s.pins ∧
        t.modulator = s.modulator ∧ t.diag = s.diag ∧ s.KeepsBeyondChannels t) ∧
      s.SurgeEnds t c

/-- RETRY_DUE of a TRIPPED channel whose timer has run out, demand on (R14, R54, R152): class 1–3 enters REQUESTED at the tail of the
queue, class 0 INRUSH at once, the attempt count kept; its ANNOUNCE RESERVE is handed over where the announce amount rises, or stands
above 0 while the hold rises, and otherwise nothing is (R149). -/
def Obligations.ARetryRejoinsLikeANewTurnOn : Prop :=
  ∀ (s : State) (c : Chan), s.isLoaded = true → (s.ch c).retryTimer = some 0 → (s.ch c).state = .tripped →
    demandOn (s.cfg c).mode (s.ch c).demandLevel = true →
    let x := s.ch c
    ((s.cfg c).cls ≠ 0 → exec (.retryDue c) s =
      .next { s.setCh c { x with state := .requested, cap := 255, shedReason := .none, inrushRemaining := 0
                                 effectiveDuty := 0, shadowDuty := 0, retryTimer := none } with
        sched := { s.sched with queue := s.sched.queue ++ [c] } }) ∧
    ((s.cfg c).cls = 0 → ∃ t, exec (.retryDue c) s = .next t ∧
      t.ch c = { x with state := .inrush, cap := 255, shedReason := .none, inrushRemaining := (s.cfg c).window
                        effectiveDuty := x.demandDuty, shadowDuty := x.demandDuty, retryTimer := none, overCount := 0
                        runningMarker := true, lastSample := none } ∧
      (∀ d, d ≠ c → t.ch d = s.ch d) ∧ t.sched.queue = s.sched.queue ∧ t.sched.ordinary = s.sched.ordinary ∧
      t.cuts = s.cuts ∧ t.sense = s.sense ∧ t.modulator = s.modulator ∧ t.diag = s.diag ∧ s.KeepsBeyondChannels t ∧
      t.sched.announceAmount = s.SurgeSum t ∧ t.sched.announceHold = s.SurgeSpan t ∧
      t.link =
        if s.sched.announceAmount < s.SurgeSum t ∨ 0 < s.SurgeSum t ∧ s.sched.announceHold < s.SurgeSpan t then
          s.link.handOver (.reserve .announce 0 c (s.SurgeSum t) (s.SurgeSpan t))
        else s.link)

/-- ATTEMPT_RESET at an ON-epoch count of 50 (R55, R56): the attempt count and the PERSIST-noted flag are reset, the rest of the record
kept. ISOLATED_ENTRY at a silence count of 10 (R94, R96): the link is ISOLATED and the alone figures are in use.
PERIODIC_PUBLICATION at a publication count of 8 (R75): the SIGNAL frame with the levels of the direct inputs is handed over, held
aside while an earlier one is on the line (R88), refused while MUTED (R92), and the count returns to 0. -/
def Obligations.StationWaitsRunOut : Prop :=
  ∀ (s : State) (c : Chan), s.isLoaded = true →
    ((s.ch c).onEpochs = 50 →
      exec (.attemptReset c) s =
        .next (s.setCh c { s.ch c with fault := { (s.ch c).fault with attempts := 0, persistNoted := false } })) ∧
    (s.link.silence = 10 → s.link.isolated = false →
      exec .isolatedEntry s =
        .next { s with link := { s.link with isolated := true }, budget := { s.budget with inUse := .alone } }) ∧
    (s.signal.pubCount = 8 → s.params.dinPublish = true → s.loader.runMode = .running →
      exec .periodicPublication s =
        .next { s with
          signal := { s.signal with pubCount := 0 }
          link :=
            if s.link.muted = true then s.link
            else if s.link.onLine = some .signal then { s.link with heldAside := some (.signal s.signal.inputs) }
            else { s.link with slots := { s.link.slots with signal := some (.signal s.signal.inputs) } } })

/-! ### Sensing and protection -/

/-- CURRENT_SAMPLE that trips nothing (R42, R43, R47, R57): the pending term, and in INRUSH or ON the last sample and the overcurrent
count against the limit in force, and in ON the open-load count and flag. Nothing else moves but the step counter. -/
def Obligations.ACurrentSampleIsTaken : Prop :=
  ∀ (s : State) (c : Chan) (current v limit : Nat), s.isLoaded = true → s.modulator.running = true →
    1 ≤ (s.ch c).activeDuty → (s.ch c).pendingTerm = none → v = min current 511 →
    let x := s.ch c
    let k := s.cfg c
    let live := x.state = .inrush ∨ x.state = .on
    limit = (if x.state = .inrush then k.inrushLimit else k.steadyLimit) → (live → limit < v → x.overCount = 0) →
    exec (.currentSample c current) s =
      .next { s.setCh c { x with
          pendingTerm := some { sample := v, duty := x.activeDuty }
          lastSample := if live then some v else x.lastSample
          overCount := if live then (if limit < v then 1 else 0) else x.overCount
          openCount :=
            if x.state = .on ∧ 0 < k.openThreshold then
              (if v < k.openThreshold ∧ x.openCount < 3 then x.openCount + 1 else 0) else x.openCount
          openFlag :=
            if x.state = .on ∧ 0 < k.openThreshold then
              (if v < k.openThreshold then (if x.openCount < 3 then x.openFlag else true) else false) else x.openFlag } with
        modulator := { s.modulator with
          step := (s.own.val % 8 * 31 + 2 * c.val + x.activeDuty / 2) % 255 } }

/-- CURRENT_SAMPLE above the limit in force after one above it (R47, R48): the channel trips with OVERCURRENT, the sample and its
step. -/
def Obligations.TheSecondHighSampleTrips : Prop :=
  ∀ (s : State) (c : Chan) (current v limit step : Nat), s.isLoaded = true → s.modulator.running = true →
    1 ≤ (s.ch c).activeDuty → (s.ch c).pendingTerm = none → v = min current 511 →
    (s.ch c).state = .inrush ∨ (s.ch c).state = .on →
    limit = (if (s.ch c).state = .inrush then (s.cfg c).inrushLimit else (s.cfg c).steadyLimit) → limit < v →
    (s.ch c).overCount ≠ 0 → step = (s.own.val % 8 * 31 + 2 * c.val + (s.ch c).activeDuty / 2) % 255 →
    ∃ t, exec (.currentSample c current) s = .next t ∧ s.TripLeaves t c .overcurrent v step ∧
      (t.ch c).overCount = 0 ∧ (t.ch c).lastSample = some v ∧
      (t.ch c).pendingTerm = some { sample := v, duty := (s.ch c).activeDuty } ∧
      t.modulator = { s.modulator with step := step }

/-- SHORT above 640 dA on an output that is on (R49): in INRUSH or ON a SHORT trip of 640 dA at the step. THERMAL on an output that is
on (R50): in INRUSH or ON a THERMAL trip with the last sample, 0 if there is none. In any other state both are a comparator cut-off,
which writes the active duty alone; on an output that is off nothing happens. -/
def Obligations.TheSwitchItselfTurnsAnOutputOff : Prop :=
  ∀ (s : State) (c : Chan) (step current last : Nat), s.isLoaded = true → step ≤ 254 →
    last = (match (s.ch c).lastSample with | some v => v | none => 0) →
    let live := (s.ch c).state = .inrush ∨ (s.ch c).state = .on
    let cutOff : Host.Outcome State Fault Refusal :=
      .next { s.setCh c { s.ch c with activeDuty := 0 } with modulator := { s.modulator with step := step } }
    (s.onAt c step = true → 640 < current → live →
      ∃ t, exec (.short c step current) s = .next t ∧ s.TripLeaves t c .short 640 step ∧
        t.modulator = { s.modulator with step := step }) ∧
    (s.onAt c step = true → 640 < current → ¬live → exec (.short c step current) s = cutOff) ∧
    (s.onAt c step = false ∨ current ≤ 640 → exec (.short c step current) s = .next s) ∧
    (s.onAt c step = true → live →
      ∃ t, exec (.thermal c step) s = .next t ∧ s.TripLeaves t c .thermal last step ∧
        t.modulator = { s.modulator with step := step }) ∧
    (s.onAt c step = true → ¬live → exec (.thermal c step) s = cutOff) ∧
    (s.onAt c step = false → exec (.thermal c step) s = .next s)

/-- SUPPLY_SAMPLE (R58, R60): the pending supply sample, at step 128, and the low-sample count; the second low sample in a row takes the
condition to CUT and cuts every channel (R19, R62), with the frames that the Scheduler then releases or withdraws (R151). -/
def Obligations.ASupplySampleIsTaken : Prop :=
  ∀ (s : State) (voltage v : Nat), s.isLoaded = true → s.modulator.running = true → s.sense.pendingSupply = none →
    v = min voltage 400 →
    let m := { s.modulator with step := 128 }
    (s.sense.supply = .cut → exec (.supplySample voltage) s =
      .next { s with modulator := m, sense := { s.sense with pendingSupply := some v } }) ∧
    (s.sense.supply ≠ .cut → s.params.vCut ≤ v → exec (.supplySample voltage) s =
      .next { s with modulator := m, sense := { s.sense with pendingSupply := some v, lowSamples := 0 } }) ∧
    (s.sense.supply ≠ .cut → v < s.params.vCut → s.sense.lowSamples = 0 → exec (.supplySample voltage) s =
      .next { s with modulator := m, sense := { s.sense with pendingSupply := some v, lowSamples := 1 } }) ∧
    (s.sense.supply ≠ .cut → v < s.params.vCut → s.sense.lowSamples ≠ 0 → s.AdmissionRuled →
      ∃ t, exec (.supplySample voltage) s = .next t ∧ t.modulator = m ∧ t.pins = s.pins ∧
        t.sense = { s.sense with supply := .cut, pendingSupply := some v, lowSamples := 0 } ∧
        t.cuts = { s.cuts with supply := true } ∧
        (s.cuts = { isolate := false, supply := false } → s.CutLeaves t) ∧
        (s.cuts ≠ { isolate := false, supply := false } → t.channels = s.channels ∧ t.sched = s.sched ∧ t.link = s.link))

/-- ISOLATE_CHANGE to high (R19, R151): ISOLATE joins the cut causes, and where it is the first, every channel enters CUT and the
Scheduler gives up its queue, its claim and its announce record, with the frames it then releases or withdraws. -/
def Obligations.IsolateCutsEveryChannel : Prop :=
  ∀ s : State, s.isLoaded = true → s.pins.isolate = false → s.AdmissionRuled →
    ∃ t, exec (.isolateChange true) s = .next t ∧ t.pins = { s.pins with isolate := true } ∧
      t.cuts = { s.cuts with isolate := true } ∧ t.sense = s.sense ∧ t.modulator = s.modulator ∧
      (s.cuts = { isolate := false, supply := false } → s.CutLeaves t) ∧
      (s.cuts ≠ { isolate := false, supply := false } → t.channels = s.channels ∧ t.sched = s.sched ∧ t.link = s.link)

/-- ISOLATE_CHANGE to low (R19, R20): ISOLATE leaves the cut causes, and where it was the last, every channel leaves CUT for OFF with its
held demand taken again, in ascending channel number, and the class 0 channels that begin raise the announce reservation afresh
(R151). -/
def Obligations.TheEndOfTheCutTakesDemandAgain : Prop :=
  ∀ s : State, s.isLoaded = true → s.pins.isolate = true → s.cuts.isolate = true → (∀ c, (s.ch c).state = .cut) →
    s.sched.queue = [] →
    ∃ t, exec (.isolateChange false) s = .next t ∧ t.pins = { s.pins with isolate := false } ∧
      t.cuts = { s.cuts with isolate := false } ∧ t.sense = s.sense ∧ t.modulator = s.modulator ∧ t.diag = s.diag ∧
      s.KeepsBeyondChannels t ∧
      (s.cuts.supply = true → t.channels = s.channels ∧ t.sched = s.sched ∧ t.link = s.link) ∧
      (s.cuts.supply = false →
        (∀ c, let wants := (s.cfg c).enabled = true ∧ demandOn (s.cfg c).mode (s.ch c).demandLevel = true
          (t.ch c).state = (if wants then (if (s.cfg c).cls = 0 then .inrush else .requested) else .off) ∧
          (t.ch c).inrushRemaining = (if wants ∧ (s.cfg c).cls = 0 then (s.cfg c).window else 0) ∧
          (t.ch c).effectiveDuty = (if wants ∧ (s.cfg c).cls = 0 then (s.ch c).demandDuty else 0) ∧
          (t.ch c).shadowDuty = (t.ch c).effectiveDuty ∧ (t.ch c).demandLevel = (s.ch c).demandLevel ∧
          (t.ch c).demandDuty = (s.ch c).demandDuty ∧ (t.ch c).fault = (s.ch c).fault ∧ (t.ch c).cap = 255) ∧
        t.sched.queue = (allChans.filter fun c => (t.ch c).state = .requested) ∧ t.sched.ordinary = s.sched.ordinary ∧
        t.sched.listen = s.sched.listen ∧ t.sched.deferral = s.sched.deferral ∧
        (s.sched.announceAmount = 0 → t.sched.announceAmount = s.SurgeSum t ∧
          (s.SurgeSum t = 0 → t.link = s.link) ∧
          (s.SurgeSum t < 4095 → ∀ c, (t.ch c).state = .inrush → 0 < (s.cfg c).amount →
            (∀ d, c < d → (t.ch d).state ≠ .inrush) → t.sched.announceHold = s.SurgeSpan t ∧
            t.link = s.link.handOver (.reserve .announce 0 c (s.SurgeSum t) (s.SurgeSpan t)))))

/-! ### Sending -/

/-- LINE_IDLE (R79, R81): once the bits read end in 11 recessive ones and hold no start, the line is idle, and the occupied slot that
stands first in the service order is marked as on the line; while MUTED none is (R92). A dominant level before the tenth recessive
bit only begins the count again. Bits that leave the line short of idle change nothing (log entry 1), and one dominant sample is a
dominant level, the model's reading (log entry 35). -/
def Obligations.AnIdleOffersTheFirstSlot : Prop :=
  ∀ (s : State) (bits : List (Bool × Bool)), s.isLoaded = true → s.link.onLine = none →
    let order := [Slot.mark, .reserve .announce, .reserve .ordinary, .release .announce, .release .ordinary, .signal,
      .status, .report]
    (IdleRead 11 bits → ∃ r, exec (.lineIdle bits) s = .next { s with link := { s.link with onLine := r } } ∧
      (s.link.muted = true → r = none) ∧
      (s.link.muted = false → ∀ x, r = some x ↔
        s.link.slots.get x ≠ none ∧ ∀ y, order.idxOf y < order.idxOf x → s.link.slots.get y = none)) ∧
    (¬IdleRead 11 bits → exec (.lineIdle bits) s = .next s)

/-- CONTENTION_LOST at an arbitration bit that the own frame sends recessive (R82): the attempt ends, the frame stays in its slot but
for what was held aside or withdrawn (R88, R89) and the pairing of R90, and no count moves. -/
def Obligations.LostContentionKeepsTheFrame : Prop :=
  ∀ (s : State) (x : Slot) (f : Frame) (bit : Nat), s.isLoaded = true → s.link.onLine = some x →
    s.link.slots.get x = some f → 2 ≤ bit → bit ≤ 8 →
    (f.kind.val * 16 + s.own.val) / 2 ^ (8 - bit) % 2 = 1 →
    ∃ l, exec (.contentionLost bit) s = .next { s with link := l } ∧ s.link.AttemptLeaves l x ∧
      l = { s.link with slots := l.slots, onLine := none, heldAside := none, lineWithdrawn := false }

/-- ABORT at a bit outside the arbitration field (R83, R91): the attempt ends as lost contention does and the transmit error count rises
by 8; at 128 or more the link is MUTED at once, its slots emptied, the own MARK, the ordinary record and the report given up, and
the station alone (R92, R96, R148). -/
def Obligations.AnAbortCountsAndMutes : Prop :=
  ∀ (s : State) (x : Slot) (f : Frame) (bit : Nat), s.isLoaded = true → s.link.onLine = some x →
    s.link.slots.get x = some f → bit = 1 ∨ 9 ≤ bit ∧ bit ≤ 35 + 8 * f.payload.length →
    (s.link.txErr + 8 < 128 → ∃ l, exec (.abort bit) s = .next { s with link := l } ∧ s.link.AttemptLeaves l x ∧
      l = { s.link with slots := l.slots, onLine := none, heldAside := none, lineWithdrawn := false
                        txErr := s.link.txErr + 8 }) ∧
    (128 ≤ s.link.txErr + 8 → exec (.abort bit) s =
      .next { s with
        link := { s.link with
          slots := { mark := none, reserveAnnounce := none, reserveOrdinary := none, releaseAnnounce := none
                     releaseOrdinary := none, signal := none, status := none, report := none }
          onLine := none, heldAside := none, lineWithdrawn := false, txErr := s.link.txErr + 8, muted := true, good := 0 }
        timer := { s.timer with markPending := false }
        sched := { s.sched with ordinary := none }
        diag := { s.diag with reportPending := false }
        budget := { s.budget with inUse := .alone } })

/-- Hand-over of a frame: it fills its slot, replacing what waits there, or is held aside while its slot is on the line (R88). Of a
RESERVE or RELEASE while the other of its type waits (R90): the RELEASE removes the RESERVE and is placed only if an entry stands;
the RESERVE takes the RELEASE's place. While MUTED every hand-over is refused (R92). A RELEASE that is held aside behind one on the
line counts as one that waits, so that the zone never hears it after the RESERVE: the model's reading (log entry 34). -/
def Obligations.ReserveAndReleaseArePaired : Prop :=
  ∀ (l : LinkController) (ty : ResType) (cls : Cls) (c : Chan) (amount hold : Nat),
    let reserve := Frame.reserve ty cls c amount hold
    let release := Frame.release ty c
    (∀ f, l.muted = true → l.handOver f = l) ∧
    (∀ f, l.muted = false →
      (∀ ty, f.slot = .reserve ty → l.slots.get (.release ty) = none ∧ l.onLine ≠ some (.release ty)) →
      (∀ ty, f.slot = .release ty → l.slots.get (.reserve ty) = none) →
      l.handOver f = if l.onLine = some f.slot then { l with heldAside := some f } else l.setSlot f.slot (some f)) ∧
    (l.muted = false → l.slots.get (.reserve ty) ≠ none → l.onLine ≠ some (.reserve ty) →
      l.onLine ≠ some (.release ty) →
      l.handOver release =
        if l.standing ty = true then (l.setSlot (.reserve ty) none).setSlot (.release ty) (some release)
        else l.setSlot (.reserve ty) none) ∧
    (l.muted = false → l.slots.get (.release ty) ≠ none → l.onLine ≠ some (.reserve ty) →
      l.onLine ≠ some (.release ty) →
      l.handOver reserve = (l.setSlot (.release ty) none).setSlot (.reserve ty) (some reserve)) ∧
    (l.muted = false → l.onLine = some (.reserve ty) →
      l.handOver release = l.setSlot (.release ty) (some release) ∧
      l.handOver reserve = { l.setSlot (.release ty) none with heldAside := some reserve }) ∧
    (l.muted = false → l.onLine = some (.release ty) →
      l.handOver reserve = ({ l with heldAside := none } : LinkController).setSlot (.reserve ty) (some reserve) ∧
      (l.slots.get (.reserve ty) = none → l.handOver release = { l with heldAside := some release }) ∧
      (l.slots.get (.reserve ty) ≠ none → l.handOver release =
        if l.standing ty = true then { l.setSlot (.reserve ty) none with heldAside := some release }
        else l.setSlot (.reserve ty) none))

/-- TRANSMIT_COMPLETION (R84): the count falls by 1, the slot takes what was held aside or is empty, and the completion is reported by
kind: MARK (R33), RESERVE (R90, R107, R144), RELEASE (R90, R107), SIGNAL and STATUS to none, REPORT (R156). -/
def Obligations.ACompletionIsReportedByKind : Prop :=
  ∀ (s : State) (x : Slot) (f : Frame), s.isLoaded = true → s.SlotsRuled → s.link.onLine = some x →
    s.link.slots.get x = some f →
    let l := { s.link with
      slots := s.link.slots.set x s.link.heldAside, onLine := none, heldAside := none, lineWithdrawn := false
      txErr := s.link.txErr - 1 }
    match f with
    | .mark _ => exec .transmitCompletion s =
        .next { s with link := l, timer := { s.timer with markPending := s.link.heldAside.isSome } }
    | .signal _ => exec .transmitCompletion s = .next { s with link := l }
    | .status _ => exec .transmitCompletion s = .next { s with link := l }
    | .report _ _ _ => exec .transmitCompletion s = .next { s with link := l, diag := { s.diag with reportPending := false } }
    | .release ty _ => exec .transmitCompletion s =
        .next { s with
          link := l.setStanding ty false
          reservations := s.reservations.filter fun r => !(r.station = s.own && r.ty = ty) }
    | .reserve ty cls c amount hold => ∃ t, exec .transmitCompletion s = .next t ∧
        t.reservations = (s.reservations.filter fun r => !(r.station = s.own && r.ty = ty)) ++
          [{ station := s.own, ty := ty, cls := cls, chan := c, amount := amount, hold := hold }] ∧
        t = { s with reservations := t.reservations, link := t.link, sched := t.sched } ∧
        (ty = .announce → t.sched = s.sched ∧ t.link = l.setStanding .announce true) ∧
        (ty = .ordinary → ∀ y, s.sched.ordinary = some y → t.link = l.setStanding .ordinary true ∧
          t.sched = { s.sched with
            ordinary := some (if y.phase = .pendingTx ∧ y.chan = c then { y with phase := .settling } else y) }) ∧
        (ty = .ordinary → s.sched.ordinary = none → t.sched = s.sched ∧
          t.link = (l.setStanding .ordinary true).handOver (.release .ordinary c) ∧
          (s.link.muted = false → t.link.slots.releaseOrdinary = some (.release .ordinary c)))

/-! ### Receiving -/

/-- The frame on the line (R80, R170): 35 + 8L bits, the arbitration field of the kind and the station, the length, the payload, the
check over them and seven recessive end bits. A receiver takes a run of samples for frame `f` exactly where both samples of every
bit of the frame read as sent (R85). -/
def Obligations.AReceiverReadsExactlyTheFrameSent : Prop :=
  ∀ (f : RawFrame) (samples : List (Bool × Bool)),
    (f.bits.length = 35 + 8 * f.payload.length) ∧
    (verdict samples = .valid f ↔
      f.payload.length ≤ 8 ∧ ∀ (i : Nat) (h : i < f.bits.length), bitSamples samples i = (f.bits[i], f.bits[i]))

/-- Of two frames that begin together, the one whose arbitration field is lower sends dominant at the first bit where they differ, and
fields agree for the same kind and station alone (R80, R82, R170). -/
def Obligations.TheLowerArbitrationFieldWins : Prop :=
  ∀ f g : RawFrame,
    (f.arbitration = g.arbitration ↔ f.kind = g.kind ∧ f.station = g.station) ∧
    (f.kind < g.kind → f.arbitration < g.arbitration) ∧
    (f.kind = g.kind → f.station < g.station → f.arbitration < g.arbitration) ∧
    (f.arbitration < g.arbitration → ∃ i, 1 ≤ i ∧ i ≤ 7 ∧ f.bits[i]? = some false ∧ g.bits[i]? = some true ∧
      ∀ j < i, f.bits[j]? = g.bits[j]?)

/-- What a receiver reads from a payload is what its sender composed (R171): RESERVE, RELEASE, STATUS, SIGNAL and MARK, with every field
at every value it can hold; the flags and the lowest new fault of a STATUS and the item and argument of a REPORT stand in their
bytes; and the payload has the length of its kind (R80). The frame goes out under the code of its kind, and a valid frame from another
station comes as the command of its kind and, for a QUERY, its item, or as the discard of another length (R86, R87, R155). -/
def Obligations.PayloadsReadAsTheyWereComposed : Prop :=
  ∀ (sender : Stn) (ty : ResType) (cls : Cls) (c : Chan) (amount hold number : Nat) (st : StatusContent) (d : DinLevels),
    amount ≤ 4095 → 1 ≤ hold → hold ≤ 16 → number ≤ 255 → (∀ k, st.draws.get k ≤ 4095) →
    let bit (b : Bool) : Nat := if b = true then 1 else 0
    reserveOf sender (Frame.reserve ty cls c amount hold).payload =
      { station := sender, ty := ty, cls := cls, chan := c, amount := amount, hold := hold } ∧
    (Frame.reserve ty cls c amount hold).payload.length = 3 ∧
    releaseTypeOf (Frame.release ty c).payload = ty ∧ (Frame.release ty c).payload.length = 1 ∧
    payloadByte (Frame.release ty c).payload 0 % 16 = c.val ∧
    statusDrawsOf (Frame.status st).payload = st.draws ∧ (Frame.status st).payload.length = 8 ∧
    payloadByte (Frame.status st).payload 6 =
      bit st.overload * 128 + bit st.limp * 64 + bit st.isolated * 32 + bit st.settling * 16 + bit st.lowSupply * 8 ∧
    payloadByte (Frame.status st).payload 7 = (match st.lowestNew with | some x => x.val | none => 255) ∧
    signalPairs (Frame.signal d).payload =
      [(60, if d.din0 = true then 255 else 0), (61, if d.din1 = true then 255 else 0),
       (62, if d.din2 = true then 255 else 0), (63, if d.din3 = true then 255 else 0)] ∧
    payloadByte (Frame.mark number).payload 0 = number ∧ (Frame.mark number).payload.length = 1 ∧
    (∀ (item : Nat) (arg : Byte) (content : List Byte), item ≤ 15 →
      (Frame.report item arg content).payload = BitVec.ofNat 8 item :: arg :: content) ∧
    (∀ f : Frame, (f.raw sender).station = sender ∧ (f.raw sender).payload = f.payload ∧
      (f.raw sender).kind.val = (match f with
        | .mark _ => 0 | .reserve .. => 1 | .release .. => 2 | .signal _ => 3 | .status _ => 4 | .report .. => 6)) ∧
    (∀ (own : Stn) (f : RawFrame) (inp : Inputs) (ord : EpochOrder),
      let i := receivedCommand own f inp ord
      let p := f.payload
      let fits (kind : FixedKind) (n : Nat) (command : Instr) : Prop :=
        i = if p.length = n then command else .payloadLengthDiscard kind f.station p
      (f.kind = 0 → fits .mark 1 (.markReceived f.station p inp ord)) ∧
      (f.kind = 1 → fits .reserve 3 (.reserveReceived f.station p)) ∧
      (f.kind = 2 → fits .release 1 (.releaseReceived f.station p)) ∧
      (f.kind = 3 → i = .signalReceived f.station p) ∧ (f.kind = 4 → fits .status 8 (.statusReceived f.station p)) ∧
      (f.kind = 5 → p.length ≠ 2 → i = .payloadLengthDiscard .query f.station p) ∧
      (f.kind = 5 → ∀ b0 b1, p = [b0, b1] →
        let item := b0.toNat % 16
        let ignored := b0.toNat / 16 ≠ own.val ∨ 7 ≤ item ∨
          (item = 1 ∨ item = 2 ∨ item = 4 ∨ item = 6) ∧ 16 ≤ b1.toNat
        (ignored → i = .queryIgnored f.station b0 b1) ∧
        (¬ignored →
          (item = 0 → i = .summary f.station own b1) ∧ (item = 1 → i = .channel f.station own b1) ∧
          (item = 2 → i = .peer f.station own b1) ∧ (item = 3 → i = .link f.station own b1) ∧
          (item = 4 → i = .clear f.station own b1) ∧ (item = 5 → i = .clearAll f.station own b1) ∧
          (item = 6 → i = .record f.station own b1))) ∧
      (f.kind = 6 → i = .reportFrameReceived f.station p) ∧ (f.kind = 7 → i = .kind7FrameReceived f.station p))

/-- A reception begins with a dominant level after 10 recessive bits (R79); a dominant level read before then is no start, and nothing
is counted. A reception that is no valid frame comes as DISCARDED_RECEPTION, which is counted, and breaks the run of good frames while
MUTED (R85, R93); a valid frame comes as the command of its kind (R87), and is no discard (log entry 1). One dominant sample is a
dominant level, the model's reading (log entry 35). That a discarded reception is counted while an own frame is on the line, too, where
the station is no receiver (R81), is the model's choice (log entry 27). -/
def Obligations.ADiscardedReceptionIsCounted : Prop :=
  ∀ (s : State) (before samples : List (Bool × Bool)) (inp : Inputs) (ord : EpochOrder), s.isLoaded = true →
    let starts := IdleRead 10 before ∧ bitSamples samples 0 ≠ (true, true)
    (starts → (∀ f, verdict samples ≠ .valid f) →
      lineCommand s.own before samples inp ord = some (.discardedReception samples before) ∧
      exec (.discardedReception samples before) s =
        .next { s with link := { s.link with
          rxErr := min 255 (s.link.rxErr + 1), good := if s.link.muted = true then 0 else s.link.good } }) ∧
    (starts → ∀ f, verdict samples = .valid f →
      lineCommand s.own before samples inp ord = some (receivedCommand s.own f inp ord) ∧
      exec (.discardedReception samples before) s = .next s) ∧
    (¬starts → lineCommand s.own before samples inp ord = none ∧
      exec (.discardedReception samples before) s = .next s)

/-- REPORT_FRAME_RECEIVED and KIND_7_FRAME_RECEIVED count as a valid frame from another station and are not delivered (R86): the silence
count returns to 0, ISOLATED is left (R95), and while MUTED the good frames are counted, the hundredth ending MUTED (R93, R143,
R148). That a frame is taken while an own frame is on the line, too (R81), is the model's choice (log entry 27). -/
def Obligations.AValidFrameIsCounted : Prop :=
  ∀ (s : State) (sender : Stn) (payload : List Byte), s.isLoaded = true → s.MutedRuled →
    let leaves := s.link.muted = true ∧ 99 ≤ s.link.good
    let still := s.link.muted = true ∧ s.link.good < 99
    ∃ slots, exec (.reportFrameReceived sender payload) s = exec (.kind7FrameReceived sender payload) s ∧
      exec (.kind7FrameReceived sender payload) s =
        .next { s with
          link := { s.link with
            slots := slots, silence := 0, isolated := false, muted := still
            txErr := if leaves then 0 else s.link.txErr
            good := if leaves then 0 else if still then s.link.good + 1 else s.link.good }
          sched := { s.sched with listen := if s.link.isolated = true ∨ leaves then 2 else s.sched.listen }
          budget := { s.budget with
            inUse := if s.link.isolated = true ∨ leaves then
                (if still ∨ s.loader.runMode = .limp then .alone else .zone) else s.budget.inUse } } ∧
      (¬(leaves ∧ 0 < s.sched.announceAmount) → slots = s.link.slots) ∧
      (leaves → 0 < s.sched.announceAmount → ∀ c,
        (s.cfg c).cls = 0 → (s.ch c).state = .inrush → 0 < (s.cfg c).amount →
        (∀ d, d < c → ¬((s.cfg d).cls = 0 ∧ (s.ch d).state = .inrush ∧ 0 < (s.cfg d).amount)) →
        slots = { s.link.slots with
          reserveAnnounce := some (.reserve .announce 0 c s.sched.announceAmount s.sched.announceHold) })

/-- RESERVE_RECEIVED, RELEASE_RECEIVED and STATUS_RECEIVED from another station, with any bytes of the right number (R100, R105, R106,
layouts R171): over what a valid frame counts, the Peer Unit alone changes. -/
def Obligations.PeerFramesAreTaken : Prop :=
  ∀ (s : State) (sender : Stn) (r : Reservation) (b0 b1 b2 b3 b4 b5 b6 b7 : Byte), s.isLoaded = true → sender ≠ s.own →
    r.station = sender → r.ty = (if 128 ≤ b0.toNat then .announce else .ordinary) → r.cls.val = b0.toNat / 32 % 4 →
    r.chan.val = b0.toNat % 16 → r.amount = b1.toNat % 16 * 256 + b2.toNat → r.hold = b1.toNat / 16 + 1 →
    ∃ u, exec (.kind7FrameReceived sender []) s = .next u ∧
    exec (.reserveReceived sender [b0, b1, b2]) s =
      .next { u with reservations :=
        (s.reservations.filter fun q => !(q.station = sender && q.ty = r.ty)) ++ [r] } ∧
    exec (.releaseReceived sender [b0]) s =
      .next { u with reservations := s.reservations.filter fun q => !(q.station = sender && q.ty = r.ty) } ∧
    exec (.statusReceived sender [b0, b1, b2, b3, b4, b5, b6, b7]) s =
      .next (u.setPeer sender
        { presence := .present, age := 0
          draws := some
            { d0 := b0.toNat * 16 + b1.toNat / 16, d1 := b1.toNat % 16 * 256 + b2.toNat
              d2 := b3.toNat * 16 + b4.toNat / 16, d3 := b4.toNat % 16 * 256 + b5.toNat } })

/-- SIGNAL_RECEIVED (R67): a payload of 1 to 4 whole pairs is taken pair by pair, an entry keeping the last value written for its key,
FRESH at age 0, and the enabled channels bound to a written key are resolved (R73); any other payload is discarded whole, over
what a valid frame counts. -/
def Obligations.ASignalFrameIsTaken : Prop :=
  ∀ (s : State) (sender : Stn) (payload : List Byte), s.isLoaded = true →
    ∃ u, exec (.kind7FrameReceived sender []) s = .next u ∧
    let whole := payload.length = 2 ∨ payload.length = 4 ∨ payload.length = 6 ∨ payload.length = 8
    let written : Nat → Option Nat := fun sig =>
      (((List.range (payload.length / 2)).filter fun i => (payload.getD (2 * i) 0).toNat = sig).getLast?).map
        fun i => (payload.getD (2 * i + 1) 0).toNat
    (¬whole → exec (.signalReceived sender payload) s = .next u) ∧
    (whole → ∃ t, exec (.signalReceived sender payload) s = .next t ∧
      t.signal = { s.signal with
        store := s.signal.store.map fun e =>
          match written e.signal.val with
          | some v => if e.source = sender then { e with value := v, age := 0, state := .fresh } else e
          | none => e } ∧
      s.Resolves t (fun c => ∃ b ∈ s.signal.bindings, b.chan = c ∧ b.source = sender ∧ written b.signal.val ≠ none ∧
        ∃ e ∈ s.signal.store, e.source = sender ∧ e.signal = b.signal) ∧
      t.timer = s.timer ∧ t.sense = s.sense ∧ t.peers = s.peers ∧ t.reservations = s.reservations ∧ t.budget = u.budget ∧
      t.diag = s.diag ∧ t.cuts = s.cuts ∧ t.modulator = s.modulator ∧ t.loader = s.loader ∧ t.sched.listen = u.sched.listen)

/-- Frames turned away after they have counted as valid (R86): PAYLOAD_LENGTH_DISCARD is a receive error; a MARK, RESERVE, RELEASE or
STATUS that bears the own number is a clash, counted and shown at the FAULT pin (R97, R160). That a frame with both faults counts the
receive error alone is the model's choice (log entry 31). -/
def Obligations.FramesTurnedAwayAreCounted : Prop :=
  ∀ (s : State) (sender : Stn) (payload : List Byte) (inp : Inputs) (ord : EpochOrder), s.isLoaded = true →
    ∃ u, exec (.kind7FrameReceived sender []) s = .next u ∧
    (∀ kind : FixedKind,
      payload.length ≠ (match kind with | .mark => 1 | .reserve => 3 | .release => 1 | .status => 8 | .query => 2) →
      exec (.payloadLengthDiscard kind sender payload) s =
        .next { u with link := { u.link with rxErr := min 255 (u.link.rxErr + 1) } }) ∧
    (sender = s.own →
      let clashed : Host.Outcome State Fault Refusal :=
        .next { u with
          link := { u.link with clash := min 255 (u.link.clash + 1) }
          diag := { u.diag with clashFlag := true, faultAsserted := true } }
      (payload.length = 1 → exec (.markReceived sender payload inp ord) s = clashed ∧
        exec (.releaseReceived sender payload) s = clashed) ∧
      (payload.length = 3 → exec (.reserveReceived sender payload) s = clashed) ∧
      (payload.length = 8 → exec (.statusReceived sender payload) s = clashed))

/-! ### Diagnostics -/

/-- SUMMARY, CHANNEL, PEER, LINK and RECORD addressed to the station with no report pending (R155–R158, layouts R171): one REPORT with the
item, the argument and the content read at that moment goes to its slot and is pending; while MUTED the answer is lost (R156). That
the content is read once the QUERY has ended ISOLATED is the model's reading (log entry 33). -/
def Obligations.QueriesAreAnswered : Prop :=
  ∀ (s : State) (sender : Stn) (arg : Byte) (n : Fin 16), s.isLoaded = true → s.SlotsRuled → s.ReportRuled →
    s.diag.reportPending = false → n.val = arg.toNat % 16 → ∃ u, exec (.kind7FrameReceived sender []) s = .next u ∧
    let answered (item : Nat) (content : List Nat) : Host.Outcome State Fault Refusal :=
      if u.link.muted = true then .next u
      else .next { u with
        link := { u.link with slots := { u.link.slots with
          report := some (.report item arg (content.map (BitVec.ofNat 8))) } }
        diag := { u.diag with reportPending := true } }
    let link := (if u.link.muted = true then 2 else 0) + (if u.link.isolated = true then 1 else 0)
    let bit (b : Bool) : Nat := if b = true then 1 else 0
    let x := u.ch n
    let state := match x.state with
      | .off => 0 | .requested => 1 | .inrush => 2 | .on => 3 | .shed => 4 | .tripped => 5 | .latched => 6 | .cut => 7
    let kind := match x.fault.kind with | .none => 0 | .short => 1 | .overcurrent => 2 | .stall => 3 | .thermal => 4
    let e := u.peer n
    let ordinary := (u.reservations.filter fun r => r.hold ≠ 0).find? fun r => r.station = n && r.ty = .ordinary
    let announce := (u.reservations.filter fun r => r.hold ≠ 0).find? fun r => r.station = n && r.ty = .announce
    let sum := if e.presence = .absent then 0 else match e.draws with | some d => d.d0 + d.d1 + d.d2 + d.d3 | none => 0
    let figures := match u.budget.inUse with | .zone => u.budget.zone | .alone => u.budget.alone
    exec (.summary sender s.own arg) s = answered 0
      [(if u.loader.runMode = .limp then 1 else if 0 < u.sched.listen then 2 else 0) * 64 + link * 16 +
          (match u.sense.supply with | .normal => 0 | .low => 1 | .cut => 2) * 4 + bit u.budget.overload * 2 +
          bit u.diag.clashFlag,
        (allChans.filter fun c => (u.ch c).state = .on).length, (allChans.filter fun c => (u.ch c).fault.isNew).length,
        figures.steady / 256, figures.steady, 0] ∧
    exec (.link sender s.own arg) s = answered 3
      [u.link.txErr, u.link.rxErr, link, u.diag.overruns, u.link.clash, 0] ∧
    (arg.toNat ≤ 15 →
      exec (.channel sender s.own arg) s = answered 1
        [state * 32 + bit x.openFlag * 16 + bit x.fault.isNew * 8 + kind, x.demandDuty,
          x.cap, (x.epochDraw * 128 + x.fault.attempts * 16) / 256, x.epochDraw * 128 + x.fault.attempts * 16,
          x.fault.epoch] ∧
      exec (.peer sender s.own arg) s = answered 2
        [(match e.presence with | .absent => 0 | .present => 1 | .stale => 2) * 64 + bit ordinary.isSome * 32 +
            bit announce.isSome * 16 + (match ordinary with | some r => r.cls.val | none => 0) * 4 +
            (match announce with | some r => r.cls.val | none => 0),
          e.age, sum / 256, sum,
          (match ordinary with | some r => r.chan.val | none => 0) * 16 +
            (match announce with | some r => r.chan.val | none => 0),
          (match ordinary with | some r => r.hold - 1 | none => 0) * 16 +
            (match announce with | some r => r.hold - 1 | none => 0)] ∧
      exec (.record sender s.own arg) s = answered 6
        [kind * 32 + bit x.fault.isNew * 16 + bit x.fault.persistNoted * 8 + x.fault.attempts,
          x.fault.current * 64 / 256, x.fault.current * 64, x.fault.epoch, x.fault.step, 0])

/-- A QUERY not addressed to the station, of items 7–15, or naming a channel or peer above 15 is ignored (QUERY_IGNORED, R155); one for the
station while a report is pending is dropped and counted, and a CLEAR so dropped clears nothing (R155). -/
def Obligations.QueriesAreIgnoredOrDropped : Prop :=
  ∀ (s : State) (sender target : Stn) (b0 arg : Byte), s.isLoaded = true →
    ∃ u, exec (.kind7FrameReceived sender []) s = .next u ∧
    (b0.toNat / 16 ≠ s.own.val ∨ 7 ≤ b0.toNat % 16 ∨
        (b0.toNat % 16 = 1 ∨ b0.toNat % 16 = 2 ∨ b0.toNat % 16 = 4 ∨ b0.toNat % 16 = 6) ∧ 16 ≤ arg.toNat →
      exec (.queryIgnored sender b0 arg) s = .next u) ∧
    (u.diag.reportPending = true →
      let dropped : Host.Outcome State Fault Refusal :=
        .next { u with diag := { u.diag with overruns := min 255 (u.diag.overruns + 1) } }
      exec (.summary sender s.own arg) s = dropped ∧ exec (.link sender s.own arg) s = dropped ∧
      exec (.clearAll sender s.own arg) s = dropped ∧
      (arg.toNat ≤ 15 → exec (.channel sender s.own arg) s = dropped ∧ exec (.peer sender s.own arg) s = dropped ∧
        exec (.clear sender s.own arg) s = dropped ∧ exec (.record sender s.own arg) s = dropped)) ∧
    (target ≠ s.own →
      exec (.summary sender target arg) s = .next u ∧ exec (.channel sender target arg) s = .next u ∧
      exec (.peer sender target arg) s = .next u ∧ exec (.link sender target arg) s = .next u ∧
      exec (.clear sender target arg) s = .next u ∧ exec (.clearAll sender target arg) s = .next u ∧
      exec (.record sender target arg) s = .next u)

/-- CLEAR c (R55, R159): the record's new flag, attempt count and PERSIST-noted flag are cleared and the rest of it kept; a LATCHED
channel leaves for OFF and takes its held demand again (R15); the FAULT pin follows (R160); and the CHANNEL content after the clear
is the answer. No other channel moves. -/
def Obligations.AClearFreesALatchedChannel : Prop :=
  ∀ (s : State) (sender : Stn) (arg : Byte) (c : Chan), s.isLoaded = true → s.SlotsRuled → s.ReportRuled →
    s.diag.reportPending = false → arg.toNat = c.val → ∃ u, exec (.kind7FrameReceived sender []) s = .next u ∧
    let x := u.ch c
    let cleared := { x.fault with attempts := 0, persistNoted := false, isNew := false }
    let wants := (u.cfg c).enabled = true ∧ demandOn (u.cfg c).mode x.demandLevel = true
    ∃ t, exec (.clear sender s.own arg) s = .next t ∧ (∀ d, d ≠ c → t.ch d = u.ch d) ∧
      (x.state ≠ .latched → t.ch c = { x with fault := cleared } ∧ t.sched = u.sched) ∧
      (x.state = .latched →
        (t.ch c).state = (if wants then (if (u.cfg c).cls = 0 then .inrush else .requested) else .off) ∧
        (t.ch c).fault = cleared ∧ (t.ch c).demandLevel = x.demandLevel ∧ (t.ch c).demandDuty = x.demandDuty ∧
        (t.ch c).retryTimer = x.retryTimer ∧ t.sched.ordinary = u.sched.ordinary ∧
        t.sched.queue = u.sched.queue ++ (if wants ∧ (u.cfg c).cls ≠ 0 then [c] else [])) ∧
      (t.diag.faultAsserted = true ↔
        (∃ d, (t.ch d).fault.isNew = true) ∨ t.budget.overload = true ∨ t.diag.clashFlag = true) ∧
      t.diag.reportPending = !u.link.muted ∧
      (u.link.muted = false → t.link.slots.report = some (.report 4 arg (t.channelContent c))) ∧
      t.diag.overruns = u.diag.overruns ∧ t.diag.clashFlag = u.diag.clashFlag ∧ t.link.clash = u.link.clash ∧
      t.timer = u.timer ∧ t.sense = u.sense ∧ t.signal = u.signal ∧ t.peers = u.peers ∧
      t.reservations = u.reservations ∧ t.budget = u.budget ∧ t.cuts = u.cuts ∧ t.loader = u.loader

/-- CLEAR ALL (R159): every record is cleared and every LATCHED channel freed, in ascending channel number, then the clash flag and count;
the FAULT pin then shows OVERLOAD alone (R160), and the SUMMARY content after the clear is the answer. -/
def Obligations.AClearAllClearsEveryRecord : Prop :=
  ∀ (s : State) (sender : Stn) (arg : Byte), s.isLoaded = true → s.SlotsRuled → s.ReportRuled →
    s.diag.reportPending = false → ∃ u, exec (.kind7FrameReceived sender []) s = .next u ∧
    let wants (c : Chan) := (u.cfg c).enabled = true ∧ demandOn (u.cfg c).mode (u.ch c).demandLevel = true
    ∃ t, exec (.clearAll sender s.own arg) s = .next t ∧
      (∀ c, (t.ch c).fault = { (u.ch c).fault with attempts := 0, persistNoted := false, isNew := false } ∧
        (t.ch c).state =
          (if (u.ch c).state = .latched then
            (if wants c then (if (u.cfg c).cls = 0 then .inrush else .requested) else .off)
           else (u.ch c).state) ∧
        (t.ch c).demandDuty = (u.ch c).demandDuty ∧ (t.ch c).retryTimer = (u.ch c).retryTimer) ∧
      t.sched.queue = u.sched.queue ++ (allChans.filter fun c =>
        (u.ch c).state = .latched && ((u.cfg c).enabled && (demandOn (u.cfg c).mode (u.ch c).demandLevel &&
          (u.cfg c).cls ≠ 0))) ∧
      t.sched.ordinary = u.sched.ordinary ∧ t.link.clash = 0 ∧ t.diag.clashFlag = false ∧
      t.diag.faultAsserted = u.budget.overload ∧ t.budget = u.budget ∧ t.diag.overruns = u.diag.overruns ∧
      t.diag.reportPending = !u.link.muted ∧
      (u.link.muted = false → t.link.slots.report = some (.report 5 arg t.summaryContent)) ∧
      t.timer = u.timer ∧ t.sense = u.sense ∧ t.signal = u.signal ∧ t.peers = u.peers ∧
      t.reservations = u.reservations ∧ t.cuts = u.cuts ∧ t.loader = u.loader

/-! ### What every step keeps -/

/-- Effective duty, cap, shed reason and inrush remaining obey R3, R4 and R5 at every channel after every step. -/
def Obligations.StepsKeepTheChannelRules : Prop :=
  ∀ s t : State, s.ChannelsRuled → step s = .next t → t.ChannelsRuled

/-- Retry timers (R13, R54), disabled channels (R2) and demand (R6, R7) stay ruled through every step. -/
def Obligations.StepsKeepDemandAndRetryRules : Prop :=
  ∀ s t : State, s.HeldAtReset → s.RetriesRuled → s.DisabledIdle → s.DemandRuled → step s = .next t →
    t.RetriesRuled ∧ t.DisabledIdle ∧ t.DemandRuled

/-- The FAULT pin is asserted exactly while a fault record is new, OVERLOAD is set, or the clash flag is set (R160). -/
def Obligations.StepsKeepTheFaultPinTrue : Prop :=
  ∀ s t : State, s.FaultPinTrue → step s = .next t → t.FaultPinTrue

/-- While a cut cause stands every channel is in CUT, and none otherwise; the causes follow ISOLATE and the supply condition (R19, R20,
R21, R62). -/
def Obligations.StepsKeepTheCutRules : Prop :=
  ∀ s t : State, s.HeldAtReset → s.CutRuled → step s = .next t → t.CutRuled

/-- The queue holds exactly the channels in REQUESTED, each once (R139); the ordinary record names a channel in REQUESTED, and in INRUSH
while HELD (R145: the span before a grant arrives ends within the step that sends it, log entry 32); a class 0 channel is never REQUESTED or SHED (R5);
the announce amount is that of the class 0 channels in INRUSH (R138, R149). -/
def Obligations.StepsKeepTheAdmissionRules : Prop :=
  ∀ s t : State, s.HeldAtReset → s.AdmissionRuled → step s = .next t → t.AdmissionRuled

/-- The transmit slots (R81, R88–R90), report pending (R154, R156) and MUTED (R78, R91, R92) stay ruled through every step. That no
RELEASE is held aside while a RESERVE of its type waits is the model's reading of R90 (log entry 34). -/
def Obligations.StepsKeepTheLinkRules : Prop :=
  ∀ s t : State, s.SlotsRuled → s.ReportRuled → s.MutedRuled → step s = .next t →
    t.SlotsRuled ∧ t.ReportRuled ∧ t.MutedRuled

/-- The Peer Draw Table and the Reservation List stay ruled: draws held exactly in PRESENT and STALE, the own entry at its reset values
(R99), at most one entry for each station and type (R104). -/
def Obligations.StepsKeepThePeerRules : Prop :=
  ∀ s t : State, s.HeldAtReset → s.PeersRuled → s.OnePerClaimant → step s = .next t → t.PeersRuled ∧ t.OnePerClaimant

/-- Until load end every block stands at its reset values (R3, R41, R78, R116, R138, R154, R161), and the counters of the blocks stay
inside their ranges (R3, R23, R30, R41, R53, R65, R78, R99, R116, R138, R154), the windows and retry limits in force in theirs
(R166). Two ranges are the model's, one value wider than the spec's because a wait may be left to its own row (log entry 5): the
publication count is 0–8 where R75 gives 0–7, and a running retry timer 0–255 where R41 gives 1–255. -/
def Obligations.StepsKeepResetValuesAndRanges : Prop :=
  ∀ s t : State, s.HeldAtReset → step s = .next t → t.HeldAtReset ∧ (s.CountersInRange → t.CountersInRange)

/-- From load end to the next RESET the configuration, the bindings and the keys of the Store stand (R1, R64, R65, R161, R162), and
through every step the configuration in force stays in its ranges (R165, R166, R168; before load end the one read is that of LIMP, log
entry 25). -/
def Obligations.TheConfigurationStandsUntilReset : Prop :=
  (∀ (s t : State) (i : Instr), s.isLoaded = true → i ≠ .reset → exec i s = .next t → s.SameConfiguration t) ∧
  ∀ s t : State, s.configuration.InRange → step s = .next t → t.configuration.InRange

/-- A class 1–3 channel that comes to INRUSH in a step is named by the ordinary record, HELD (R9, R145): no other way leads there. -/
def Obligations.OnlyAnAdmittedClaimSwitchesOn : Prop :=
  ∀ (s t : State) (c : Chan), s.HeldAtReset → s.AdmissionRuled → step s = .next t → (t.cfg c).cls ≠ 0 →
    (t.ch c).state = .inrush → (s.ch c).state ≠ .inrush →
    ∃ x, t.sched.ordinary = some x ∧ x.chan = c ∧ x.phase = .held

/-- The state right after reset meets every rule that the statements above say each step keeps. -/
def Obligations.ResetMeetsEveryRule : Prop :=
  State.reset.HeldAtReset ∧ State.reset.ChannelsRuled ∧ State.reset.FaultPinTrue ∧ State.reset.CutRuled ∧
  State.reset.AdmissionRuled ∧ State.reset.SlotsRuled ∧ State.reset.ReportRuled ∧ State.reset.MutedRuled ∧
  State.reset.PeersRuled ∧ State.reset.OnePerClaimant ∧ State.reset.RetriesRuled ∧ State.reset.DisabledIdle ∧
  State.reset.DemandRuled ∧ State.reset.CountersInRange ∧ State.reset.configuration.InRange
end

