-- ==== Sys2Proof/Laws/Bits.lean ====
section
/-! SUPPORT. Bits of bytes, both ways, what a read over the serial port clocks in, and the idle count of the line. -/

namespace Sys2Proof.Machine

@[simp] theorem natBits_length (width v : Nat) : (natBits width v).length = width := by
  induction width generalizing v with
  | zero => rfl
  | succ n ih => simp [natBits, ih]

theorem bitsNat_append_one (bits : List Bool) (b : Bool) : bitsNat (bits ++ [b]) = 2 * bitsNat bits + b.toNat := by
  simp [bitsNat]

/-- The number that the bits of a number spell is that number, modulo the width (R80). -/
theorem bitsNat_natBits (width v : Nat) : bitsNat (natBits width v) = v % 2 ^ width := by
  induction width generalizing v with
  | zero => simp [natBits, bitsNat, Nat.mod_one]
  | succ n ih =>
    have hb : (v % 2 == 1).toNat = v % 2 := by
      rcases Nat.mod_two_eq_zero_or_one v with h | h <;> simp [h]
    rw [natBits, bitsNat_append_one, ih, hb, Nat.pow_succ', Nat.mod_mul]
    omega

@[simp] theorem payloadBits_nil : payloadBits [] = [] := rfl

@[simp] theorem payloadBits_cons (b : Byte) (rest : List Byte) :
    payloadBits (b :: rest) = natBits 8 b.toNat ++ payloadBits rest := by simp [payloadBits]

@[simp] theorem payloadBits_length (payload : List Byte) : (payloadBits payload).length = 8 * payload.length := by
  induction payload with
  | nil => rfl
  | cons b rest ih => simp [ih]; omega

/-- Bytes cut from the bits of a payload are that payload (R80). -/
theorem bitsBytes_payloadBits (payload : List Byte) : bitsBytes payload.length (payloadBits payload) = payload := by
  induction payload with
  | nil => rfl
  | cons b rest ih =>
    have h8 : (natBits 8 b.toNat).length = 8 := natBits_length 8 _
    rw [List.length_cons, bitsBytes, payloadBits_cons, List.take_left' h8, List.drop_left' h8, ih, bitsNat_natBits]
    have hb : b.toNat % 2 ^ 8 = b.toNat := Nat.mod_eq_of_lt b.isLt
    rw [hb, BitVec.ofNat_toNat, BitVec.setWidth_eq]

/-- The bits sampled in a read are those of the bytes it leaves in the buffer (R163). -/
theorem sampled_portCycles (buffer : List Byte) :
    (portCycles buffer).filterMap PortCycle.sampled = payloadBits buffer := by
  have hs : ∀ l : List Bool, (l.map PortCycle.send).filterMap PortCycle.sampled = [] := fun l => by
    induction l with
    | nil => rfl
    | cons b rest ih => simp [PortCycle.send, ih]
  have ht : ∀ l : List Bool, (l.map PortCycle.take).filterMap PortCycle.sampled = l := fun l => by
    induction l with
    | nil => rfl
    | cons b rest ih => simp only [List.map_cons, PortCycle.take, List.filterMap_cons]; exact congrArg _ ih
  rw [portCycles, List.filterMap_append, hs, ht, List.nil_append]

/-- What a read clocks in is what it leaves in the image buffer (R163). -/
theorem clockedIn_portCycles (buffer : List Byte) : clockedIn buffer.length (portCycles buffer) = buffer := by
  rw [clockedIn, sampled_portCycles, bitsBytes_payloadBits]

/-- The idle count over two runs of bits is that of the first, carried on over the second (R79). -/
theorem idleCount_append (n : Nat) (a b : List (Bool × Bool)) :
    idleCount n (a ++ b) = (idleCount n a).bind fun m => idleCount m b := by
  induction a generalizing n with
  | nil => rfl
  | cons x rest ih =>
    rw [List.cons_append, idleCount, idleCount]
    split
    · exact ih _
    · split
      · rfl
      · exact ih _

/-- Recessive bits are counted one by one (R79). -/
theorem idleCount_recessive (n k : Nat) : idleCount n (List.replicate k (true, true)) = some (n + k) := by
  induction k generalizing n with
  | zero => rfl
  | succ k ih =>
    rw [List.replicate_succ, idleCount, if_pos (by rfl), ih]
    congr 1
    omega

/-- The line is idle where no start stands in the bits and they end in at least 11 recessive ones (R79). -/
theorem lineIsIdle_iff (bits : List (Bool × Bool)) : lineIsIdle bits = true ↔ ∃ n, idleCount 0 bits = some n ∧ 11 ≤ n := by
  rw [lineIsIdle]; cases idleCount 0 bits <;> simp

/-- A start is taken where at least 10 recessive bits come before a dominant one (R79). -/
theorem startTaken_iff (before samples : List (Bool × Bool)) :
    startTaken before samples = true ↔
      (∃ n, idleCount 0 before = some n ∧ 10 ≤ n) ∧ recessiveBit (bitSamples samples 0) = false := by
  rw [startTaken]; cases idleCount 0 before <;> simp

/-- A reception is discarded where a start is taken and the samples form no valid frame (R79, R85). -/
theorem discards_iff (before samples : List (Bool × Bool)) :
    discards before samples = true ↔ startTaken before samples = true ∧ ∀ f, verdict samples ≠ .valid f := by
  rw [discards]; cases verdict samples <;> simp

end Sys2Proof.Machine
end

