-- ==== Sys2Proof/Laws/Courses.lean ====
section
/-! SUPPORT. What holds of a budget evaluation whatever comes between its orders, and of an admission whatever comes before its grant
arrives: a relation that the orders and all that comes between them keep, the parts of the evaluation keep; and with nothing between
them each order finds its channel as it was read. -/

namespace Sys2Proof.Machine

/-- A relation on states that runs on and that every order of the Budget Unit keeps (R16–R18). -/
structure OrdersKeep (R : State → State → Prop) : Prop where
  refl : ∀ s, R s s
  trans : ∀ {s t u}, R s t → R t u → R s u
  shed : ∀ c reason s, reason ≠ .none → R s (shed c reason s)
  throttle : ∀ c cap s, cap ≤ 255 → R s (throttle c cap s)
  capRaise : ∀ c n s, R s (capRaise c n s)
  restore : ∀ c s, R s (restore c s)

/-- All that is still to come between the orders keeps a relation. -/
abbrev Course.Safe (R : State → State → Prop) (x : Course) : Prop := ∀ event ∈ x.between, ∀ s, R s (event s)

/-- A part of the evaluation that leads from `x` to `y` keeps a relation, where what comes between keeps it. -/
abbrev Course.Leads (R : State → State → Prop) (x y : Course) : Prop := x.Safe R → R x.now y.now ∧ y.Safe R

/-- All that comes after one another keeps a relation. -/
theorem foldl_events_keep {R : State → State → Prop} (refl : ∀ s, R s s) (trans : ∀ {s t u}, R s t → R t u → R s u)
    {events : List (State → State)} (h : ∀ event ∈ events, ∀ s, R s (event s)) (s : State) :
    R s (events.foldl (fun s event => event s) s) := by
  induction events generalizing s with
  | nil => exact refl s
  | cons event rest ih => exact trans (h event (by simp) s) (ih (fun f hf => h f (List.mem_cons_of_mem _ hf)) (event s))

section
variable {R : State → State → Prop} (h : OrdersKeep R)
include h

theorem Course.Leads.refl (x : Course) : x.Leads R x := fun hs => ⟨h.refl _, hs⟩

theorem Course.Leads.trans {x y z : Course} (hxy : x.Leads R y) (hyz : y.Leads R z) : x.Leads R z := fun hs =>
  ⟨h.trans (hxy hs).1 (hyz (hxy hs).2).1, (hyz (hxy hs).2).2⟩

theorem Course.pass_leads (x : Course) : x.Leads R x.pass := by
  intro hs
  unfold Course.pass
  split
  · exact ⟨h.refl _, hs⟩
  · rename_i event rest e
    exact ⟨hs event (by simp [e]) _, fun f hf => hs f (by simp [e, hf])⟩

theorem Course.finish_keeps {x : Course} (hs : x.Safe R) : R x.now x.finish := foldl_events_keep h.refl h.trans hs x.now

theorem Course.order_leads {act : State → State → State} (ha : ∀ read s, R s (act read s)) (x : Course) :
    x.Leads R (x.order act) := fun hs => by
  have g := Course.Leads.trans h (Course.pass_leads h x) (Course.pass_leads h x.pass) hs
  exact ⟨h.trans g.1 (ha _ _), g.2⟩

theorem Course.orders_leads {act : Chan → State → State → State} (ha : ∀ c read s, R s (act c read s)) (chans : List Chan)
    (x : Course) : x.Leads R (x.orders act chans) := by
  unfold Course.orders
  induction chans generalizing x with
  | nil => exact Course.Leads.refl h x
  | cons c rest ih => exact Course.Leads.trans h (Course.order_leads h (ha c) x) (ih _)

theorem shedForSupplyAmid_leads (x : Course) : x.Leads R (shedForSupplyAmid x) := by
  unfold shedForSupplyAmid
  split
  · exact Course.Leads.trans h (Course.pass_leads h x) (Course.orders_leads h (fun c _ s => h.shed c _ s (by decide)) _ _)
  · exact Course.Leads.refl h x

theorem throttleClass_leads (chans : List Chan) (p r : Nat) (x : Course) : x.Leads R (throttleClass chans p r x) :=
  Course.orders_leads h (fun c _ s => h.throttle c _ s (Nat.min_le_left _ _)) chans x

theorem shedUntil_leads (need : Nat) (chans : List Chan) (sum : Nat) (x : Course) :
    x.Leads R (shedUntil need chans sum x) := by
  induction chans generalizing sum x with
  | nil => exact Course.Leads.refl h x
  | cons c rest ih =>
    unfold shedUntil
    split
    · exact Course.Leads.refl h x
    · exact Course.Leads.trans h (Course.order_leads h (fun _ s => h.shed c _ s (by decide)) x) (ih _ _)

theorem shedClass_leads (pwm dc : List Chan) (p r : Nat) (x : Course) : x.Leads R (shedClass pwm dc p r x) :=
  Course.Leads.trans h (Course.orders_leads h (fun c _ s => h.shed c _ s (by decide)) pwm x) (shedUntil_leads h _ _ _ _)

/-- A cut applied in one class, whatever comes between its orders (R124–R127). -/
theorem applyCutAmid_leads (k : Cls) (r : Nat) (x : Course) : x.Leads R (applyCutAmid k r x) := by
  simp only [applyCutAmid]
  split_ifs
  · exact Course.Leads.refl h x
  · exact Course.Leads.trans h (Course.pass_leads h x) (throttleClass_leads h _ _ _ _)
  · exact Course.Leads.trans h (Course.pass_leads h x) (shedClass_leads h _ _ _ _ _)

theorem applyCuts_leads (cuts : Shares) (x : Course) : x.Leads R (applyCuts cuts x) :=
  Course.Leads.trans h (Course.Leads.trans h (applyCutAmid_leads h _ _ _) (applyCutAmid_leads h _ _ _))
    (applyCutAmid_leads h _ _ _)

theorem cutPart_leads (x : Course) : x.Leads R (cutPart x) := by
  simp only [cutPart]
  split
  · exact applyCuts_leads h _ x
  · exact Course.Leads.refl h x

/-- A restore step, whatever comes between its orders (R127, R130). -/
theorem restoreStepAmid_leads (k : Cls) (x : Course) : x.Leads R (restoreStepAmid k x) := by
  simp only [restoreStepAmid]
  split
  · split
    · exact Course.order_leads h (fun _ s => h.restore _ s) x
    · exact Course.Leads.refl h x
  · exact Course.orders_leads h (fun c _ s => h.capRaise c _ s) _ x

theorem readForRestore_leads (x : Course) : x.Leads R x.readForRestore := by
  unfold Course.readForRestore
  split
  · exact Course.pass_leads h x
  · exact Course.Leads.refl h x

/-- A restore step and the settle count, where writing the count keeps the relation too (R128–R130). -/
theorem restorePart_leads (hb : ∀ s n, R s (settleTo n s)) (x : Course) : x.Leads R (restorePart x) := by
  have still : ∀ (y : Course) n, y.Leads R { y with now := settleTo n y.now } := fun y n hs => ⟨hb _ _, hs⟩
  simp only [restorePart]
  split
  · exact Course.Leads.trans h (Course.Leads.trans h (readForRestore_leads h x) (restoreStepAmid_leads h _ _)) (still _ _)
  · exact Course.Leads.trans h (readForRestore_leads h x) (still _ _)

/-- The whole evaluation, whatever comes between its parts, where its writes to its own figures, to the FAULT pin and to the STATUS
slot keep the relation too (R117, R127). -/
theorem evaluateAmid_keeps (hf : ∀ s, R s (formFigures s)) (hx : ∀ s, R s (shareExcess s)) (hb : ∀ s n, R s (settleTo n s))
    (ho : ∀ s c, R s (s.handOver (.status c))) {between : List (State → State)}
    (hs : ∀ event ∈ between, ∀ s, R s (event s)) (s : State) : R s (evaluateAmid between s) := by
  have still : ∀ y : Course, y.Leads R { y with now := shareExcess y.now } := fun y hy => ⟨hx _, hy⟩
  have g := Course.Leads.trans h (Course.Leads.trans h (Course.Leads.trans h (shedForSupplyAmid_leads h
    { between := between, now := formFigures s }) (still _)) (cutPart_leads h _)) (restorePart_leads h hb _) hs
  exact h.trans (h.trans (h.trans (hf s) g.1) (Course.finish_keeps h g.2)) (ho _ _)

end

/-! ### Nothing between -/

@[simp] theorem Course.pass_quiet (s : State) : Course.pass { between := [], now := s } = { between := [], now := s } := rfl

@[simp] theorem Course.finish_quiet (s : State) : Course.finish { between := [], now := s } = s := rfl

/-- With nothing between, an order finds its channel as it was read. -/
@[simp] theorem Course.order_quiet (act : State → State → State) (s : State) :
    Course.order act { between := [], now := s } = { between := [], now := act s s } := rfl

@[simp] theorem Course.orders_quiet (act : Chan → State → State → State) (chans : List Chan) (s : State) :
    Course.orders act chans { between := [], now := s } =
      { between := [], now := chans.foldl (fun s c => act c s s) s } := by
  unfold Course.orders
  induction chans generalizing s with
  | nil => rfl
  | cons c rest ih => exact ih (act c s s)

/-- Low-supply shedding with nothing between its orders (R121). -/
theorem shedForSupply_eq (s : State) : shedForSupply s =
    if s.sense.supply = .low then (allChans.filter s.shedsForSupply).foldl (fun s c => shed c .supply s) s else s := by
  simp only [shedForSupply, shedForSupplyAmid]
  split <;> simp

/-- A restore step with nothing between its orders (R130). -/
theorem restoreStep_eq (k : Cls) (s : State) : restoreStep k s =
    if (allChans.filter (s.capped k)).isEmpty then
      (match s.restoreChoice k with | some c => restore c s | none => s)
    else (allChans.filter (s.capped k)).foldl (fun s c => capRaise c s.params.restoreStep s) s := by
  simp only [restoreStep, restoreStepAmid]
  split
  · cases s.restoreChoice k <;> rfl
  · simp

theorem shedForSupplyAmid_quiet (s : State) :
    shedForSupplyAmid { between := [], now := s } = { between := [], now := shedForSupply s } := by
  rw [shedForSupply_eq]
  simp only [shedForSupplyAmid]
  split <;> simp

theorem shedUntil_quiet (need : Nat) (chans : List Chan) (sum : Nat) (s : State) :
    (shedUntil need chans sum { between := [], now := s }).between = [] := by
  induction chans generalizing sum s with
  | nil => rfl
  | cons c rest ih =>
    unfold shedUntil
    split
    · rfl
    · exact ih _ _

/-- A cut applied in one class with nothing between its orders (R124–R126). -/
theorem applyCutAmid_quiet (k : Cls) (r : Nat) (s : State) :
    applyCutAmid k r { between := [], now := s } = { between := [], now := applyCut k r s } := by
  have h : (applyCutAmid k r { between := [], now := s }).between = [] := by
    simp only [applyCutAmid]
    split_ifs
    · rfl
    · simp [throttleClass]
    · simp [shedClass, shedUntil_quiet]
  exact congrArg (fun b => Course.mk b (applyCut k r s)) h

theorem restoreStepAmid_quiet (k : Cls) (s : State) :
    restoreStepAmid k { between := [], now := s } = { between := [], now := restoreStep k s } := by
  rw [restoreStep_eq]
  simp only [restoreStepAmid]
  split
  · cases s.restoreChoice k <;> rfl
  · simp

/-- The cuts of the three classes with nothing between their orders (R124). -/
theorem applyCuts_quiet (cuts : Shares) (s : State) :
    applyCuts cuts { between := [], now := s } =
      { between := [], now := applyCut 1 cuts.cut1 (applyCut 2 cuts.cut2 (applyCut 3 cuts.cut3 s)) } := by
  simp only [applyCuts, applyCutAmid_quiet]

theorem cutPart_quiet (s : State) : cutPart { between := [], now := s } =
    { between := []
      now := if s.budget.settle = 0 then
        applyCut 1 s.budget.cut1 (applyCut 2 s.budget.cut2 (applyCut 3 s.budget.cut3 s)) else s } := by
  simp only [cutPart, applyCuts_quiet]
  split <;> rfl

theorem restorePart_quiet (s : State) : restorePart { between := [], now := s } =
    { between := []
      now := match s.restoring with
        | some k => settleTo 2 (restoreStep k s)
        | none => settleTo (settleAfter s.budget.settle s.budget.cutting) s } := by
  have h : Course.readForRestore { between := [], now := s } = { between := [], now := s } := by
    unfold Course.readForRestore
    split <;> rfl
  simp only [restorePart, h]
  cases s.restoring <;> simp only [restoreStepAmid_quiet]

/-- The evaluation with nothing between its parts, part by part (R117). -/
theorem evaluateBudget_eq (s : State) : evaluateBudget s =
    let s1 := shareExcess (shedForSupply (formFigures s))
    let s2 := if s1.budget.settle = 0 then
        applyCut 1 s1.budget.cut1 (applyCut 2 s1.budget.cut2 (applyCut 3 s1.budget.cut3 s1)) else s1
    let s3 := match s2.restoring with
      | some k => settleTo 2 (restoreStep k s2)
      | none => settleTo (settleAfter s2.budget.settle s2.budget.cutting) s2
    s3.handOver (.status s3.statusContent) := by
  simp only [evaluateBudget, evaluateAmid, shedForSupplyAmid_quiet, cutPart_quiet, restorePart_quiet, Course.finish_quiet]

/-! ### The parts taken inside an evaluation -/

theorem insideParts_quiet {o : EpochOrder} (h : o.within = []) : insideParts o = [] := by simp [insideParts, h, onceEach]

theorem spanParts_quiet {o : EpochOrder} (h : o.granting = []) : spanParts o = [] := by
  simp [spanParts, h, onceEach, firstOnly]

/-- Where nothing is named inside the evaluation or before the arrival of a grant, a part is as `runTask` takes it. -/
theorem epochTask_quiet {o : EpochOrder} (h : o.within = []) (g : o.granting = []) (n : Nat) (din : DinLevels) (t : EpochTask)
    (s : State) : epochTask n din o t s = runTask n din t s := by
  cases t <;> simp only [epochTask, insideParts_quiet h, spanParts_quiet g] <;> rfl

theorem outsideParts_quiet {o : EpochOrder} (h : o.within = []) (g : o.granting = []) : outsideParts o = orderParts o := by
  simp [outsideParts, insideParts_quiet h, spanParts_quiet g]

/-- What is taken at one of several moments acts at the channels, and is none of those taken before. -/
theorem onceEach_spec {t : EpochTask} (w : List (List EpochTask)) (taken : List EpochTask) (h : t ∈ (onceEach taken w).flatten) :
    t.atChannels = true ∧ t ∉ taken := by
  induction w generalizing taken with
  | nil => simp [onceEach] at h
  | cons ts rest ih =>
    simp only [onceEach, List.flatten_cons, List.mem_append] at h
    rcases h with h | h
    · simpa using (List.mem_filter.mp h).2
    · exact ⟨(ih _ h).1, fun g => (ih _ h).2 (List.mem_append_left _ g)⟩

/-- What is taken inside the evaluation acts at the channels, and is taken nowhere else (R127). -/
theorem insideParts_spec {o : EpochOrder} {t : EpochTask} (h : t ∈ (insideParts o).flatten) :
    t.atChannels = true ∧ t ∉ o.tasks ∧ t ∉ outsideParts o := by
  refine ⟨(onceEach_spec _ _ h).1, (onceEach_spec _ _ h).2, fun g => ?_⟩
  have g := (List.mem_filter.mp g).2
  rw [List.contains_iff_mem.mpr (List.mem_append_left _ h)] at g
  exact nomatch g

/-- What is taken before the arrival of a grant acts at the channels, and is taken nowhere else (R9, R145). -/
theorem spanParts_spec {o : EpochOrder} {t : EpochTask} (h : t ∈ spanParts o) :
    t.atChannels = true ∧ t ∉ o.tasks ∧ t ∉ (insideParts o).flatten ∧ t ∉ outsideParts o := by
  obtain ⟨hc, ht⟩ := onceEach_spec _ _ h
  simp only [List.mem_append, not_or] at ht
  refine ⟨hc, ht.1, ht.2, fun g => ?_⟩
  have g := (List.mem_filter.mp g).2
  rw [List.contains_iff_mem.mpr (List.mem_append_right _ h)] at g
  exact nomatch g

/-! ### What comes between a grant and its arrival -/

/-- A relation on states that runs on and that the steps of the admission decision keep (R145, R146). -/
structure AdmissionKeeps (R : State → State → Prop) : Prop where
  refl : ∀ s, R s s
  trans : ∀ {s t u}, R s t → R t u → R s u
  hold : ∀ x s, R s (holdClaim x s)
  grant : ∀ c s, R s (grant c s)
  refuse : ∀ x s, R s (refuse x s)

section
variable {R : State → State → Prop} (h : AdmissionKeeps R)
include h

theorem grantAfter_keeps (c : Chan) {events : List (State → State)} (he : ∀ event ∈ events, ∀ s, R s (event s)) (s : State) :
    R s (grantAfter c events s) := by
  induction events generalizing s with
  | nil => exact h.grant c s
  | cons event rest ih =>
    have hr : ∀ f ∈ rest, ∀ s, R s (f s) := fun f hf => he f (List.mem_cons_of_mem _ hf)
    refine h.trans (he event (by simp) s) ?_
    simp only [grantAfter]
    split
    · exact ih hr _
    · exact h.trans (h.grant c _) (foldl_events_keep h.refl h.trans hr _)

/-- The admission decision, whatever comes between a grant and its arrival (R9, R145, R146). -/
theorem decideAdmissionAmid_keeps {events : List (State → State)} (he : ∀ event ∈ events, ∀ s, R s (event s)) (s : State) :
    R s (decideAdmissionAmid events s) := by
  have after := foldl_events_keep h.refl h.trans he
  simp only [decideAdmissionAmid]
  split
  · split_ifs
    · exact h.trans (h.hold _ _) (grantAfter_keeps h _ he _)
    · exact h.trans (h.refuse _ _) (after _)
    · exact after s
  · exact after s

end

/-- With nothing between, a grant meets its channel as the record is HELD (R145). -/
theorem decideAdmission_eq (s : State) : decideAdmission s =
    match s.sched.ordinary with
    | some x =>
      if x.phase = .settling then (if s.admits x then grant x.chan (holdClaim x s) else refuse x s) else s
    | none => s := rfl

/-- A grant whose channel leaves REQUESTED before it arrives is ignored (R9, R145). -/
theorem grantAfter_left {c : Chan} {event : State → State} {s : State} (h : ((event s).ch c).state ≠ .requested) :
    grantAfter c [event] s = event s := by
  simp [grantAfter, grant, h]

/-- A grant is acted on where what comes before its arrival leaves the channel in REQUESTED (R9). -/
theorem grantAfter_waits {c : Chan} {event : State → State} {s : State} (h : ((event s).ch c).state = .requested) :
    grantAfter c [event] s = enter c .inrush .none (event s) := by
  simp [grantAfter, grant, h]

end Sys2Proof.Machine
end

