-- ==== Sys2Proof/Laws/State.lean ====
section
/-! SUPPORT. What each named update leaves in each field of the state, so that no proof unfolds a record update. -/

namespace Sys2Proof.Machine

/-- `ch` reads the channels alone. -/
theorem ch_congr {s t : State} (h : t.channels = s.channels) (c : Chan) : t.ch c = s.ch c := by
  simp [State.ch, h]

/-- `peer` reads the Peer Draw Table alone. -/
theorem peer_congr {s t : State} (h : t.peers = s.peers) (p : Stn) : t.peer p = s.peer p := by
  simp [State.peer, h]

/-- `cfg` reads the Loader alone. -/
theorem cfg_congr {s t : State} (h : t.loader = s.loader) (c : Chan) : t.cfg c = s.cfg c := by
  simp [State.cfg, State.configuration, h]

/-- `params` reads the Loader alone. -/
theorem params_congr {s t : State} (h : t.loader = s.loader) : t.params = s.params := by
  simp [State.params, State.configuration, h]

/-- `own` reads the Loader alone. -/
theorem own_congr {s t : State} (h : t.loader = s.loader) : t.own = s.own := by
  simp [State.own, h]

/-- `isLoaded` reads the Loader alone. -/
theorem isLoaded_congr {s t : State} (h : t.loader = s.loader) : t.isLoaded = s.isLoaded := by
  simp [State.isLoaded, h]

variable (s : State)

@[simp] theorem State.setCh_channels (c : Chan) (x : Channel) : (s.setCh c x).channels = s.channels.set c x := rfl
@[simp] theorem State.setCh_cuts (c : Chan) (x : Channel) : (s.setCh c x).cuts = s.cuts := rfl
@[simp] theorem State.setCh_modulator (c : Chan) (x : Channel) : (s.setCh c x).modulator = s.modulator := rfl
@[simp] theorem State.setCh_timer (c : Chan) (x : Channel) : (s.setCh c x).timer = s.timer := rfl
@[simp] theorem State.setCh_sense (c : Chan) (x : Channel) : (s.setCh c x).sense = s.sense := rfl
@[simp] theorem State.setCh_signal (c : Chan) (x : Channel) : (s.setCh c x).signal = s.signal := rfl
@[simp] theorem State.setCh_link (c : Chan) (x : Channel) : (s.setCh c x).link = s.link := rfl
@[simp] theorem State.setCh_peers (c : Chan) (x : Channel) : (s.setCh c x).peers = s.peers := rfl
@[simp] theorem State.setCh_reservations (c : Chan) (x : Channel) : (s.setCh c x).reservations = s.reservations := rfl
@[simp] theorem State.setCh_budget (c : Chan) (x : Channel) : (s.setCh c x).budget = s.budget := rfl
@[simp] theorem State.setCh_sched (c : Chan) (x : Channel) : (s.setCh c x).sched = s.sched := rfl
@[simp] theorem State.setCh_diag (c : Chan) (x : Channel) : (s.setCh c x).diag = s.diag := rfl
@[simp] theorem State.setCh_loader (c : Chan) (x : Channel) : (s.setCh c x).loader = s.loader := rfl
@[simp] theorem State.setCh_pins (c : Chan) (x : Channel) : (s.setCh c x).pins = s.pins := rfl
@[simp] theorem State.setCh_pending (c : Chan) (x : Channel) : (s.setCh c x).pending = s.pending := rfl
@[simp] theorem State.setCh_peer (c : Chan) (x : Channel) (p : Stn) : (s.setCh c x).peer p = s.peer p := peer_congr rfl p
@[simp] theorem State.setCh_cfg (c : Chan) (x : Channel) (d : Chan) : (s.setCh c x).cfg d = s.cfg d := cfg_congr rfl d
@[simp] theorem State.setCh_params (c : Chan) (x : Channel) : (s.setCh c x).params = s.params := params_congr rfl
@[simp] theorem State.setCh_own (c : Chan) (x : Channel) : (s.setCh c x).own = s.own := own_congr rfl
@[simp] theorem State.setCh_isLoaded (c : Chan) (x : Channel) : (s.setCh c x).isLoaded = s.isLoaded := isLoaded_congr rfl

@[simp] theorem State.mapCh_channels (f : Chan → Channel → Channel) : (s.mapCh f).channels = Vector.ofFn fun c => f c (s.ch c) := by simp only [State.mapCh]
@[simp] theorem State.mapCh_cuts (f : Chan → Channel → Channel) : (s.mapCh f).cuts = s.cuts := by simp only [State.mapCh]
@[simp] theorem State.mapCh_modulator (f : Chan → Channel → Channel) : (s.mapCh f).modulator = s.modulator := by simp only [State.mapCh]
@[simp] theorem State.mapCh_timer (f : Chan → Channel → Channel) : (s.mapCh f).timer = s.timer := by simp only [State.mapCh]
@[simp] theorem State.mapCh_sense (f : Chan → Channel → Channel) : (s.mapCh f).sense = s.sense := by simp only [State.mapCh]
@[simp] theorem State.mapCh_signal (f : Chan → Channel → Channel) : (s.mapCh f).signal = s.signal := by simp only [State.mapCh]
@[simp] theorem State.mapCh_link (f : Chan → Channel → Channel) : (s.mapCh f).link = s.link := by simp only [State.mapCh]
@[simp] theorem State.mapCh_peers (f : Chan → Channel → Channel) : (s.mapCh f).peers = s.peers := by simp only [State.mapCh]
@[simp] theorem State.mapCh_reservations (f : Chan → Channel → Channel) : (s.mapCh f).reservations = s.reservations := by simp only [State.mapCh]
@[simp] theorem State.mapCh_budget (f : Chan → Channel → Channel) : (s.mapCh f).budget = s.budget := by simp only [State.mapCh]
@[simp] theorem State.mapCh_sched (f : Chan → Channel → Channel) : (s.mapCh f).sched = s.sched := by simp only [State.mapCh]
@[simp] theorem State.mapCh_diag (f : Chan → Channel → Channel) : (s.mapCh f).diag = s.diag := by simp only [State.mapCh]
@[simp] theorem State.mapCh_loader (f : Chan → Channel → Channel) : (s.mapCh f).loader = s.loader := by simp only [State.mapCh]
@[simp] theorem State.mapCh_pins (f : Chan → Channel → Channel) : (s.mapCh f).pins = s.pins := by simp only [State.mapCh]
@[simp] theorem State.mapCh_pending (f : Chan → Channel → Channel) : (s.mapCh f).pending = s.pending := by simp only [State.mapCh]
@[simp] theorem State.mapCh_peer (f : Chan → Channel → Channel) (p : Stn) : (s.mapCh f).peer p = s.peer p := peer_congr (s.mapCh_peers f) p
@[simp] theorem State.mapCh_cfg (f : Chan → Channel → Channel) (d : Chan) : (s.mapCh f).cfg d = s.cfg d := cfg_congr (s.mapCh_loader f) d
@[simp] theorem State.mapCh_params (f : Chan → Channel → Channel) : (s.mapCh f).params = s.params := params_congr (s.mapCh_loader f)
@[simp] theorem State.mapCh_own (f : Chan → Channel → Channel) : (s.mapCh f).own = s.own := own_congr (s.mapCh_loader f)
@[simp] theorem State.mapCh_isLoaded (f : Chan → Channel → Channel) : (s.mapCh f).isLoaded = s.isLoaded := isLoaded_congr (s.mapCh_loader f)

@[simp] theorem State.setPeer_channels (p : Stn) (e : PeerEntry) : (s.setPeer p e).channels = s.channels := rfl
@[simp] theorem State.setPeer_cuts (p : Stn) (e : PeerEntry) : (s.setPeer p e).cuts = s.cuts := rfl
@[simp] theorem State.setPeer_modulator (p : Stn) (e : PeerEntry) : (s.setPeer p e).modulator = s.modulator := rfl
@[simp] theorem State.setPeer_timer (p : Stn) (e : PeerEntry) : (s.setPeer p e).timer = s.timer := rfl
@[simp] theorem State.setPeer_sense (p : Stn) (e : PeerEntry) : (s.setPeer p e).sense = s.sense := rfl
@[simp] theorem State.setPeer_signal (p : Stn) (e : PeerEntry) : (s.setPeer p e).signal = s.signal := rfl
@[simp] theorem State.setPeer_link (p : Stn) (e : PeerEntry) : (s.setPeer p e).link = s.link := rfl
@[simp] theorem State.setPeer_peers (p : Stn) (e : PeerEntry) : (s.setPeer p e).peers = s.peers.set p e := rfl
@[simp] theorem State.setPeer_reservations (p : Stn) (e : PeerEntry) : (s.setPeer p e).reservations = s.reservations := rfl
@[simp] theorem State.setPeer_budget (p : Stn) (e : PeerEntry) : (s.setPeer p e).budget = s.budget := rfl
@[simp] theorem State.setPeer_sched (p : Stn) (e : PeerEntry) : (s.setPeer p e).sched = s.sched := rfl
@[simp] theorem State.setPeer_diag (p : Stn) (e : PeerEntry) : (s.setPeer p e).diag = s.diag := rfl
@[simp] theorem State.setPeer_loader (p : Stn) (e : PeerEntry) : (s.setPeer p e).loader = s.loader := rfl
@[simp] theorem State.setPeer_pins (p : Stn) (e : PeerEntry) : (s.setPeer p e).pins = s.pins := rfl
@[simp] theorem State.setPeer_pending (p : Stn) (e : PeerEntry) : (s.setPeer p e).pending = s.pending := rfl
@[simp] theorem State.setPeer_ch (p : Stn) (e : PeerEntry) (d : Chan) : (s.setPeer p e).ch d = s.ch d := ch_congr rfl d
@[simp] theorem State.setPeer_cfg (p : Stn) (e : PeerEntry) (d : Chan) : (s.setPeer p e).cfg d = s.cfg d := cfg_congr rfl d
@[simp] theorem State.setPeer_params (p : Stn) (e : PeerEntry) : (s.setPeer p e).params = s.params := params_congr rfl
@[simp] theorem State.setPeer_own (p : Stn) (e : PeerEntry) : (s.setPeer p e).own = s.own := own_congr rfl
@[simp] theorem State.setPeer_isLoaded (p : Stn) (e : PeerEntry) : (s.setPeer p e).isLoaded = s.isLoaded := isLoaded_congr rfl

@[simp] theorem State.mapPeers_channels (f : PeerEntry → PeerEntry) : (s.mapPeers f).channels = s.channels := by simp only [State.mapPeers]
@[simp] theorem State.mapPeers_cuts (f : PeerEntry → PeerEntry) : (s.mapPeers f).cuts = s.cuts := by simp only [State.mapPeers]
@[simp] theorem State.mapPeers_modulator (f : PeerEntry → PeerEntry) : (s.mapPeers f).modulator = s.modulator := by simp only [State.mapPeers]
@[simp] theorem State.mapPeers_timer (f : PeerEntry → PeerEntry) : (s.mapPeers f).timer = s.timer := by simp only [State.mapPeers]
@[simp] theorem State.mapPeers_sense (f : PeerEntry → PeerEntry) : (s.mapPeers f).sense = s.sense := by simp only [State.mapPeers]
@[simp] theorem State.mapPeers_signal (f : PeerEntry → PeerEntry) : (s.mapPeers f).signal = s.signal := by simp only [State.mapPeers]
@[simp] theorem State.mapPeers_link (f : PeerEntry → PeerEntry) : (s.mapPeers f).link = s.link := by simp only [State.mapPeers]
@[simp] theorem State.mapPeers_peers (f : PeerEntry → PeerEntry) : (s.mapPeers f).peers = Vector.ofFn fun p => f (s.peer p) := by simp only [State.mapPeers]
@[simp] theorem State.mapPeers_reservations (f : PeerEntry → PeerEntry) : (s.mapPeers f).reservations = s.reservations := by simp only [State.mapPeers]
@[simp] theorem State.mapPeers_budget (f : PeerEntry → PeerEntry) : (s.mapPeers f).budget = s.budget := by simp only [State.mapPeers]
@[simp] theorem State.mapPeers_sched (f : PeerEntry → PeerEntry) : (s.mapPeers f).sched = s.sched := by simp only [State.mapPeers]
@[simp] theorem State.mapPeers_diag (f : PeerEntry → PeerEntry) : (s.mapPeers f).diag = s.diag := by simp only [State.mapPeers]
@[simp] theorem State.mapPeers_loader (f : PeerEntry → PeerEntry) : (s.mapPeers f).loader = s.loader := by simp only [State.mapPeers]
@[simp] theorem State.mapPeers_pins (f : PeerEntry → PeerEntry) : (s.mapPeers f).pins = s.pins := by simp only [State.mapPeers]
@[simp] theorem State.mapPeers_pending (f : PeerEntry → PeerEntry) : (s.mapPeers f).pending = s.pending := by simp only [State.mapPeers]
@[simp] theorem State.mapPeers_ch (f : PeerEntry → PeerEntry) (d : Chan) : (s.mapPeers f).ch d = s.ch d := ch_congr (s.mapPeers_channels f) d
@[simp] theorem State.mapPeers_cfg (f : PeerEntry → PeerEntry) (d : Chan) : (s.mapPeers f).cfg d = s.cfg d := cfg_congr (s.mapPeers_loader f) d
@[simp] theorem State.mapPeers_params (f : PeerEntry → PeerEntry) : (s.mapPeers f).params = s.params := params_congr (s.mapPeers_loader f)
@[simp] theorem State.mapPeers_own (f : PeerEntry → PeerEntry) : (s.mapPeers f).own = s.own := own_congr (s.mapPeers_loader f)
@[simp] theorem State.mapPeers_isLoaded (f : PeerEntry → PeerEntry) : (s.mapPeers f).isLoaded = s.isLoaded := isLoaded_congr (s.mapPeers_loader f)

@[simp] theorem State.setLink_channels (x : LinkController) : (s.setLink x).channels = s.channels := rfl
@[simp] theorem State.setLink_cuts (x : LinkController) : (s.setLink x).cuts = s.cuts := rfl
@[simp] theorem State.setLink_modulator (x : LinkController) : (s.setLink x).modulator = s.modulator := rfl
@[simp] theorem State.setLink_timer (x : LinkController) : (s.setLink x).timer = s.timer := rfl
@[simp] theorem State.setLink_sense (x : LinkController) : (s.setLink x).sense = s.sense := rfl
@[simp] theorem State.setLink_signal (x : LinkController) : (s.setLink x).signal = s.signal := rfl
@[simp] theorem State.setLink_link (x : LinkController) : (s.setLink x).link = x := rfl
@[simp] theorem State.setLink_peers (x : LinkController) : (s.setLink x).peers = s.peers := rfl
@[simp] theorem State.setLink_reservations (x : LinkController) : (s.setLink x).reservations = s.reservations := rfl
@[simp] theorem State.setLink_budget (x : LinkController) : (s.setLink x).budget = s.budget := rfl
@[simp] theorem State.setLink_sched (x : LinkController) : (s.setLink x).sched = s.sched := rfl
@[simp] theorem State.setLink_diag (x : LinkController) : (s.setLink x).diag = s.diag := rfl
@[simp] theorem State.setLink_loader (x : LinkController) : (s.setLink x).loader = s.loader := rfl
@[simp] theorem State.setLink_pins (x : LinkController) : (s.setLink x).pins = s.pins := rfl
@[simp] theorem State.setLink_pending (x : LinkController) : (s.setLink x).pending = s.pending := rfl
@[simp] theorem State.setLink_ch (x : LinkController) (d : Chan) : (s.setLink x).ch d = s.ch d := ch_congr rfl d
@[simp] theorem State.setLink_peer (x : LinkController) (p : Stn) : (s.setLink x).peer p = s.peer p := peer_congr rfl p
@[simp] theorem State.setLink_cfg (x : LinkController) (d : Chan) : (s.setLink x).cfg d = s.cfg d := cfg_congr rfl d
@[simp] theorem State.setLink_params (x : LinkController) : (s.setLink x).params = s.params := params_congr rfl
@[simp] theorem State.setLink_own (x : LinkController) : (s.setLink x).own = s.own := own_congr rfl
@[simp] theorem State.setLink_isLoaded (x : LinkController) : (s.setLink x).isLoaded = s.isLoaded := isLoaded_congr rfl

@[simp] theorem State.setSched_channels (x : Scheduler) : (s.setSched x).channels = s.channels := rfl
@[simp] theorem State.setSched_cuts (x : Scheduler) : (s.setSched x).cuts = s.cuts := rfl
@[simp] theorem State.setSched_modulator (x : Scheduler) : (s.setSched x).modulator = s.modulator := rfl
@[simp] theorem State.setSched_timer (x : Scheduler) : (s.setSched x).timer = s.timer := rfl
@[simp] theorem State.setSched_sense (x : Scheduler) : (s.setSched x).sense = s.sense := rfl
@[simp] theorem State.setSched_signal (x : Scheduler) : (s.setSched x).signal = s.signal := rfl
@[simp] theorem State.setSched_link (x : Scheduler) : (s.setSched x).link = s.link := rfl
@[simp] theorem State.setSched_peers (x : Scheduler) : (s.setSched x).peers = s.peers := rfl
@[simp] theorem State.setSched_reservations (x : Scheduler) : (s.setSched x).reservations = s.reservations := rfl
@[simp] theorem State.setSched_budget (x : Scheduler) : (s.setSched x).budget = s.budget := rfl
@[simp] theorem State.setSched_sched (x : Scheduler) : (s.setSched x).sched = x := rfl
@[simp] theorem State.setSched_diag (x : Scheduler) : (s.setSched x).diag = s.diag := rfl
@[simp] theorem State.setSched_loader (x : Scheduler) : (s.setSched x).loader = s.loader := rfl
@[simp] theorem State.setSched_pins (x : Scheduler) : (s.setSched x).pins = s.pins := rfl
@[simp] theorem State.setSched_pending (x : Scheduler) : (s.setSched x).pending = s.pending := rfl
@[simp] theorem State.setSched_ch (x : Scheduler) (d : Chan) : (s.setSched x).ch d = s.ch d := ch_congr rfl d
@[simp] theorem State.setSched_peer (x : Scheduler) (p : Stn) : (s.setSched x).peer p = s.peer p := peer_congr rfl p
@[simp] theorem State.setSched_cfg (x : Scheduler) (d : Chan) : (s.setSched x).cfg d = s.cfg d := cfg_congr rfl d
@[simp] theorem State.setSched_params (x : Scheduler) : (s.setSched x).params = s.params := params_congr rfl
@[simp] theorem State.setSched_own (x : Scheduler) : (s.setSched x).own = s.own := own_congr rfl
@[simp] theorem State.setSched_isLoaded (x : Scheduler) : (s.setSched x).isLoaded = s.isLoaded := isLoaded_congr rfl

@[simp] theorem State.setDiag_channels (x : Responder) : (s.setDiag x).channels = s.channels := rfl
@[simp] theorem State.setDiag_cuts (x : Responder) : (s.setDiag x).cuts = s.cuts := rfl
@[simp] theorem State.setDiag_modulator (x : Responder) : (s.setDiag x).modulator = s.modulator := rfl
@[simp] theorem State.setDiag_timer (x : Responder) : (s.setDiag x).timer = s.timer := rfl
@[simp] theorem State.setDiag_sense (x : Responder) : (s.setDiag x).sense = s.sense := rfl
@[simp] theorem State.setDiag_signal (x : Responder) : (s.setDiag x).signal = s.signal := rfl
@[simp] theorem State.setDiag_link (x : Responder) : (s.setDiag x).link = s.link := rfl
@[simp] theorem State.setDiag_peers (x : Responder) : (s.setDiag x).peers = s.peers := rfl
@[simp] theorem State.setDiag_reservations (x : Responder) : (s.setDiag x).reservations = s.reservations := rfl
@[simp] theorem State.setDiag_budget (x : Responder) : (s.setDiag x).budget = s.budget := rfl
@[simp] theorem State.setDiag_sched (x : Responder) : (s.setDiag x).sched = s.sched := rfl
@[simp] theorem State.setDiag_diag (x : Responder) : (s.setDiag x).diag = x := rfl
@[simp] theorem State.setDiag_loader (x : Responder) : (s.setDiag x).loader = s.loader := rfl
@[simp] theorem State.setDiag_pins (x : Responder) : (s.setDiag x).pins = s.pins := rfl
@[simp] theorem State.setDiag_pending (x : Responder) : (s.setDiag x).pending = s.pending := rfl
@[simp] theorem State.setDiag_ch (x : Responder) (d : Chan) : (s.setDiag x).ch d = s.ch d := ch_congr rfl d
@[simp] theorem State.setDiag_peer (x : Responder) (p : Stn) : (s.setDiag x).peer p = s.peer p := peer_congr rfl p
@[simp] theorem State.setDiag_cfg (x : Responder) (d : Chan) : (s.setDiag x).cfg d = s.cfg d := cfg_congr rfl d
@[simp] theorem State.setDiag_params (x : Responder) : (s.setDiag x).params = s.params := params_congr rfl
@[simp] theorem State.setDiag_own (x : Responder) : (s.setDiag x).own = s.own := own_congr rfl
@[simp] theorem State.setDiag_isLoaded (x : Responder) : (s.setDiag x).isLoaded = s.isLoaded := isLoaded_congr rfl

@[simp] theorem State.setTimer_channels (x : EpochTimer) : (s.setTimer x).channels = s.channels := rfl
@[simp] theorem State.setTimer_cuts (x : EpochTimer) : (s.setTimer x).cuts = s.cuts := rfl
@[simp] theorem State.setTimer_modulator (x : EpochTimer) : (s.setTimer x).modulator = s.modulator := rfl
@[simp] theorem State.setTimer_timer (x : EpochTimer) : (s.setTimer x).timer = x := rfl
@[simp] theorem State.setTimer_sense (x : EpochTimer) : (s.setTimer x).sense = s.sense := rfl
@[simp] theorem State.setTimer_signal (x : EpochTimer) : (s.setTimer x).signal = s.signal := rfl
@[simp] theorem State.setTimer_link (x : EpochTimer) : (s.setTimer x).link = s.link := rfl
@[simp] theorem State.setTimer_peers (x : EpochTimer) : (s.setTimer x).peers = s.peers := rfl
@[simp] theorem State.setTimer_reservations (x : EpochTimer) : (s.setTimer x).reservations = s.reservations := rfl
@[simp] theorem State.setTimer_budget (x : EpochTimer) : (s.setTimer x).budget = s.budget := rfl
@[simp] theorem State.setTimer_sched (x : EpochTimer) : (s.setTimer x).sched = s.sched := rfl
@[simp] theorem State.setTimer_diag (x : EpochTimer) : (s.setTimer x).diag = s.diag := rfl
@[simp] theorem State.setTimer_loader (x : EpochTimer) : (s.setTimer x).loader = s.loader := rfl
@[simp] theorem State.setTimer_pins (x : EpochTimer) : (s.setTimer x).pins = s.pins := rfl
@[simp] theorem State.setTimer_pending (x : EpochTimer) : (s.setTimer x).pending = s.pending := rfl
@[simp] theorem State.setTimer_ch (x : EpochTimer) (d : Chan) : (s.setTimer x).ch d = s.ch d := ch_congr rfl d
@[simp] theorem State.setTimer_peer (x : EpochTimer) (p : Stn) : (s.setTimer x).peer p = s.peer p := peer_congr rfl p
@[simp] theorem State.setTimer_cfg (x : EpochTimer) (d : Chan) : (s.setTimer x).cfg d = s.cfg d := cfg_congr rfl d
@[simp] theorem State.setTimer_params (x : EpochTimer) : (s.setTimer x).params = s.params := params_congr rfl
@[simp] theorem State.setTimer_own (x : EpochTimer) : (s.setTimer x).own = s.own := own_congr rfl
@[simp] theorem State.setTimer_isLoaded (x : EpochTimer) : (s.setTimer x).isLoaded = s.isLoaded := isLoaded_congr rfl

@[simp] theorem State.setSense_channels (x : SenseUnit) : (s.setSense x).channels = s.channels := rfl
@[simp] theorem State.setSense_cuts (x : SenseUnit) : (s.setSense x).cuts = s.cuts := rfl
@[simp] theorem State.setSense_modulator (x : SenseUnit) : (s.setSense x).modulator = s.modulator := rfl
@[simp] theorem State.setSense_timer (x : SenseUnit) : (s.setSense x).timer = s.timer := rfl
@[simp] theorem State.setSense_sense (x : SenseUnit) : (s.setSense x).sense = x := rfl
@[simp] theorem State.setSense_signal (x : SenseUnit) : (s.setSense x).signal = s.signal := rfl
@[simp] theorem State.setSense_link (x : SenseUnit) : (s.setSense x).link = s.link := rfl
@[simp] theorem State.setSense_peers (x : SenseUnit) : (s.setSense x).peers = s.peers := rfl
@[simp] theorem State.setSense_reservations (x : SenseUnit) : (s.setSense x).reservations = s.reservations := rfl
@[simp] theorem State.setSense_budget (x : SenseUnit) : (s.setSense x).budget = s.budget := rfl
@[simp] theorem State.setSense_sched (x : SenseUnit) : (s.setSense x).sched = s.sched := rfl
@[simp] theorem State.setSense_diag (x : SenseUnit) : (s.setSense x).diag = s.diag := rfl
@[simp] theorem State.setSense_loader (x : SenseUnit) : (s.setSense x).loader = s.loader := rfl
@[simp] theorem State.setSense_pins (x : SenseUnit) : (s.setSense x).pins = s.pins := rfl
@[simp] theorem State.setSense_pending (x : SenseUnit) : (s.setSense x).pending = s.pending := rfl
@[simp] theorem State.setSense_ch (x : SenseUnit) (d : Chan) : (s.setSense x).ch d = s.ch d := ch_congr rfl d
@[simp] theorem State.setSense_peer (x : SenseUnit) (p : Stn) : (s.setSense x).peer p = s.peer p := peer_congr rfl p
@[simp] theorem State.setSense_cfg (x : SenseUnit) (d : Chan) : (s.setSense x).cfg d = s.cfg d := cfg_congr rfl d
@[simp] theorem State.setSense_params (x : SenseUnit) : (s.setSense x).params = s.params := params_congr rfl
@[simp] theorem State.setSense_own (x : SenseUnit) : (s.setSense x).own = s.own := own_congr rfl
@[simp] theorem State.setSense_isLoaded (x : SenseUnit) : (s.setSense x).isLoaded = s.isLoaded := isLoaded_congr rfl

@[simp] theorem State.setSignal_channels (x : SignalUnit) : (s.setSignal x).channels = s.channels := rfl
@[simp] theorem State.setSignal_cuts (x : SignalUnit) : (s.setSignal x).cuts = s.cuts := rfl
@[simp] theorem State.setSignal_modulator (x : SignalUnit) : (s.setSignal x).modulator = s.modulator := rfl
@[simp] theorem State.setSignal_timer (x : SignalUnit) : (s.setSignal x).timer = s.timer := rfl
@[simp] theorem State.setSignal_sense (x : SignalUnit) : (s.setSignal x).sense = s.sense := rfl
@[simp] theorem State.setSignal_signal (x : SignalUnit) : (s.setSignal x).signal = x := rfl
@[simp] theorem State.setSignal_link (x : SignalUnit) : (s.setSignal x).link = s.link := rfl
@[simp] theorem State.setSignal_peers (x : SignalUnit) : (s.setSignal x).peers = s.peers := rfl
@[simp] theorem State.setSignal_reservations (x : SignalUnit) : (s.setSignal x).reservations = s.reservations := rfl
@[simp] theorem State.setSignal_budget (x : SignalUnit) : (s.setSignal x).budget = s.budget := rfl
@[simp] theorem State.setSignal_sched (x : SignalUnit) : (s.setSignal x).sched = s.sched := rfl
@[simp] theorem State.setSignal_diag (x : SignalUnit) : (s.setSignal x).diag = s.diag := rfl
@[simp] theorem State.setSignal_loader (x : SignalUnit) : (s.setSignal x).loader = s.loader := rfl
@[simp] theorem State.setSignal_pins (x : SignalUnit) : (s.setSignal x).pins = s.pins := rfl
@[simp] theorem State.setSignal_pending (x : SignalUnit) : (s.setSignal x).pending = s.pending := rfl
@[simp] theorem State.setSignal_ch (x : SignalUnit) (d : Chan) : (s.setSignal x).ch d = s.ch d := ch_congr rfl d
@[simp] theorem State.setSignal_peer (x : SignalUnit) (p : Stn) : (s.setSignal x).peer p = s.peer p := peer_congr rfl p
@[simp] theorem State.setSignal_cfg (x : SignalUnit) (d : Chan) : (s.setSignal x).cfg d = s.cfg d := cfg_congr rfl d
@[simp] theorem State.setSignal_params (x : SignalUnit) : (s.setSignal x).params = s.params := params_congr rfl
@[simp] theorem State.setSignal_own (x : SignalUnit) : (s.setSignal x).own = s.own := own_congr rfl
@[simp] theorem State.setSignal_isLoaded (x : SignalUnit) : (s.setSignal x).isLoaded = s.isLoaded := isLoaded_congr rfl

@[simp] theorem State.setBudget_channels (x : BudgetUnit) : (s.setBudget x).channels = s.channels := rfl
@[simp] theorem State.setBudget_cuts (x : BudgetUnit) : (s.setBudget x).cuts = s.cuts := rfl
@[simp] theorem State.setBudget_modulator (x : BudgetUnit) : (s.setBudget x).modulator = s.modulator := rfl
@[simp] theorem State.setBudget_timer (x : BudgetUnit) : (s.setBudget x).timer = s.timer := rfl
@[simp] theorem State.setBudget_sense (x : BudgetUnit) : (s.setBudget x).sense = s.sense := rfl
@[simp] theorem State.setBudget_signal (x : BudgetUnit) : (s.setBudget x).signal = s.signal := rfl
@[simp] theorem State.setBudget_link (x : BudgetUnit) : (s.setBudget x).link = s.link := rfl
@[simp] theorem State.setBudget_peers (x : BudgetUnit) : (s.setBudget x).peers = s.peers := rfl
@[simp] theorem State.setBudget_reservations (x : BudgetUnit) : (s.setBudget x).reservations = s.reservations := rfl
@[simp] theorem State.setBudget_budget (x : BudgetUnit) : (s.setBudget x).budget = x := rfl
@[simp] theorem State.setBudget_sched (x : BudgetUnit) : (s.setBudget x).sched = s.sched := rfl
@[simp] theorem State.setBudget_diag (x : BudgetUnit) : (s.setBudget x).diag = s.diag := rfl
@[simp] theorem State.setBudget_loader (x : BudgetUnit) : (s.setBudget x).loader = s.loader := rfl
@[simp] theorem State.setBudget_pins (x : BudgetUnit) : (s.setBudget x).pins = s.pins := rfl
@[simp] theorem State.setBudget_pending (x : BudgetUnit) : (s.setBudget x).pending = s.pending := rfl
@[simp] theorem State.setBudget_ch (x : BudgetUnit) (d : Chan) : (s.setBudget x).ch d = s.ch d := ch_congr rfl d
@[simp] theorem State.setBudget_peer (x : BudgetUnit) (p : Stn) : (s.setBudget x).peer p = s.peer p := peer_congr rfl p
@[simp] theorem State.setBudget_cfg (x : BudgetUnit) (d : Chan) : (s.setBudget x).cfg d = s.cfg d := cfg_congr rfl d
@[simp] theorem State.setBudget_params (x : BudgetUnit) : (s.setBudget x).params = s.params := params_congr rfl
@[simp] theorem State.setBudget_own (x : BudgetUnit) : (s.setBudget x).own = s.own := own_congr rfl
@[simp] theorem State.setBudget_isLoaded (x : BudgetUnit) : (s.setBudget x).isLoaded = s.isLoaded := isLoaded_congr rfl

@[simp] theorem State.setReservations_channels (x : List Reservation) : (s.setReservations x).channels = s.channels := rfl
@[simp] theorem State.setReservations_cuts (x : List Reservation) : (s.setReservations x).cuts = s.cuts := rfl
@[simp] theorem State.setReservations_modulator (x : List Reservation) : (s.setReservations x).modulator = s.modulator := rfl
@[simp] theorem State.setReservations_timer (x : List Reservation) : (s.setReservations x).timer = s.timer := rfl
@[simp] theorem State.setReservations_sense (x : List Reservation) : (s.setReservations x).sense = s.sense := rfl
@[simp] theorem State.setReservations_signal (x : List Reservation) : (s.setReservations x).signal = s.signal := rfl
@[simp] theorem State.setReservations_link (x : List Reservation) : (s.setReservations x).link = s.link := rfl
@[simp] theorem State.setReservations_peers (x : List Reservation) : (s.setReservations x).peers = s.peers := rfl
@[simp] theorem State.setReservations_reservations (x : List Reservation) : (s.setReservations x).reservations = x := rfl
@[simp] theorem State.setReservations_budget (x : List Reservation) : (s.setReservations x).budget = s.budget := rfl
@[simp] theorem State.setReservations_sched (x : List Reservation) : (s.setReservations x).sched = s.sched := rfl
@[simp] theorem State.setReservations_diag (x : List Reservation) : (s.setReservations x).diag = s.diag := rfl
@[simp] theorem State.setReservations_loader (x : List Reservation) : (s.setReservations x).loader = s.loader := rfl
@[simp] theorem State.setReservations_pins (x : List Reservation) : (s.setReservations x).pins = s.pins := rfl
@[simp] theorem State.setReservations_pending (x : List Reservation) : (s.setReservations x).pending = s.pending := rfl
@[simp] theorem State.setReservations_ch (x : List Reservation) (d : Chan) : (s.setReservations x).ch d = s.ch d := ch_congr rfl d
@[simp] theorem State.setReservations_peer (x : List Reservation) (p : Stn) : (s.setReservations x).peer p = s.peer p := peer_congr rfl p
@[simp] theorem State.setReservations_cfg (x : List Reservation) (d : Chan) : (s.setReservations x).cfg d = s.cfg d := cfg_congr rfl d
@[simp] theorem State.setReservations_params (x : List Reservation) : (s.setReservations x).params = s.params := params_congr rfl
@[simp] theorem State.setReservations_own (x : List Reservation) : (s.setReservations x).own = s.own := own_congr rfl
@[simp] theorem State.setReservations_isLoaded (x : List Reservation) : (s.setReservations x).isLoaded = s.isLoaded := isLoaded_congr rfl

@[simp] theorem State.setLoader_channels (x : Loader) : (s.setLoader x).channels = s.channels := rfl
@[simp] theorem State.setLoader_cuts (x : Loader) : (s.setLoader x).cuts = s.cuts := rfl
@[simp] theorem State.setLoader_modulator (x : Loader) : (s.setLoader x).modulator = s.modulator := rfl
@[simp] theorem State.setLoader_timer (x : Loader) : (s.setLoader x).timer = s.timer := rfl
@[simp] theorem State.setLoader_sense (x : Loader) : (s.setLoader x).sense = s.sense := rfl
@[simp] theorem State.setLoader_signal (x : Loader) : (s.setLoader x).signal = s.signal := rfl
@[simp] theorem State.setLoader_link (x : Loader) : (s.setLoader x).link = s.link := rfl
@[simp] theorem State.setLoader_peers (x : Loader) : (s.setLoader x).peers = s.peers := rfl
@[simp] theorem State.setLoader_reservations (x : Loader) : (s.setLoader x).reservations = s.reservations := rfl
@[simp] theorem State.setLoader_budget (x : Loader) : (s.setLoader x).budget = s.budget := rfl
@[simp] theorem State.setLoader_sched (x : Loader) : (s.setLoader x).sched = s.sched := rfl
@[simp] theorem State.setLoader_diag (x : Loader) : (s.setLoader x).diag = s.diag := rfl
@[simp] theorem State.setLoader_loader (x : Loader) : (s.setLoader x).loader = x := rfl
@[simp] theorem State.setLoader_pins (x : Loader) : (s.setLoader x).pins = s.pins := rfl
@[simp] theorem State.setLoader_pending (x : Loader) : (s.setLoader x).pending = s.pending := rfl
@[simp] theorem State.setLoader_ch (x : Loader) (d : Chan) : (s.setLoader x).ch d = s.ch d := ch_congr rfl d
@[simp] theorem State.setLoader_peer (x : Loader) (p : Stn) : (s.setLoader x).peer p = s.peer p := peer_congr rfl p

@[simp] theorem State.setCauses_channels (x : CutCauses) : (s.setCauses x).channels = s.channels := rfl
@[simp] theorem State.setCauses_cuts (x : CutCauses) : (s.setCauses x).cuts = x := rfl
@[simp] theorem State.setCauses_modulator (x : CutCauses) : (s.setCauses x).modulator = s.modulator := rfl
@[simp] theorem State.setCauses_timer (x : CutCauses) : (s.setCauses x).timer = s.timer := rfl
@[simp] theorem State.setCauses_sense (x : CutCauses) : (s.setCauses x).sense = s.sense := rfl
@[simp] theorem State.setCauses_signal (x : CutCauses) : (s.setCauses x).signal = s.signal := rfl
@[simp] theorem State.setCauses_link (x : CutCauses) : (s.setCauses x).link = s.link := rfl
@[simp] theorem State.setCauses_peers (x : CutCauses) : (s.setCauses x).peers = s.peers := rfl
@[simp] theorem State.setCauses_reservations (x : CutCauses) : (s.setCauses x).reservations = s.reservations := rfl
@[simp] theorem State.setCauses_budget (x : CutCauses) : (s.setCauses x).budget = s.budget := rfl
@[simp] theorem State.setCauses_sched (x : CutCauses) : (s.setCauses x).sched = s.sched := rfl
@[simp] theorem State.setCauses_diag (x : CutCauses) : (s.setCauses x).diag = s.diag := rfl
@[simp] theorem State.setCauses_loader (x : CutCauses) : (s.setCauses x).loader = s.loader := rfl
@[simp] theorem State.setCauses_pins (x : CutCauses) : (s.setCauses x).pins = s.pins := rfl
@[simp] theorem State.setCauses_pending (x : CutCauses) : (s.setCauses x).pending = s.pending := rfl
@[simp] theorem State.setCauses_ch (x : CutCauses) (d : Chan) : (s.setCauses x).ch d = s.ch d := ch_congr rfl d
@[simp] theorem State.setCauses_peer (x : CutCauses) (p : Stn) : (s.setCauses x).peer p = s.peer p := peer_congr rfl p
@[simp] theorem State.setCauses_cfg (x : CutCauses) (d : Chan) : (s.setCauses x).cfg d = s.cfg d := cfg_congr rfl d
@[simp] theorem State.setCauses_params (x : CutCauses) : (s.setCauses x).params = s.params := params_congr rfl
@[simp] theorem State.setCauses_own (x : CutCauses) : (s.setCauses x).own = s.own := own_congr rfl
@[simp] theorem State.setCauses_isLoaded (x : CutCauses) : (s.setCauses x).isLoaded = s.isLoaded := isLoaded_congr rfl

@[simp] theorem State.atStep_channels (t : Nat) : (s.atStep t).channels = s.channels := rfl
@[simp] theorem State.atStep_cuts (t : Nat) : (s.atStep t).cuts = s.cuts := rfl
@[simp] theorem State.atStep_modulator (t : Nat) : (s.atStep t).modulator = { s.modulator with step := t } := rfl
@[simp] theorem State.atStep_timer (t : Nat) : (s.atStep t).timer = s.timer := rfl
@[simp] theorem State.atStep_sense (t : Nat) : (s.atStep t).sense = s.sense := rfl
@[simp] theorem State.atStep_signal (t : Nat) : (s.atStep t).signal = s.signal := rfl
@[simp] theorem State.atStep_link (t : Nat) : (s.atStep t).link = s.link := rfl
@[simp] theorem State.atStep_peers (t : Nat) : (s.atStep t).peers = s.peers := rfl
@[simp] theorem State.atStep_reservations (t : Nat) : (s.atStep t).reservations = s.reservations := rfl
@[simp] theorem State.atStep_budget (t : Nat) : (s.atStep t).budget = s.budget := rfl
@[simp] theorem State.atStep_sched (t : Nat) : (s.atStep t).sched = s.sched := rfl
@[simp] theorem State.atStep_diag (t : Nat) : (s.atStep t).diag = s.diag := rfl
@[simp] theorem State.atStep_loader (t : Nat) : (s.atStep t).loader = s.loader := rfl
@[simp] theorem State.atStep_pins (t : Nat) : (s.atStep t).pins = s.pins := rfl
@[simp] theorem State.atStep_pending (t : Nat) : (s.atStep t).pending = s.pending := rfl
@[simp] theorem State.atStep_ch (t : Nat) (d : Chan) : (s.atStep t).ch d = s.ch d := ch_congr rfl d
@[simp] theorem State.atStep_peer (t : Nat) (p : Stn) : (s.atStep t).peer p = s.peer p := peer_congr rfl p
@[simp] theorem State.atStep_cfg (t : Nat) (d : Chan) : (s.atStep t).cfg d = s.cfg d := cfg_congr rfl d
@[simp] theorem State.atStep_params (t : Nat) : (s.atStep t).params = s.params := params_congr rfl
@[simp] theorem State.atStep_own (t : Nat) : (s.atStep t).own = s.own := own_congr rfl
@[simp] theorem State.atStep_isLoaded (t : Nat) : (s.atStep t).isLoaded = s.isLoaded := isLoaded_congr rfl

@[simp] theorem State.setPins_channels (x : Pins) : (s.setPins x).channels = s.channels := rfl
@[simp] theorem State.setPins_cuts (x : Pins) : (s.setPins x).cuts = s.cuts := rfl
@[simp] theorem State.setPins_modulator (x : Pins) : (s.setPins x).modulator = s.modulator := rfl
@[simp] theorem State.setPins_timer (x : Pins) : (s.setPins x).timer = s.timer := rfl
@[simp] theorem State.setPins_sense (x : Pins) : (s.setPins x).sense = s.sense := rfl
@[simp] theorem State.setPins_signal (x : Pins) : (s.setPins x).signal = s.signal := rfl
@[simp] theorem State.setPins_link (x : Pins) : (s.setPins x).link = s.link := rfl
@[simp] theorem State.setPins_peers (x : Pins) : (s.setPins x).peers = s.peers := rfl
@[simp] theorem State.setPins_reservations (x : Pins) : (s.setPins x).reservations = s.reservations := rfl
@[simp] theorem State.setPins_budget (x : Pins) : (s.setPins x).budget = s.budget := rfl
@[simp] theorem State.setPins_sched (x : Pins) : (s.setPins x).sched = s.sched := rfl
@[simp] theorem State.setPins_diag (x : Pins) : (s.setPins x).diag = s.diag := rfl
@[simp] theorem State.setPins_loader (x : Pins) : (s.setPins x).loader = s.loader := rfl
@[simp] theorem State.setPins_pins (x : Pins) : (s.setPins x).pins = x := rfl
@[simp] theorem State.setPins_pending (x : Pins) : (s.setPins x).pending = s.pending := rfl
@[simp] theorem State.setPins_ch (x : Pins) (d : Chan) : (s.setPins x).ch d = s.ch d := ch_congr rfl d
@[simp] theorem State.setPins_peer (x : Pins) (p : Stn) : (s.setPins x).peer p = s.peer p := peer_congr rfl p
@[simp] theorem State.setPins_cfg (x : Pins) (d : Chan) : (s.setPins x).cfg d = s.cfg d := cfg_congr rfl d
@[simp] theorem State.setPins_params (x : Pins) : (s.setPins x).params = s.params := params_congr rfl
@[simp] theorem State.setPins_own (x : Pins) : (s.setPins x).own = s.own := own_congr rfl
@[simp] theorem State.setPins_isLoaded (x : Pins) : (s.setPins x).isLoaded = s.isLoaded := isLoaded_congr rfl

@[simp] theorem State.updCh_channels (c : Chan) (f : Channel → Channel) : (s.updCh c f).channels = s.channels.set c (f (s.ch c)) := rfl
@[simp] theorem State.updCh_cuts (c : Chan) (f : Channel → Channel) : (s.updCh c f).cuts = s.cuts := rfl
@[simp] theorem State.updCh_modulator (c : Chan) (f : Channel → Channel) : (s.updCh c f).modulator = s.modulator := rfl
@[simp] theorem State.updCh_timer (c : Chan) (f : Channel → Channel) : (s.updCh c f).timer = s.timer := rfl
@[simp] theorem State.updCh_sense (c : Chan) (f : Channel → Channel) : (s.updCh c f).sense = s.sense := rfl
@[simp] theorem State.updCh_signal (c : Chan) (f : Channel → Channel) : (s.updCh c f).signal = s.signal := rfl
@[simp] theorem State.updCh_link (c : Chan) (f : Channel → Channel) : (s.updCh c f).link = s.link := rfl
@[simp] theorem State.updCh_peers (c : Chan) (f : Channel → Channel) : (s.updCh c f).peers = s.peers := rfl
@[simp] theorem State.updCh_reservations (c : Chan) (f : Channel → Channel) : (s.updCh c f).reservations = s.reservations := rfl
@[simp] theorem State.updCh_budget (c : Chan) (f : Channel → Channel) : (s.updCh c f).budget = s.budget := rfl
@[simp] theorem State.updCh_sched (c : Chan) (f : Channel → Channel) : (s.updCh c f).sched = s.sched := rfl
@[simp] theorem State.updCh_diag (c : Chan) (f : Channel → Channel) : (s.updCh c f).diag = s.diag := rfl
@[simp] theorem State.updCh_loader (c : Chan) (f : Channel → Channel) : (s.updCh c f).loader = s.loader := rfl
@[simp] theorem State.updCh_pins (c : Chan) (f : Channel → Channel) : (s.updCh c f).pins = s.pins := rfl
@[simp] theorem State.updCh_pending (c : Chan) (f : Channel → Channel) : (s.updCh c f).pending = s.pending := rfl
@[simp] theorem State.updCh_peer (c : Chan) (f : Channel → Channel) (p : Stn) : (s.updCh c f).peer p = s.peer p := peer_congr rfl p
@[simp] theorem State.updCh_cfg (c : Chan) (f : Channel → Channel) (d : Chan) : (s.updCh c f).cfg d = s.cfg d := cfg_congr rfl d
@[simp] theorem State.updCh_params (c : Chan) (f : Channel → Channel) : (s.updCh c f).params = s.params := params_congr rfl
@[simp] theorem State.updCh_own (c : Chan) (f : Channel → Channel) : (s.updCh c f).own = s.own := own_congr rfl
@[simp] theorem State.updCh_isLoaded (c : Chan) (f : Channel → Channel) : (s.updCh c f).isLoaded = s.isLoaded := isLoaded_congr rfl

@[simp] theorem State.handOver_channels (f : Frame) : (s.handOver f).channels = s.channels := rfl
@[simp] theorem State.handOver_cuts (f : Frame) : (s.handOver f).cuts = s.cuts := rfl
@[simp] theorem State.handOver_modulator (f : Frame) : (s.handOver f).modulator = s.modulator := rfl
@[simp] theorem State.handOver_timer (f : Frame) : (s.handOver f).timer = s.timer := rfl
@[simp] theorem State.handOver_sense (f : Frame) : (s.handOver f).sense = s.sense := rfl
@[simp] theorem State.handOver_signal (f : Frame) : (s.handOver f).signal = s.signal := rfl
@[simp] theorem State.handOver_link (f : Frame) : (s.handOver f).link = s.link.handOver f := rfl
@[simp] theorem State.handOver_peers (f : Frame) : (s.handOver f).peers = s.peers := rfl
@[simp] theorem State.handOver_reservations (f : Frame) : (s.handOver f).reservations = s.reservations := rfl
@[simp] theorem State.handOver_budget (f : Frame) : (s.handOver f).budget = s.budget := rfl
@[simp] theorem State.handOver_sched (f : Frame) : (s.handOver f).sched = s.sched := rfl
@[simp] theorem State.handOver_diag (f : Frame) : (s.handOver f).diag = s.diag := rfl
@[simp] theorem State.handOver_loader (f : Frame) : (s.handOver f).loader = s.loader := rfl
@[simp] theorem State.handOver_pins (f : Frame) : (s.handOver f).pins = s.pins := rfl
@[simp] theorem State.handOver_pending (f : Frame) : (s.handOver f).pending = s.pending := rfl
@[simp] theorem State.handOver_ch (f : Frame) (d : Chan) : (s.handOver f).ch d = s.ch d := ch_congr rfl d
@[simp] theorem State.handOver_peer (f : Frame) (p : Stn) : (s.handOver f).peer p = s.peer p := peer_congr rfl p
@[simp] theorem State.handOver_cfg (f : Frame) (d : Chan) : (s.handOver f).cfg d = s.cfg d := cfg_congr rfl d
@[simp] theorem State.handOver_params (f : Frame) : (s.handOver f).params = s.params := params_congr rfl
@[simp] theorem State.handOver_own (f : Frame) : (s.handOver f).own = s.own := own_congr rfl
@[simp] theorem State.handOver_isLoaded (f : Frame) : (s.handOver f).isLoaded = s.isLoaded := isLoaded_congr rfl

@[simp] theorem State.withdraw_channels (x : Slot) : (s.withdraw x).channels = s.channels := rfl
@[simp] theorem State.withdraw_cuts (x : Slot) : (s.withdraw x).cuts = s.cuts := rfl
@[simp] theorem State.withdraw_modulator (x : Slot) : (s.withdraw x).modulator = s.modulator := rfl
@[simp] theorem State.withdraw_timer (x : Slot) : (s.withdraw x).timer = s.timer := rfl
@[simp] theorem State.withdraw_sense (x : Slot) : (s.withdraw x).sense = s.sense := rfl
@[simp] theorem State.withdraw_signal (x : Slot) : (s.withdraw x).signal = s.signal := rfl
@[simp] theorem State.withdraw_link (x : Slot) : (s.withdraw x).link = s.link.withdraw x := rfl
@[simp] theorem State.withdraw_peers (x : Slot) : (s.withdraw x).peers = s.peers := rfl
@[simp] theorem State.withdraw_reservations (x : Slot) : (s.withdraw x).reservations = s.reservations := rfl
@[simp] theorem State.withdraw_budget (x : Slot) : (s.withdraw x).budget = s.budget := rfl
@[simp] theorem State.withdraw_sched (x : Slot) : (s.withdraw x).sched = s.sched := rfl
@[simp] theorem State.withdraw_diag (x : Slot) : (s.withdraw x).diag = s.diag := rfl
@[simp] theorem State.withdraw_loader (x : Slot) : (s.withdraw x).loader = s.loader := rfl
@[simp] theorem State.withdraw_pins (x : Slot) : (s.withdraw x).pins = s.pins := rfl
@[simp] theorem State.withdraw_pending (x : Slot) : (s.withdraw x).pending = s.pending := rfl
@[simp] theorem State.withdraw_ch (x : Slot) (d : Chan) : (s.withdraw x).ch d = s.ch d := ch_congr rfl d
@[simp] theorem State.withdraw_peer (x : Slot) (p : Stn) : (s.withdraw x).peer p = s.peer p := peer_congr rfl p
@[simp] theorem State.withdraw_cfg (x : Slot) (d : Chan) : (s.withdraw x).cfg d = s.cfg d := cfg_congr rfl d
@[simp] theorem State.withdraw_params (x : Slot) : (s.withdraw x).params = s.params := params_congr rfl
@[simp] theorem State.withdraw_own (x : Slot) : (s.withdraw x).own = s.own := own_congr rfl
@[simp] theorem State.withdraw_isLoaded (x : Slot) : (s.withdraw x).isLoaded = s.isLoaded := isLoaded_congr rfl

@[simp] theorem State.setClaim_channels (x : Option Claim) : (s.setClaim x).channels = s.channels := rfl
@[simp] theorem State.setClaim_cuts (x : Option Claim) : (s.setClaim x).cuts = s.cuts := rfl
@[simp] theorem State.setClaim_modulator (x : Option Claim) : (s.setClaim x).modulator = s.modulator := rfl
@[simp] theorem State.setClaim_timer (x : Option Claim) : (s.setClaim x).timer = s.timer := rfl
@[simp] theorem State.setClaim_sense (x : Option Claim) : (s.setClaim x).sense = s.sense := rfl
@[simp] theorem State.setClaim_signal (x : Option Claim) : (s.setClaim x).signal = s.signal := rfl
@[simp] theorem State.setClaim_link (x : Option Claim) : (s.setClaim x).link = s.link := rfl
@[simp] theorem State.setClaim_peers (x : Option Claim) : (s.setClaim x).peers = s.peers := rfl
@[simp] theorem State.setClaim_reservations (x : Option Claim) : (s.setClaim x).reservations = s.reservations := rfl
@[simp] theorem State.setClaim_budget (x : Option Claim) : (s.setClaim x).budget = s.budget := rfl
@[simp] theorem State.setClaim_sched (x : Option Claim) : (s.setClaim x).sched = { s.sched with ordinary := x } := rfl
@[simp] theorem State.setClaim_diag (x : Option Claim) : (s.setClaim x).diag = s.diag := rfl
@[simp] theorem State.setClaim_loader (x : Option Claim) : (s.setClaim x).loader = s.loader := rfl
@[simp] theorem State.setClaim_pins (x : Option Claim) : (s.setClaim x).pins = s.pins := rfl
@[simp] theorem State.setClaim_pending (x : Option Claim) : (s.setClaim x).pending = s.pending := rfl
@[simp] theorem State.setClaim_ch (x : Option Claim) (d : Chan) : (s.setClaim x).ch d = s.ch d := ch_congr rfl d
@[simp] theorem State.setClaim_peer (x : Option Claim) (p : Stn) : (s.setClaim x).peer p = s.peer p := peer_congr rfl p
@[simp] theorem State.setClaim_cfg (x : Option Claim) (d : Chan) : (s.setClaim x).cfg d = s.cfg d := cfg_congr rfl d
@[simp] theorem State.setClaim_params (x : Option Claim) : (s.setClaim x).params = s.params := params_congr rfl
@[simp] theorem State.setClaim_own (x : Option Claim) : (s.setClaim x).own = s.own := own_congr rfl
@[simp] theorem State.setClaim_isLoaded (x : Option Claim) : (s.setClaim x).isLoaded = s.isLoaded := isLoaded_congr rfl

@[simp] theorem State.setQueue_channels (q : List Chan) : (s.setQueue q).channels = s.channels := rfl
@[simp] theorem State.setQueue_cuts (q : List Chan) : (s.setQueue q).cuts = s.cuts := rfl
@[simp] theorem State.setQueue_modulator (q : List Chan) : (s.setQueue q).modulator = s.modulator := rfl
@[simp] theorem State.setQueue_timer (q : List Chan) : (s.setQueue q).timer = s.timer := rfl
@[simp] theorem State.setQueue_sense (q : List Chan) : (s.setQueue q).sense = s.sense := rfl
@[simp] theorem State.setQueue_signal (q : List Chan) : (s.setQueue q).signal = s.signal := rfl
@[simp] theorem State.setQueue_link (q : List Chan) : (s.setQueue q).link = s.link := rfl
@[simp] theorem State.setQueue_peers (q : List Chan) : (s.setQueue q).peers = s.peers := rfl
@[simp] theorem State.setQueue_reservations (q : List Chan) : (s.setQueue q).reservations = s.reservations := rfl
@[simp] theorem State.setQueue_budget (q : List Chan) : (s.setQueue q).budget = s.budget := rfl
@[simp] theorem State.setQueue_sched (q : List Chan) : (s.setQueue q).sched = { s.sched with queue := q } := rfl
@[simp] theorem State.setQueue_diag (q : List Chan) : (s.setQueue q).diag = s.diag := rfl
@[simp] theorem State.setQueue_loader (q : List Chan) : (s.setQueue q).loader = s.loader := rfl
@[simp] theorem State.setQueue_pins (q : List Chan) : (s.setQueue q).pins = s.pins := rfl
@[simp] theorem State.setQueue_pending (q : List Chan) : (s.setQueue q).pending = s.pending := rfl
@[simp] theorem State.setQueue_ch (q : List Chan) (d : Chan) : (s.setQueue q).ch d = s.ch d := ch_congr rfl d
@[simp] theorem State.setQueue_peer (q : List Chan) (p : Stn) : (s.setQueue q).peer p = s.peer p := peer_congr rfl p
@[simp] theorem State.setQueue_cfg (q : List Chan) (d : Chan) : (s.setQueue q).cfg d = s.cfg d := cfg_congr rfl d
@[simp] theorem State.setQueue_params (q : List Chan) : (s.setQueue q).params = s.params := params_congr rfl
@[simp] theorem State.setQueue_own (q : List Chan) : (s.setQueue q).own = s.own := own_congr rfl
@[simp] theorem State.setQueue_isLoaded (q : List Chan) : (s.setQueue q).isLoaded = s.isLoaded := isLoaded_congr rfl

@[simp] theorem State.setAnnounce_channels (amount hold : Nat) : (s.setAnnounce amount hold).channels = s.channels := rfl
@[simp] theorem State.setAnnounce_cuts (amount hold : Nat) : (s.setAnnounce amount hold).cuts = s.cuts := rfl
@[simp] theorem State.setAnnounce_modulator (amount hold : Nat) : (s.setAnnounce amount hold).modulator = s.modulator := rfl
@[simp] theorem State.setAnnounce_timer (amount hold : Nat) : (s.setAnnounce amount hold).timer = s.timer := rfl
@[simp] theorem State.setAnnounce_sense (amount hold : Nat) : (s.setAnnounce amount hold).sense = s.sense := rfl
@[simp] theorem State.setAnnounce_signal (amount hold : Nat) : (s.setAnnounce amount hold).signal = s.signal := rfl
@[simp] theorem State.setAnnounce_link (amount hold : Nat) : (s.setAnnounce amount hold).link = s.link := rfl
@[simp] theorem State.setAnnounce_peers (amount hold : Nat) : (s.setAnnounce amount hold).peers = s.peers := rfl
@[simp] theorem State.setAnnounce_reservations (amount hold : Nat) : (s.setAnnounce amount hold).reservations = s.reservations := rfl
@[simp] theorem State.setAnnounce_budget (amount hold : Nat) : (s.setAnnounce amount hold).budget = s.budget := rfl
@[simp] theorem State.setAnnounce_sched (amount hold : Nat) : (s.setAnnounce amount hold).sched = { s.sched with announceAmount := amount, announceHold := hold } := rfl
@[simp] theorem State.setAnnounce_diag (amount hold : Nat) : (s.setAnnounce amount hold).diag = s.diag := rfl
@[simp] theorem State.setAnnounce_loader (amount hold : Nat) : (s.setAnnounce amount hold).loader = s.loader := rfl
@[simp] theorem State.setAnnounce_pins (amount hold : Nat) : (s.setAnnounce amount hold).pins = s.pins := rfl
@[simp] theorem State.setAnnounce_pending (amount hold : Nat) : (s.setAnnounce amount hold).pending = s.pending := rfl
@[simp] theorem State.setAnnounce_ch (amount hold : Nat) (d : Chan) : (s.setAnnounce amount hold).ch d = s.ch d := ch_congr rfl d
@[simp] theorem State.setAnnounce_peer (amount hold : Nat) (p : Stn) : (s.setAnnounce amount hold).peer p = s.peer p := peer_congr rfl p
@[simp] theorem State.setAnnounce_cfg (amount hold : Nat) (d : Chan) : (s.setAnnounce amount hold).cfg d = s.cfg d := cfg_congr rfl d
@[simp] theorem State.setAnnounce_params (amount hold : Nat) : (s.setAnnounce amount hold).params = s.params := params_congr rfl
@[simp] theorem State.setAnnounce_own (amount hold : Nat) : (s.setAnnounce amount hold).own = s.own := own_congr rfl
@[simp] theorem State.setAnnounce_isLoaded (amount hold : Nat) : (s.setAnnounce amount hold).isLoaded = s.isLoaded := isLoaded_congr rfl

@[simp] theorem State.setRotation_channels (n : Nat) : (s.setRotation n).channels = s.channels := rfl
@[simp] theorem State.setRotation_cuts (n : Nat) : (s.setRotation n).cuts = s.cuts := rfl
@[simp] theorem State.setRotation_modulator (n : Nat) : (s.setRotation n).modulator = s.modulator := rfl
@[simp] theorem State.setRotation_timer (n : Nat) : (s.setRotation n).timer = s.timer := rfl
@[simp] theorem State.setRotation_sense (n : Nat) : (s.setRotation n).sense = s.sense := rfl
@[simp] theorem State.setRotation_signal (n : Nat) : (s.setRotation n).signal = s.signal := rfl
@[simp] theorem State.setRotation_link (n : Nat) : (s.setRotation n).link = s.link := rfl
@[simp] theorem State.setRotation_peers (n : Nat) : (s.setRotation n).peers = s.peers := rfl
@[simp] theorem State.setRotation_reservations (n : Nat) : (s.setRotation n).reservations = s.reservations := rfl
@[simp] theorem State.setRotation_budget (n : Nat) : (s.setRotation n).budget = s.budget := rfl
@[simp] theorem State.setRotation_sched (n : Nat) : (s.setRotation n).sched = { s.sched with rotation := n } := rfl
@[simp] theorem State.setRotation_diag (n : Nat) : (s.setRotation n).diag = s.diag := rfl
@[simp] theorem State.setRotation_loader (n : Nat) : (s.setRotation n).loader = s.loader := rfl
@[simp] theorem State.setRotation_pins (n : Nat) : (s.setRotation n).pins = s.pins := rfl
@[simp] theorem State.setRotation_pending (n : Nat) : (s.setRotation n).pending = s.pending := rfl
@[simp] theorem State.setRotation_ch (n : Nat) (d : Chan) : (s.setRotation n).ch d = s.ch d := ch_congr rfl d
@[simp] theorem State.setRotation_peer (n : Nat) (p : Stn) : (s.setRotation n).peer p = s.peer p := peer_congr rfl p
@[simp] theorem State.setRotation_cfg (n : Nat) (d : Chan) : (s.setRotation n).cfg d = s.cfg d := cfg_congr rfl d
@[simp] theorem State.setRotation_params (n : Nat) : (s.setRotation n).params = s.params := params_congr rfl
@[simp] theorem State.setRotation_own (n : Nat) : (s.setRotation n).own = s.own := own_congr rfl
@[simp] theorem State.setRotation_isLoaded (n : Nat) : (s.setRotation n).isLoaded = s.isLoaded := isLoaded_congr rfl

@[simp] theorem State.listenAgain_channels : s.listenAgain.channels = s.channels := rfl
@[simp] theorem State.listenAgain_cuts : s.listenAgain.cuts = s.cuts := rfl
@[simp] theorem State.listenAgain_modulator : s.listenAgain.modulator = s.modulator := rfl
@[simp] theorem State.listenAgain_timer : s.listenAgain.timer = s.timer := rfl
@[simp] theorem State.listenAgain_sense : s.listenAgain.sense = s.sense := rfl
@[simp] theorem State.listenAgain_signal : s.listenAgain.signal = s.signal := rfl
@[simp] theorem State.listenAgain_link : s.listenAgain.link = s.link := rfl
@[simp] theorem State.listenAgain_peers : s.listenAgain.peers = s.peers := rfl
@[simp] theorem State.listenAgain_reservations : s.listenAgain.reservations = s.reservations := rfl
@[simp] theorem State.listenAgain_budget : s.listenAgain.budget = s.budget := rfl
@[simp] theorem State.listenAgain_sched : s.listenAgain.sched = { s.sched with listen := 2 } := rfl
@[simp] theorem State.listenAgain_diag : s.listenAgain.diag = s.diag := rfl
@[simp] theorem State.listenAgain_loader : s.listenAgain.loader = s.loader := rfl
@[simp] theorem State.listenAgain_pins : s.listenAgain.pins = s.pins := rfl
@[simp] theorem State.listenAgain_pending : s.listenAgain.pending = s.pending := rfl
@[simp] theorem State.listenAgain_ch (d : Chan) : s.listenAgain.ch d = s.ch d := ch_congr rfl d
@[simp] theorem State.listenAgain_peer (p : Stn) : s.listenAgain.peer p = s.peer p := peer_congr rfl p
@[simp] theorem State.listenAgain_cfg (d : Chan) : s.listenAgain.cfg d = s.cfg d := cfg_congr rfl d
@[simp] theorem State.listenAgain_params : s.listenAgain.params = s.params := params_congr rfl
@[simp] theorem State.listenAgain_own : s.listenAgain.own = s.own := own_congr rfl
@[simp] theorem State.listenAgain_isLoaded : s.listenAgain.isLoaded = s.isLoaded := isLoaded_congr rfl

@[simp] theorem State.setStore_channels (x : List StoreEntry) : (s.setStore x).channels = s.channels := rfl
@[simp] theorem State.setStore_cuts (x : List StoreEntry) : (s.setStore x).cuts = s.cuts := rfl
@[simp] theorem State.setStore_modulator (x : List StoreEntry) : (s.setStore x).modulator = s.modulator := rfl
@[simp] theorem State.setStore_timer (x : List StoreEntry) : (s.setStore x).timer = s.timer := rfl
@[simp] theorem State.setStore_sense (x : List StoreEntry) : (s.setStore x).sense = s.sense := rfl
@[simp] theorem State.setStore_signal (x : List StoreEntry) : (s.setStore x).signal = { s.signal with store := x } := rfl
@[simp] theorem State.setStore_link (x : List StoreEntry) : (s.setStore x).link = s.link := rfl
@[simp] theorem State.setStore_peers (x : List StoreEntry) : (s.setStore x).peers = s.peers := rfl
@[simp] theorem State.setStore_reservations (x : List StoreEntry) : (s.setStore x).reservations = s.reservations := rfl
@[simp] theorem State.setStore_budget (x : List StoreEntry) : (s.setStore x).budget = s.budget := rfl
@[simp] theorem State.setStore_sched (x : List StoreEntry) : (s.setStore x).sched = s.sched := rfl
@[simp] theorem State.setStore_diag (x : List StoreEntry) : (s.setStore x).diag = s.diag := rfl
@[simp] theorem State.setStore_loader (x : List StoreEntry) : (s.setStore x).loader = s.loader := rfl
@[simp] theorem State.setStore_pins (x : List StoreEntry) : (s.setStore x).pins = s.pins := rfl
@[simp] theorem State.setStore_pending (x : List StoreEntry) : (s.setStore x).pending = s.pending := rfl
@[simp] theorem State.setStore_ch (x : List StoreEntry) (d : Chan) : (s.setStore x).ch d = s.ch d := ch_congr rfl d
@[simp] theorem State.setStore_peer (x : List StoreEntry) (p : Stn) : (s.setStore x).peer p = s.peer p := peer_congr rfl p
@[simp] theorem State.setStore_cfg (x : List StoreEntry) (d : Chan) : (s.setStore x).cfg d = s.cfg d := cfg_congr rfl d
@[simp] theorem State.setStore_params (x : List StoreEntry) : (s.setStore x).params = s.params := params_congr rfl
@[simp] theorem State.setStore_own (x : List StoreEntry) : (s.setStore x).own = s.own := own_congr rfl
@[simp] theorem State.setStore_isLoaded (x : List StoreEntry) : (s.setStore x).isLoaded = s.isLoaded := isLoaded_congr rfl

@[simp] theorem State.refreshFault_channels : s.refreshFault.channels = s.channels := rfl
@[simp] theorem State.refreshFault_cuts : s.refreshFault.cuts = s.cuts := rfl
@[simp] theorem State.refreshFault_modulator : s.refreshFault.modulator = s.modulator := rfl
@[simp] theorem State.refreshFault_timer : s.refreshFault.timer = s.timer := rfl
@[simp] theorem State.refreshFault_sense : s.refreshFault.sense = s.sense := rfl
@[simp] theorem State.refreshFault_signal : s.refreshFault.signal = s.signal := rfl
@[simp] theorem State.refreshFault_link : s.refreshFault.link = s.link := rfl
@[simp] theorem State.refreshFault_peers : s.refreshFault.peers = s.peers := rfl
@[simp] theorem State.refreshFault_reservations : s.refreshFault.reservations = s.reservations := rfl
@[simp] theorem State.refreshFault_budget : s.refreshFault.budget = s.budget := rfl
@[simp] theorem State.refreshFault_sched : s.refreshFault.sched = s.sched := rfl
@[simp] theorem State.refreshFault_diag : s.refreshFault.diag = { s.diag with faultAsserted := s.faultCondition } := rfl
@[simp] theorem State.refreshFault_loader : s.refreshFault.loader = s.loader := rfl
@[simp] theorem State.refreshFault_pins : s.refreshFault.pins = s.pins := rfl
@[simp] theorem State.refreshFault_pending : s.refreshFault.pending = s.pending := rfl
@[simp] theorem State.refreshFault_ch (d : Chan) : s.refreshFault.ch d = s.ch d := ch_congr rfl d
@[simp] theorem State.refreshFault_peer (p : Stn) : s.refreshFault.peer p = s.peer p := peer_congr rfl p
@[simp] theorem State.refreshFault_cfg (d : Chan) : s.refreshFault.cfg d = s.cfg d := cfg_congr rfl d
@[simp] theorem State.refreshFault_params : s.refreshFault.params = s.params := params_congr rfl
@[simp] theorem State.refreshFault_own : s.refreshFault.own = s.own := own_congr rfl
@[simp] theorem State.refreshFault_isLoaded : s.refreshFault.isLoaded = s.isLoaded := isLoaded_congr rfl

@[simp] theorem State.refreshInUse_channels : s.refreshInUse.channels = s.channels := rfl
@[simp] theorem State.refreshInUse_cuts : s.refreshInUse.cuts = s.cuts := rfl
@[simp] theorem State.refreshInUse_modulator : s.refreshInUse.modulator = s.modulator := rfl
@[simp] theorem State.refreshInUse_timer : s.refreshInUse.timer = s.timer := rfl
@[simp] theorem State.refreshInUse_sense : s.refreshInUse.sense = s.sense := rfl
@[simp] theorem State.refreshInUse_signal : s.refreshInUse.signal = s.signal := rfl
@[simp] theorem State.refreshInUse_link : s.refreshInUse.link = s.link := rfl
@[simp] theorem State.refreshInUse_peers : s.refreshInUse.peers = s.peers := rfl
@[simp] theorem State.refreshInUse_reservations : s.refreshInUse.reservations = s.reservations := rfl
@[simp] theorem State.refreshInUse_budget : s.refreshInUse.budget = { s.budget with inUse := if s.alone then .alone else .zone } := rfl
@[simp] theorem State.refreshInUse_sched : s.refreshInUse.sched = s.sched := rfl
@[simp] theorem State.refreshInUse_diag : s.refreshInUse.diag = s.diag := rfl
@[simp] theorem State.refreshInUse_loader : s.refreshInUse.loader = s.loader := rfl
@[simp] theorem State.refreshInUse_pins : s.refreshInUse.pins = s.pins := rfl
@[simp] theorem State.refreshInUse_pending : s.refreshInUse.pending = s.pending := rfl
@[simp] theorem State.refreshInUse_ch (d : Chan) : s.refreshInUse.ch d = s.ch d := ch_congr rfl d
@[simp] theorem State.refreshInUse_peer (p : Stn) : s.refreshInUse.peer p = s.peer p := peer_congr rfl p
@[simp] theorem State.refreshInUse_cfg (d : Chan) : s.refreshInUse.cfg d = s.cfg d := cfg_congr rfl d
@[simp] theorem State.refreshInUse_params : s.refreshInUse.params = s.params := params_congr rfl
@[simp] theorem State.refreshInUse_own : s.refreshInUse.own = s.own := own_congr rfl
@[simp] theorem State.refreshInUse_isLoaded : s.refreshInUse.isLoaded = s.isLoaded := isLoaded_congr rfl

/-- Reading a channel after writing one. -/
theorem State.setCh_ch (c : Chan) (x : Channel) (d : Chan) : (s.setCh c x).ch d = if d = c then x else s.ch d := by
  by_cases h : d = c
  · subst h
    simp [State.ch, State.setCh]
  · have : (c : Nat) ≠ d := fun e => h (Fin.ext e.symm)
    simp [State.ch, State.setCh, h, this]

@[simp] theorem State.setCh_ch_self (c : Chan) (x : Channel) : (s.setCh c x).ch c = x := by simp [State.setCh_ch]

theorem State.setCh_ch_ne (c : Chan) (x : Channel) {d : Chan} (h : d ≠ c) : (s.setCh c x).ch d = s.ch d := by
  simp [State.setCh_ch, h]

/-- Reading a channel after changing one. -/
theorem State.updCh_ch (c : Chan) (f : Channel → Channel) (d : Chan) :
    (s.updCh c f).ch d = if d = c then f (s.ch c) else s.ch d := State.setCh_ch s c _ d

@[simp] theorem State.updCh_ch_self (c : Chan) (f : Channel → Channel) : (s.updCh c f).ch c = f (s.ch c) := by
  simp [State.updCh_ch]

theorem State.updCh_ch_ne (c : Chan) (f : Channel → Channel) {d : Chan} (h : d ≠ c) : (s.updCh c f).ch d = s.ch d := by
  simp [State.updCh_ch, h]

/-- Reading a channel after changing every channel. -/
@[simp] theorem State.mapCh_ch (f : Chan → Channel → Channel) (d : Chan) : (s.mapCh f).ch d = f d (s.ch d) := by
  simp [State.ch, State.mapCh]

/-- Reading a peer's entry after writing one. -/
theorem State.setPeer_peer (p : Stn) (e : PeerEntry) (q : Stn) :
    (s.setPeer p e).peer q = if q = p then e else s.peer q := by
  by_cases h : q = p
  · subst h
    simp [State.peer, State.setPeer]
  · have : (p : Nat) ≠ q := fun e => h (Fin.ext e.symm)
    simp [State.peer, State.setPeer, h, this]

@[simp] theorem State.setPeer_peer_self (p : Stn) (e : PeerEntry) : (s.setPeer p e).peer p = e := by
  simp [State.setPeer_peer]

/-- Reading a peer's entry after changing every entry. -/
@[simp] theorem State.mapPeers_peer (f : PeerEntry → PeerEntry) (q : Stn) : (s.mapPeers f).peer q = f (s.peer q) := by
  simp [State.peer, State.mapPeers]

/-- Two states with the same items for every channel hold the same channels. -/
theorem channels_ext {s t : State} (h : ∀ c, t.ch c = s.ch c) : t.channels = s.channels := by
  apply Vector.ext
  intro i hi
  exact h ⟨i, hi⟩

/-- Two states with the same entry for every peer hold the same table. -/
theorem peers_ext {s t : State} (h : ∀ p, t.peer p = s.peer p) : t.peers = s.peers := by
  apply Vector.ext
  intro i hi
  exact h ⟨i, hi⟩

/-- Before load end an event is not taken; after it, it is. -/
theorem whenLoaded_of (f : State → State) (h : s.isLoaded = true) : whenLoaded f s = f s := by simp [whenLoaded, h]

theorem whenLoaded_not (f : State → State) (h : s.isLoaded = false) : whenLoaded f s = s := by simp [whenLoaded, h]

end Sys2Proof.Machine
end

