-- ==== Sys2Proof/Laws/Frames.lean ====
section
/-! SUPPORT. What an event that reaches the channels can change beyond them: each operation of the Channel Controller, the
Sense Unit and the Signal Unit's resolution leaves the state as it was but for the channels, the cut causes, the Turn-On
Scheduler, the transmit slots and the FAULT pin. `blank` wipes just those, so that one equation says it. -/

namespace Sys2Proof.Machine

/-- The Link Controller without what a hand-over or a withdrawal may change (R88–R90). -/
def LinkController.blank (l : LinkController) : LinkController :=
  { l with slots := LinkController.reset.slots, heldAside := none, lineWithdrawn := false }

/-- The state without what an event at the channels may change. -/
def State.blank (s : State) : State :=
  { s with channels := State.reset.channels, cuts := State.reset.cuts, sched := State.reset.sched, link := s.link.blank
           diag := { s.diag with faultAsserted := false } }

@[simp] theorem LinkController.setSlot_blank (l : LinkController) (x : Slot) (f : Option Frame) :
    (l.setSlot x f).blank = l.blank := by simp only [LinkController.setSlot, LinkController.blank]

@[simp] theorem LinkController.place_blank (l : LinkController) (f : Frame) : (l.place f).blank = l.blank := by
  unfold LinkController.place
  split
  · simp only [LinkController.blank]
  · simp

/-- While the RELEASE slot is on the line, what is held aside behind it is removed (R90). -/
theorem LinkController.dropRelease_onLine {l : LinkController} {ty : ResType} (h : l.onLine = some (.release ty)) :
    l.dropRelease ty = { l with heldAside := none } := if_pos h

/-- While it is not, the slot is emptied (R90). -/
theorem LinkController.dropRelease_offLine {l : LinkController} {ty : ResType} (h : l.onLine ≠ some (.release ty)) :
    l.dropRelease ty = l.setSlot (.release ty) none := if_neg h

@[simp] theorem LinkController.dropRelease_blank (l : LinkController) (ty : ResType) :
    (l.dropRelease ty).blank = l.blank := by
  unfold LinkController.dropRelease
  split
  · simp only [LinkController.blank]
  · simp

@[simp] theorem LinkController.placeReserve_blank (l : LinkController) (ty : ResType) (f : Frame) :
    (l.placeReserve ty f).blank = l.blank := by simp [LinkController.placeReserve]

@[simp] theorem LinkController.placeRelease_blank (l : LinkController) (ty : ResType) (f : Frame) :
    (l.placeRelease ty f).blank = l.blank := by
  simp only [LinkController.placeRelease]
  split
  · split <;> simp
  · simp

/-- A hand-over changes the slots and the frame held aside alone (R88, R90, R92). -/
@[simp] theorem LinkController.handOver_blank (l : LinkController) (f : Frame) : (l.handOver f).blank = l.blank := by
  unfold LinkController.handOver
  split
  · rfl
  · split <;> simp

/-- A withdrawal changes the slots, the frame held aside and its own note alone (R89). -/
@[simp] theorem LinkController.withdraw_blank (l : LinkController) (x : Slot) : (l.withdraw x).blank = l.blank := by
  unfold LinkController.withdraw
  split
  · simp only [LinkController.blank]
  · simp

section
variable (s : State)

@[simp] theorem setCh_blank (c : Chan) (x : Channel) : (s.setCh c x).blank = s.blank := by
  simp only [State.blank, State.setCh]

@[simp] theorem updCh_blank (c : Chan) (f : Channel → Channel) : (s.updCh c f).blank = s.blank := setCh_blank s c _

@[simp] theorem mapCh_blank (f : Chan → Channel → Channel) : (s.mapCh f).blank = s.blank := by
  simp only [State.blank, State.mapCh]

@[simp] theorem setSched_blank (x : Scheduler) : (s.setSched x).blank = s.blank := by
  simp only [State.blank, State.setSched]

@[simp] theorem setClaim_blank (x : Option Claim) : (s.setClaim x).blank = s.blank := setSched_blank s _

@[simp] theorem setQueue_blank (q : List Chan) : (s.setQueue q).blank = s.blank := setSched_blank s _

@[simp] theorem setAnnounce_blank (a h : Nat) : (s.setAnnounce a h).blank = s.blank := setSched_blank s _

@[simp] theorem setRotation_blank (n : Nat) : (s.setRotation n).blank = s.blank := setSched_blank s _

@[simp] theorem setCauses_blank (x : CutCauses) : (s.setCauses x).blank = s.blank := by
  simp only [State.blank, State.setCauses]

@[simp] theorem handOver_blank (f : Frame) : (s.handOver f).blank = s.blank := by
  simp only [State.blank, State.handOver, State.setLink, LinkController.handOver_blank]

@[simp] theorem withdraw_blank (x : Slot) : (s.withdraw x).blank = s.blank := by
  simp only [State.blank, State.withdraw, State.setLink, LinkController.withdraw_blank]

@[simp] theorem refreshFault_blank : s.refreshFault.blank = s.blank := by
  simp only [State.blank, State.refreshFault, State.setDiag]

end

/-- An event at each channel in turn changes no more than each does. -/
theorem forChans_blank {f : Chan → State → State} (h : ∀ c s, (f c s).blank = s.blank) (s : State) :
    (forChans f s).blank = s.blank := by
  unfold forChans
  generalize allChans = l
  induction l generalizing s with
  | nil => rfl
  | cons c rest ih => rw [List.foldl_cons, ih, h]

/-- Orders to each of a list of channels change no more than each does. -/
theorem foldl_blank {α : Type} {f : State → α → State} (h : ∀ s a, (f s a).blank = s.blank) (l : List α) (s : State) :
    (l.foldl f s).blank = s.blank := by
  induction l generalizing s with
  | nil => rfl
  | cons c rest ih => rw [List.foldl_cons, ih, h]

@[simp] theorem joined_blank (c : Chan) (s : State) : (joined c s).blank = s.blank := by
  simp [joined]

@[simp] theorem releaseClaim_blank (x : Claim) (s : State) : (releaseClaim x s).blank = s.blank := by
  unfold releaseClaim
  split <;> simp

@[simp] theorem leftQueue_blank (c : Chan) (s : State) : (leftQueue c s).blank = s.blank := by
  simp only [leftQueue]
  split
  · simp
  · split
    · split <;> simp
    · simp

@[simp] theorem surgeOver_blank (c : Chan) (s : State) : (surgeOver c s).blank = s.blank := by
  unfold surgeOver
  split
  · rfl
  · split <;> simp

@[simp] theorem announceLowered_blank (c : Chan) (s : State) : (announceLowered c s).blank = s.blank := by
  simp only [announceLowered]
  split <;> simp

@[simp] theorem inrushEnded_blank (c : Chan) (s : State) : (inrushEnded c s).blank = s.blank := by
  unfold inrushEnded
  split <;> simp

@[simp] theorem inrushBegun_blank (c : Chan) (s : State) : (inrushBegun c s).blank = s.blank := by
  simp only [inrushBegun]
  split <;> simp

@[simp] theorem announceAgain_blank (s : State) : (announceAgain s).blank = s.blank := by
  unfold announceAgain
  split
  · split <;> simp
  · rfl

/-- The notices of a transition (R8). -/
@[simp] theorem notices_blank (c : Chan) (old st : ChState) (s : State) : (notices c old st s).blank = s.blank := by
  simp only [notices]
  split_ifs <;> simp

/-- Entering a state (R3–R5, R8, R11). -/
@[simp] theorem enter_blank (c : Chan) (st : ChState) (r : ShedReason) (s : State) : (enter c st r s).blank = s.blank := by
  simp [enter]

@[simp] theorem switchOn_blank (c : Chan) (s : State) : (switchOn c s).blank = s.blank := by
  unfold switchOn
  split <;> simp

/-- A demand level delivered (R7). -/
@[simp] theorem deliver_blank (c : Chan) (level : Nat) (s : State) : (deliver c level s).blank = s.blank := by
  simp only [deliver]
  split <;> split_ifs <;> simp

@[simp] theorem grant_blank (c : Chan) (s : State) : (grant c s).blank = s.blank := by
  unfold grant
  split <;> simp

@[simp] theorem retryAtChannel_blank (c : Chan) (s : State) : (retryAtChannel c s).blank = s.blank := by
  unfold retryAtChannel
  split <;> simp

@[simp] theorem retake_blank (c : Chan) (s : State) : (retake c s).blank = s.blank := by
  simp only [retake]
  split <;> simp

@[simp] theorem releaseLatch_blank (c : Chan) (s : State) : (releaseLatch c s).blank = s.blank := by
  unfold releaseLatch
  split <;> simp

@[simp] theorem shed_blank (c : Chan) (r : ShedReason) (s : State) : (shed c r s).blank = s.blank := by
  unfold shed
  split <;> simp

@[simp] theorem setCap_blank (c : Chan) (n : Nat) (s : State) : (setCap c n s).blank = s.blank := by
  simp [setCap]

@[simp] theorem throttle_blank (c : Chan) (n : Nat) (s : State) : (throttle c n s).blank = s.blank := by
  unfold throttle
  split_ifs <;> simp

@[simp] theorem capRaise_blank (c : Chan) (n : Nat) (s : State) : (capRaise c n s).blank = s.blank := by
  unfold capRaise
  split <;> simp

@[simp] theorem restore_blank (c : Chan) (s : State) : (restore c s).blank = s.blank := by
  unfold restore
  split <;> simp

@[simp] theorem cutBegins_blank (s : State) : (cutBegins s).blank = s.blank := by
  exact forChans_blank (fun c s => enter_blank c _ _ s) s

@[simp] theorem cutEnds_blank (s : State) : (cutEnds s).blank = s.blank := by
  exact forChans_blank (fun c s => by split <;> simp) s

/-- A change of the cut causes (R19, R20). -/
@[simp] theorem changeCauses_blank (x : CutCauses) (s : State) : (changeCauses x s).blank = s.blank := by
  simp only [changeCauses]
  split_ifs <;> simp

@[simp] theorem setIsolateCause_blank (high : Bool) (s : State) : (setIsolateCause high s).blank = s.blank := by
  simp [setIsolateCause]

@[simp] theorem setSupplyCause_blank (low : Bool) (s : State) : (setSupplyCause low s).blank = s.blank := by
  simp [setSupplyCause]

/-- A trip (R13, R52–R54). -/
@[simp] theorem trip_blank (c : Chan) (k : FaultKind) (current step : Nat) (s : State) : (trip c k current step s).blank = s.blank := by
  simp only [trip]
  split <;> simp

@[simp] theorem cutOff_blank (c : Chan) (s : State) : (cutOff c s).blank = s.blank := by
  simp [cutOff]

@[simp] theorem overcurrent_blank (c : Chan) (sample step : Nat) (s : State) : (overcurrent c sample step s).blank = s.blank := by
  unfold overcurrent
  split_ifs <;> simp

/-- The end of an inrush window (R12, R51). -/
@[simp] theorem windowEnd_blank (c : Chan) (s : State) : (windowEnd c s).blank = s.blank := by
  unfold windowEnd
  split
  · split
    · split <;> simp
    · simp
  · rfl

@[simp] theorem retryDue_blank (c : Chan) (s : State) : (retryDue c s).blank = s.blank := by
  unfold retryDue
  split <;> simp

@[simp] theorem attemptReset_blank (c : Chan) (s : State) : (attemptReset c s).blank = s.blank := by
  unfold attemptReset
  split <;> simp

@[simp] theorem clearRecord_blank (c : Chan) (s : State) : (clearRecord c s).blank = s.blank := by
  simp [clearRecord]

@[simp] theorem clearChannel_blank (c : Chan) (s : State) : (clearChannel c s).blank = s.blank := by
  simp [clearChannel]

@[simp] theorem clearOne_blank (c : Chan) (s : State) : (clearOne c s).blank = s.blank := by
  simp [clearOne]

@[simp] theorem resolveOne_blank (c : Chan) (s : State) : (resolveOne c s).blank = s.blank := by
  unfold resolveOne
  split <;> simp

/-- Resolution (R73). -/
@[simp] theorem resolve_blank (test : Chan → Bool) (s : State) : (resolve test s).blank = s.blank := by
  exact forChans_blank (fun c s => by split <;> simp) s

/-- The orders of the Budget Unit leave all that `blank` keeps (R16–R18). -/
theorem orders_keep_blank : OrdersKeep fun s t => t.blank = s.blank where
  refl _ := rfl
  trans h g := g.trans h
  shed c _ s _ := shed_blank c _ s
  throttle c _ s _ := throttle_blank c _ s
  capRaise c _ s := capRaise_blank c _ s
  restore c s := restore_blank c s

@[simp] theorem shedForSupply_blank (s : State) : (shedForSupply s).blank = s.blank :=
  (shedForSupplyAmid_leads orders_keep_blank { between := [], now := s } (fun _ h => nomatch h)).1

/-- A cut applied in one class (R124–R126). -/
@[simp] theorem applyCut_blank (k : Cls) (r : Nat) (s : State) : (applyCut k r s).blank = s.blank :=
  (applyCutAmid_leads orders_keep_blank k r { between := [], now := s } (fun _ h => nomatch h)).1

/-- A restore step (R130). -/
@[simp] theorem restoreStep_blank (k : Cls) (s : State) : (restoreStep k s).blank = s.blank :=
  (restoreStepAmid_leads orders_keep_blank k { between := [], now := s } (fun _ h => nomatch h)).1

@[simp] theorem holdClaim_blank (x : Claim) (s : State) : (holdClaim x s).blank = s.blank := by
  simp [holdClaim]

@[simp] theorem refuse_blank (x : Claim) (s : State) : (refuse x s).blank = s.blank := by
  simp [refuse]

/-- The steps of the admission decision leave all that `blank` keeps (R145, R146). -/
theorem admission_keeps_blank : AdmissionKeeps fun s t => t.blank = s.blank where
  refl _ := rfl
  trans h g := g.trans h
  hold x s := holdClaim_blank x s
  grant c s := grant_blank c s
  refuse x s := refuse_blank x s

@[simp] theorem decideAdmission_blank (s : State) : (decideAdmission s).blank = s.blank :=
  decideAdmissionAmid_keeps admission_keeps_blank (events := []) (fun _ h => nomatch h) s

@[simp] theorem select_blank (s : State) : (select s).blank = s.blank := by
  unfold select
  split
  · split
    · simp only []
      split_ifs <;> simp
    · rfl
  · rfl

/-- Admission and selection (R141, R145). -/
@[simp] theorem budgetEvaluated_blank (s : State) : (budgetEvaluated s).blank = s.blank := by
  exact (select_blank _).trans (decideAdmission_blank s)

section
variable {s t : State} (h : t.blank = s.blank)

include h

theorem modulator_of_blank : t.modulator = s.modulator := by
  have e := congrArg State.modulator h
  exact e

theorem timer_of_blank : t.timer = s.timer := by
  have e := congrArg State.timer h
  exact e

theorem sense_of_blank : t.sense = s.sense := by
  have e := congrArg State.sense h
  exact e

theorem signal_of_blank : t.signal = s.signal := by
  have e := congrArg State.signal h
  exact e

theorem peers_of_blank : t.peers = s.peers := by
  have e := congrArg State.peers h
  exact e

theorem reservations_of_blank : t.reservations = s.reservations := by
  have e := congrArg State.reservations h
  exact e

theorem budget_of_blank : t.budget = s.budget := by
  have e := congrArg State.budget h
  exact e

theorem loader_of_blank : t.loader = s.loader := by
  have e := congrArg State.loader h
  exact e

theorem pins_of_blank : t.pins = s.pins := by
  have e := congrArg State.pins h
  exact e

theorem pending_of_blank : t.pending = s.pending := by
  have e := congrArg State.pending h
  exact e

theorem link_of_blank : t.link.blank = s.link.blank := by
  have e := congrArg State.link h
  exact e

theorem reportPending_of_blank : t.diag.reportPending = s.diag.reportPending := by
  have e := congrArg (fun x : State => x.diag.reportPending) h
  exact e

theorem overruns_of_blank : t.diag.overruns = s.diag.overruns := by
  have e := congrArg (fun x : State => x.diag.overruns) h
  exact e

theorem clashFlag_of_blank : t.diag.clashFlag = s.diag.clashFlag := by
  have e := congrArg (fun x : State => x.diag.clashFlag) h
  exact e

theorem onLine_of_blank : t.link.onLine = s.link.onLine := by
  have e := congrArg (fun x : State => x.link.onLine) h
  exact e

theorem muted_of_blank : t.link.muted = s.link.muted := by
  have e := congrArg (fun x : State => x.link.muted) h
  exact e

theorem isolated_of_blank : t.link.isolated = s.link.isolated := by
  have e := congrArg (fun x : State => x.link.isolated) h
  exact e

theorem txErr_of_blank : t.link.txErr = s.link.txErr := by
  have e := congrArg (fun x : State => x.link.txErr) h
  exact e

end

section
variable {s t : State} (h : t.blank = s.blank)

include h

theorem cfg_of_blank (c : Chan) : t.cfg c = s.cfg c := cfg_congr (loader_of_blank h) c

theorem params_of_blank : t.params = s.params := params_congr (loader_of_blank h)

theorem own_of_blank : t.own = s.own := own_congr (loader_of_blank h)

end

@[simp] theorem joined_loader (c : Chan) (s : State) : (joined c s).loader = s.loader := loader_of_blank (by simp)

@[simp] theorem joined_cfg (c : Chan) (s : State) (d : Chan) : (joined c s).cfg d = s.cfg d := cfg_of_blank (by simp) d

@[simp] theorem releaseClaim_loader (x : Claim) (s : State) : (releaseClaim x s).loader = s.loader := loader_of_blank (by simp)

@[simp] theorem releaseClaim_cfg (x : Claim) (s : State) (d : Chan) : (releaseClaim x s).cfg d = s.cfg d := cfg_of_blank (by simp) d

@[simp] theorem leftQueue_loader (c : Chan) (s : State) : (leftQueue c s).loader = s.loader := loader_of_blank (by simp)

@[simp] theorem leftQueue_cfg (c : Chan) (s : State) (d : Chan) : (leftQueue c s).cfg d = s.cfg d := cfg_of_blank (by simp) d

@[simp] theorem surgeOver_loader (c : Chan) (s : State) : (surgeOver c s).loader = s.loader := loader_of_blank (by simp)

@[simp] theorem surgeOver_cfg (c : Chan) (s : State) (d : Chan) : (surgeOver c s).cfg d = s.cfg d := cfg_of_blank (by simp) d

@[simp] theorem announceLowered_loader (c : Chan) (s : State) : (announceLowered c s).loader = s.loader := loader_of_blank (by simp)

@[simp] theorem announceLowered_cfg (c : Chan) (s : State) (d : Chan) : (announceLowered c s).cfg d = s.cfg d := cfg_of_blank (by simp) d

@[simp] theorem inrushEnded_loader (c : Chan) (s : State) : (inrushEnded c s).loader = s.loader := loader_of_blank (by simp)

@[simp] theorem inrushEnded_cfg (c : Chan) (s : State) (d : Chan) : (inrushEnded c s).cfg d = s.cfg d := cfg_of_blank (by simp) d

@[simp] theorem inrushBegun_loader (c : Chan) (s : State) : (inrushBegun c s).loader = s.loader := loader_of_blank (by simp)

@[simp] theorem inrushBegun_cfg (c : Chan) (s : State) (d : Chan) : (inrushBegun c s).cfg d = s.cfg d := cfg_of_blank (by simp) d

@[simp] theorem announceAgain_loader (s : State) : (announceAgain s).loader = s.loader := loader_of_blank (by simp)

@[simp] theorem announceAgain_cfg (s : State) (d : Chan) : (announceAgain s).cfg d = s.cfg d := cfg_of_blank (by simp) d

@[simp] theorem notices_loader (c : Chan) (old st : ChState) (s : State) : (notices c old st s).loader = s.loader := loader_of_blank (by simp)

@[simp] theorem notices_cfg (c : Chan) (old st : ChState) (s : State) (d : Chan) : (notices c old st s).cfg d = s.cfg d := cfg_of_blank (by simp) d

@[simp] theorem enter_loader (c : Chan) (st : ChState) (r : ShedReason) (s : State) : (enter c st r s).loader = s.loader := loader_of_blank (by simp)

@[simp] theorem enter_cfg (c : Chan) (st : ChState) (r : ShedReason) (s : State) (d : Chan) : (enter c st r s).cfg d = s.cfg d := cfg_of_blank (by simp) d

@[simp] theorem switchOn_loader (c : Chan) (s : State) : (switchOn c s).loader = s.loader := loader_of_blank (by simp)

@[simp] theorem switchOn_cfg (c : Chan) (s : State) (d : Chan) : (switchOn c s).cfg d = s.cfg d := cfg_of_blank (by simp) d

@[simp] theorem deliver_loader (c : Chan) (level : Nat) (s : State) : (deliver c level s).loader = s.loader := loader_of_blank (by simp)

@[simp] theorem deliver_cfg (c : Chan) (level : Nat) (s : State) (d : Chan) : (deliver c level s).cfg d = s.cfg d := cfg_of_blank (by simp) d

@[simp] theorem grant_loader (c : Chan) (s : State) : (grant c s).loader = s.loader := loader_of_blank (by simp)

@[simp] theorem grant_cfg (c : Chan) (s : State) (d : Chan) : (grant c s).cfg d = s.cfg d := cfg_of_blank (by simp) d

@[simp] theorem retryAtChannel_loader (c : Chan) (s : State) : (retryAtChannel c s).loader = s.loader := loader_of_blank (by simp)

@[simp] theorem retryAtChannel_cfg (c : Chan) (s : State) (d : Chan) : (retryAtChannel c s).cfg d = s.cfg d := cfg_of_blank (by simp) d

@[simp] theorem retake_loader (c : Chan) (s : State) : (retake c s).loader = s.loader := loader_of_blank (by simp)

@[simp] theorem retake_cfg (c : Chan) (s : State) (d : Chan) : (retake c s).cfg d = s.cfg d := cfg_of_blank (by simp) d

@[simp] theorem releaseLatch_loader (c : Chan) (s : State) : (releaseLatch c s).loader = s.loader := loader_of_blank (by simp)

@[simp] theorem releaseLatch_cfg (c : Chan) (s : State) (d : Chan) : (releaseLatch c s).cfg d = s.cfg d := cfg_of_blank (by simp) d

@[simp] theorem shed_loader (c : Chan) (r : ShedReason) (s : State) : (shed c r s).loader = s.loader := loader_of_blank (by simp)

@[simp] theorem shed_cfg (c : Chan) (r : ShedReason) (s : State) (d : Chan) : (shed c r s).cfg d = s.cfg d := cfg_of_blank (by simp) d

@[simp] theorem setCap_loader (c : Chan) (n : Nat) (s : State) : (setCap c n s).loader = s.loader := loader_of_blank (by simp)

@[simp] theorem setCap_cfg (c : Chan) (n : Nat) (s : State) (d : Chan) : (setCap c n s).cfg d = s.cfg d := cfg_of_blank (by simp) d

@[simp] theorem throttle_loader (c : Chan) (n : Nat) (s : State) : (throttle c n s).loader = s.loader := loader_of_blank (by simp)

@[simp] theorem throttle_cfg (c : Chan) (n : Nat) (s : State) (d : Chan) : (throttle c n s).cfg d = s.cfg d := cfg_of_blank (by simp) d

@[simp] theorem capRaise_loader (c : Chan) (n : Nat) (s : State) : (capRaise c n s).loader = s.loader := loader_of_blank (by simp)

@[simp] theorem capRaise_cfg (c : Chan) (n : Nat) (s : State) (d : Chan) : (capRaise c n s).cfg d = s.cfg d := cfg_of_blank (by simp) d

@[simp] theorem restore_loader (c : Chan) (s : State) : (restore c s).loader = s.loader := loader_of_blank (by simp)

@[simp] theorem restore_cfg (c : Chan) (s : State) (d : Chan) : (restore c s).cfg d = s.cfg d := cfg_of_blank (by simp) d

@[simp] theorem cutBegins_loader (s : State) : (cutBegins s).loader = s.loader := loader_of_blank (by simp)

@[simp] theorem cutBegins_cfg (s : State) (d : Chan) : (cutBegins s).cfg d = s.cfg d := cfg_of_blank (by simp) d

@[simp] theorem cutEnds_loader (s : State) : (cutEnds s).loader = s.loader := loader_of_blank (by simp)

@[simp] theorem cutEnds_cfg (s : State) (d : Chan) : (cutEnds s).cfg d = s.cfg d := cfg_of_blank (by simp) d

@[simp] theorem changeCauses_loader (x : CutCauses) (s : State) : (changeCauses x s).loader = s.loader := loader_of_blank (by simp)

@[simp] theorem changeCauses_cfg (x : CutCauses) (s : State) (d : Chan) : (changeCauses x s).cfg d = s.cfg d := cfg_of_blank (by simp) d

@[simp] theorem setIsolateCause_loader (high : Bool) (s : State) : (setIsolateCause high s).loader = s.loader := loader_of_blank (by simp)

@[simp] theorem setIsolateCause_cfg (high : Bool) (s : State) (d : Chan) : (setIsolateCause high s).cfg d = s.cfg d := cfg_of_blank (by simp) d

@[simp] theorem setSupplyCause_loader (low : Bool) (s : State) : (setSupplyCause low s).loader = s.loader := loader_of_blank (by simp)

@[simp] theorem setSupplyCause_cfg (low : Bool) (s : State) (d : Chan) : (setSupplyCause low s).cfg d = s.cfg d := cfg_of_blank (by simp) d

@[simp] theorem trip_loader (c : Chan) (k : FaultKind) (current step : Nat) (s : State) : (trip c k current step s).loader = s.loader := loader_of_blank (by simp)

@[simp] theorem trip_cfg (c : Chan) (k : FaultKind) (current step : Nat) (s : State) (d : Chan) : (trip c k current step s).cfg d = s.cfg d := cfg_of_blank (by simp) d

@[simp] theorem cutOff_loader (c : Chan) (s : State) : (cutOff c s).loader = s.loader := loader_of_blank (by simp)

@[simp] theorem cutOff_cfg (c : Chan) (s : State) (d : Chan) : (cutOff c s).cfg d = s.cfg d := cfg_of_blank (by simp) d

@[simp] theorem overcurrent_loader (c : Chan) (sample step : Nat) (s : State) : (overcurrent c sample step s).loader = s.loader := loader_of_blank (by simp)

@[simp] theorem overcurrent_cfg (c : Chan) (sample step : Nat) (s : State) (d : Chan) : (overcurrent c sample step s).cfg d = s.cfg d := cfg_of_blank (by simp) d

@[simp] theorem windowEnd_loader (c : Chan) (s : State) : (windowEnd c s).loader = s.loader := loader_of_blank (by simp)

@[simp] theorem windowEnd_cfg (c : Chan) (s : State) (d : Chan) : (windowEnd c s).cfg d = s.cfg d := cfg_of_blank (by simp) d

@[simp] theorem retryDue_loader (c : Chan) (s : State) : (retryDue c s).loader = s.loader := loader_of_blank (by simp)

@[simp] theorem retryDue_cfg (c : Chan) (s : State) (d : Chan) : (retryDue c s).cfg d = s.cfg d := cfg_of_blank (by simp) d

@[simp] theorem attemptReset_loader (c : Chan) (s : State) : (attemptReset c s).loader = s.loader := loader_of_blank (by simp)

@[simp] theorem attemptReset_cfg (c : Chan) (s : State) (d : Chan) : (attemptReset c s).cfg d = s.cfg d := cfg_of_blank (by simp) d

@[simp] theorem clearRecord_loader (c : Chan) (s : State) : (clearRecord c s).loader = s.loader := loader_of_blank (by simp)

@[simp] theorem clearRecord_cfg (c : Chan) (s : State) (d : Chan) : (clearRecord c s).cfg d = s.cfg d := cfg_of_blank (by simp) d

@[simp] theorem clearChannel_loader (c : Chan) (s : State) : (clearChannel c s).loader = s.loader := loader_of_blank (by simp)

@[simp] theorem clearChannel_cfg (c : Chan) (s : State) (d : Chan) : (clearChannel c s).cfg d = s.cfg d := cfg_of_blank (by simp) d

@[simp] theorem clearOne_loader (c : Chan) (s : State) : (clearOne c s).loader = s.loader := loader_of_blank (by simp)

@[simp] theorem clearOne_cfg (c : Chan) (s : State) (d : Chan) : (clearOne c s).cfg d = s.cfg d := cfg_of_blank (by simp) d

@[simp] theorem resolveOne_loader (c : Chan) (s : State) : (resolveOne c s).loader = s.loader := loader_of_blank (by simp)

@[simp] theorem resolveOne_cfg (c : Chan) (s : State) (d : Chan) : (resolveOne c s).cfg d = s.cfg d := cfg_of_blank (by simp) d

@[simp] theorem resolve_loader (test : Chan → Bool) (s : State) : (resolve test s).loader = s.loader := loader_of_blank (by simp)

@[simp] theorem resolve_cfg (test : Chan → Bool) (s : State) (d : Chan) : (resolve test s).cfg d = s.cfg d := cfg_of_blank (by simp) d

@[simp] theorem shedForSupply_loader (s : State) : (shedForSupply s).loader = s.loader := loader_of_blank (by simp)

@[simp] theorem shedForSupply_cfg (s : State) (d : Chan) : (shedForSupply s).cfg d = s.cfg d := cfg_of_blank (by simp) d

@[simp] theorem applyCut_loader (k : Cls) (r : Nat) (s : State) : (applyCut k r s).loader = s.loader := loader_of_blank (by simp)

@[simp] theorem applyCut_cfg (k : Cls) (r : Nat) (s : State) (d : Chan) : (applyCut k r s).cfg d = s.cfg d := cfg_of_blank (by simp) d

@[simp] theorem restoreStep_loader (k : Cls) (s : State) : (restoreStep k s).loader = s.loader := loader_of_blank (by simp)

@[simp] theorem restoreStep_cfg (k : Cls) (s : State) (d : Chan) : (restoreStep k s).cfg d = s.cfg d := cfg_of_blank (by simp) d

@[simp] theorem holdClaim_loader (x : Claim) (s : State) : (holdClaim x s).loader = s.loader := loader_of_blank (by simp)

@[simp] theorem holdClaim_cfg (x : Claim) (s : State) (d : Chan) : (holdClaim x s).cfg d = s.cfg d := cfg_of_blank (by simp) d

@[simp] theorem refuse_loader (x : Claim) (s : State) : (refuse x s).loader = s.loader := loader_of_blank (by simp)

@[simp] theorem refuse_cfg (x : Claim) (s : State) (d : Chan) : (refuse x s).cfg d = s.cfg d := cfg_of_blank (by simp) d

@[simp] theorem decideAdmission_loader (s : State) : (decideAdmission s).loader = s.loader := loader_of_blank (by simp)

@[simp] theorem decideAdmission_cfg (s : State) (d : Chan) : (decideAdmission s).cfg d = s.cfg d := cfg_of_blank (by simp) d

@[simp] theorem select_loader (s : State) : (select s).loader = s.loader := loader_of_blank (by simp)

@[simp] theorem select_cfg (s : State) (d : Chan) : (select s).cfg d = s.cfg d := cfg_of_blank (by simp) d

@[simp] theorem budgetEvaluated_loader (s : State) : (budgetEvaluated s).loader = s.loader := loader_of_blank (by simp)

@[simp] theorem budgetEvaluated_cfg (s : State) (d : Chan) : (budgetEvaluated s).cfg d = s.cfg d := cfg_of_blank (by simp) d

end Sys2Proof.Machine
end

