-- ==== Sys2Proof/Laws/Moves.lean ====
section
/-! SUPPORT. Everything that can happen to one channel: `Move` lists it with its guards, and every operation of the part takes
each channel through a run of moves. A rule about one channel follows from its being kept by each move. -/

namespace Sys2Proof.Machine

/-- What wanting power does to a channel (R10). -/
def Channel.wanted (x : Channel) (k : ChannelConfig) : Channel :=
  if k.cls = 0 then x.enter .inrush .none k.window else x.enter .requested .none k.window

/-- What a demand level does to a channel (R7). -/
def Channel.delivered (x : Channel) (k : ChannelConfig) (level : Nat) : Channel :=
  let falls := demandOn k.mode x.demandLevel && !demandOn k.mode level
  let y := { x with demandLevel := level, demandDuty := demandDutyOf k.mode level }
  let z := if falls then y.resetAttempts else y
  match x.state with
  | .off => if !demandOn k.mode x.demandLevel && demandOn k.mode level then z.wanted k else z.recompute
  | .cut => z.recompute
  | _ => if falls then z.enter .off .none k.window else z.recompute

/-- Leaving for OFF with the held demand taken again (R15, R20). -/
def Channel.retaken (x : Channel) (k : ChannelConfig) : Channel :=
  let y := x.enter .off .none k.window
  if k.enabled && demandOn k.mode x.demandLevel then y.wanted k else y

/-- A trip (R13, R52–R54). -/
def Channel.trips (x : Channel) (k : ChannelConfig) (kind : FaultKind) (current epoch step : Nat) : Channel :=
  let d := retryDecision k x.fault.attempts
  (x.tripped kind current epoch step d).enter (if d.delay.isSome then .tripped else .latched) .none k.window

/-- What only the measurement of a channel changes: the Sense Unit's items but the timer and the record, the running duty and
the counts of epochs (R12, R26, R42–R45, R47, R54, R56, R57). -/
def Channel.measuredAs (x y : Channel) : Prop :=
  y.state = x.state ∧ y.demandLevel = x.demandLevel ∧ y.demandDuty = x.demandDuty ∧ y.cap = x.cap ∧
  y.effectiveDuty = x.effectiveDuty ∧ y.shedReason = x.shedReason ∧ y.shadowDuty = x.shadowDuty ∧ y.fault = x.fault ∧
  (y.activeDuty = x.activeDuty ∨ y.activeDuty = x.shadowDuty ∨ y.activeDuty = 0) ∧
  (y.inrushRemaining = x.inrushRemaining ∨ x.state = .inrush) ∧ (y.retryTimer.isSome = x.retryTimer.isSome)

/-- One thing that can happen to a channel of configuration `k`. -/
inductive Move (k : ChannelConfig) : Channel → Channel → Prop
  /-- Samples, counts, duties copied at a period start, the comparator's cut-off. -/
  | measured {x y} (h : x.measuredAs y) : Move k x y
  /-- A demand level (R7), delivered to enabled channels alone (R2). -/
  | demand {x} (level : Nat) (h : k.enabled = true) : Move k x (x.delivered k level)
  /-- A grant (R9). -/
  | granted {x} (h : x.state = .requested) : Move k x (x.enter .inrush .none k.window)
  /-- Retry due (R14, R54). -/
  | retried {x} (h : x.retryTimer = some 0) :
      Move k x (if x.state = .tripped && demandOn k.mode x.demandLevel then
        Channel.wanted { x with retryTimer := none } k else { x with retryTimer := none })
  /-- A release (R15), or the end of the cut (R20). -/
  | freed {x} (h : x.state = .latched ∨ x.state = .cut) : Move k x (x.retaken k)
  /-- A shed order, or a throttle order below the minimum duty (R16, R18). -/
  | shed {x} (r : ShedReason) (h : x.state = .on) (hk : k.cls ≠ 0) (hr : r ≠ .none) : Move k x (x.enter .shed r k.window)
  /-- A throttle or cap raise order (R16, R17). -/
  | capped {x} (n : Nat) (h : x.state = .on) (hk : k.cls ≠ 0) (hn : n ≤ 255 ∨ n ≤ x.effectiveDuty) :
      Move k x (Channel.recompute { x with cap := n })
  /-- A restore order (R18). -/
  | restored {x} (h : x.state = .shed) : Move k x (x.wanted k)
  /-- The cut begins (R19). -/
  | cut {x} : Move k x (x.enter .cut .none k.window)
  /-- A trip (R13). -/
  | tripped {x} (kind : FaultKind) (current epoch step : Nat) (h : x.state.live = true) :
      Move k x (x.trips k kind current epoch step)
  /-- The window ends and the channel passes (R12). -/
  | passed {x} (h : x.state = .inrush) : Move k x (x.enter .on .none k.window)
  /-- The attempt count is reset (R55). -/
  | attempts {x} : Move k x x.resetAttempts
  /-- CLEAR (R55, R159). -/
  | cleared {x} :
      Move k x { x with fault := { x.fault with attempts := 0, persistNoted := false, isNew := false } }

/-- Every channel of `t` has come by moves from the channel of `s`, under the same configuration. -/
structure Evolves (s t : State) : Prop where
  config : t.loader.config = s.loader.config
  moves : ∀ c, Relation.ReflTransGen (Move (s.cfg c)) (s.ch c) (t.ch c)

theorem cfg_of_config {s t : State} (h : t.loader.config = s.loader.config) (c : Chan) : t.cfg c = s.cfg c := by
  simp [State.cfg, State.configuration, h]

theorem Evolves.cfg {s t : State} (h : Evolves s t) (c : Chan) : t.cfg c = s.cfg c := cfg_of_config h.config c

theorem Evolves.refl (s : State) : Evolves s s := ⟨rfl, fun _ => .refl⟩

theorem Evolves.trans {s t u : State} (h : Evolves s t) (g : Evolves t u) : Evolves s u :=
  ⟨g.config.trans h.config, fun c => (h.moves c).trans (by have := g.moves c; rwa [h.cfg c] at this)⟩

/-- Where no channel changes. -/
theorem Evolves.still {s t : State} (hl : t.loader.config = s.loader.config) (h : ∀ c, t.ch c = s.ch c) : Evolves s t :=
  ⟨hl, fun c => by rw [h c]⟩

/-- Where what came before changed no channel. -/
theorem Evolves.after {s u t : State} (h : Evolves u t) (hl : u.loader.config = s.loader.config)
    (hc : ∀ c, u.ch c = s.ch c) : Evolves s t := (Evolves.still hl hc).trans h

/-- Where one channel makes one move. -/
theorem Evolves.single {s t : State} (c : Chan) (hl : t.loader.config = s.loader.config)
    (h : Move (s.cfg c) (s.ch c) (t.ch c)) (hd : ∀ d, d ≠ c → t.ch d = s.ch d) : Evolves s t := by
  refine ⟨hl, fun d => ?_⟩
  by_cases e : d = c
  · subst e
    exact .single h
  · rw [hd d e]

/-- Where every channel makes one move. -/
theorem Evolves.every {s t : State} (hl : t.loader.config = s.loader.config)
    (h : ∀ c, Move (s.cfg c) (s.ch c) (t.ch c)) : Evolves s t := ⟨hl, fun c => .single (h c)⟩

theorem forChans_evolves {f : Chan → State → State} (h : ∀ c s, Evolves s (f c s)) (s : State) :
    Evolves s (forChans f s) := by
  unfold forChans
  generalize allChans = l
  induction l generalizing s with
  | nil => exact .refl s
  | cons c rest ih => exact (h c s).trans (ih (f c s))

theorem foldl_evolves {α : Type} {f : State → α → State} (h : ∀ s a, Evolves s (f s a)) (l : List α) (s : State) :
    Evolves s (l.foldl f s) := by
  induction l generalizing s with
  | nil => exact .refl s
  | cons c rest ih => exact (h s c).trans (ih (f s c))

/-- A rule that every move keeps is kept wherever the channels evolve. -/
theorem Evolves.keeps {P : ChannelConfig → Channel → Prop} {s t : State} (h : Evolves s t)
    (hP : ∀ k x y, P k x → Move k x y → P k y) (hs : ∀ c, P (s.cfg c) (s.ch c)) (c : Chan) : P (t.cfg c) (t.ch c) := by
  rw [h.cfg c]
  have run : ∀ x y, Relation.ReflTransGen (Move (s.cfg c)) x y → P (s.cfg c) x → P (s.cfg c) y := by
    intro x y r hx
    induction r with
    | refl => exact hx
    | tail _ m ih => exact hP _ _ _ ih m
  exact run _ _ (h.moves c) (hs c)

section
variable (c d : Chan) (s : State)

/-- What the Scheduler does touches no channel. -/
@[simp] theorem joined_ch : (joined c s).ch d = s.ch d := rfl

@[simp] theorem releaseClaim_ch (x : Claim) : (releaseClaim x s).ch d = s.ch d := by
  unfold releaseClaim; split <;> simp

@[simp] theorem leftQueue_ch : (leftQueue c s).ch d = s.ch d := by
  simp only [leftQueue]
  split
  · simp
  · split
    · split <;> simp
    · simp

@[simp] theorem surgeOver_ch : (surgeOver c s).ch d = s.ch d := by
  unfold surgeOver
  split
  · rfl
  · split <;> simp

@[simp] theorem announceLowered_ch : (announceLowered c s).ch d = s.ch d := by
  simp only [announceLowered]; split <;> simp

@[simp] theorem inrushEnded_ch : (inrushEnded c s).ch d = s.ch d := by
  unfold inrushEnded; split <;> simp

@[simp] theorem inrushBegun_ch : (inrushBegun c s).ch d = s.ch d := by
  simp only [inrushBegun]; split <;> simp

@[simp] theorem announceAgain_ch : (announceAgain s).ch d = s.ch d := by
  unfold announceAgain
  split
  · split <;> simp
  · rfl

@[simp] theorem notices_ch (old st : ChState) : (notices c old st s).ch d = s.ch d := by
  simp only [notices]; split_ifs <;> simp

/-- Entering a state changes that channel alone (R3–R5, R11). -/
theorem enter_ch (st : ChState) (r : ShedReason) :
    (enter c st r s).ch d = if d = c then (s.ch c).enter st r (s.cfg c).window else s.ch d := by
  simp [enter, State.setCh_ch]

@[simp] theorem enter_ch_self (st : ChState) (r : ShedReason) :
    (enter c st r s).ch c = (s.ch c).enter st r (s.cfg c).window := by simp [enter_ch]

theorem enter_ch_ne (st : ChState) (r : ShedReason) (h : d ≠ c) : (enter c st r s).ch d = s.ch d := by
  simp [enter_ch, h]

theorem switchOn_ch : (switchOn c s).ch d = if d = c then (s.ch c).wanted (s.cfg c) else s.ch d := by
  unfold switchOn Channel.wanted
  split <;> simp [enter_ch]

/-- A demand level changes its channel alone (R7). -/
theorem deliver_ch (level : Nat) :
    (deliver c level s).ch d = if d = c then (s.ch c).delivered (s.cfg c) level else s.ch d := by
  unfold deliver Channel.delivered
  simp only [show s.wants c = demandOn (s.cfg c).mode (s.ch c).demandLevel from rfl]
  generalize hz : (if (demandOn (s.cfg c).mode (s.ch c).demandLevel && !demandOn (s.cfg c).mode level) = true then
      Channel.resetAttempts { s.ch c with demandLevel := level, demandDuty := demandDutyOf (s.cfg c).mode level }
    else { s.ch c with demandLevel := level, demandDuty := demandDutyOf (s.cfg c).mode level }) = z
  generalize ht : (if (demandOn (s.cfg c).mode (s.ch c).demandLevel && !demandOn (s.cfg c).mode level) = true then
      (s.updCh c fun x => { x with demandLevel := level, demandDuty := demandDutyOf (s.cfg c).mode level }).updCh c
        Channel.resetAttempts
    else s.updCh c fun x => { x with demandLevel := level, demandDuty := demandDutyOf (s.cfg c).mode level }) = t
  have hc : t.ch c = z := by subst hz ht; split <;> simp
  have hn : ∀ e, e ≠ c → t.ch e = s.ch e := by
    intro e he
    subst ht
    split <;> simp [State.updCh_ch, he]
  have hk : t.cfg c = s.cfg c := by subst ht; split <;> simp
  clear hz ht
  by_cases h : d = c
  · subst h
    cases (s.ch d).state <;> simp only [] <;> (try split) <;> simp_all [switchOn_ch]
  · cases (s.ch c).state <;> simp only [] <;> (try split) <;>
      simp_all [switchOn_ch, State.updCh_ch, enter_ch]

/-- Leaving for OFF with the held demand taken again changes its channel alone (R15, R20). -/
theorem retake_ch : (retake c s).ch d = if d = c then (s.ch c).retaken (s.cfg c) else s.ch d := by
  have hw : (enter c .off .none s).wants c = demandOn (s.cfg c).mode (s.ch c).demandLevel := by
    simp [State.wants, Channel.enter, Channel.recompute]
  unfold retake Channel.retaken
  simp only [hw, enter_cfg]
  split
  · rw [switchOn_ch, enter_ch_self, enter_cfg, enter_ch]
    split <;> simp_all
  · rw [enter_ch]

/-- A trip that is taken changes its channel alone (R13, R52–R54). -/
theorem trip_ch (kind : FaultKind) (current step : Nat) (h : (s.ch c).state.live = true) :
    (trip c kind current step s).ch d =
      if d = c then (s.ch c).trips (s.cfg c) kind current s.timer.number step else s.ch d := by
  simp only [trip, h, if_true, Channel.trips]
  by_cases e : d = c
  · subst e; simp
  · simp [enter_ch, e, State.updCh_ch]

end

section
variable (c : Chan) (s : State)

theorem notices_evolves (old st : ChState) : Evolves s (notices c old st s) :=
  .still (by rw [notices_loader]) (fun d => notices_ch c d s old st)

theorem deliver_evolves (level : Nat) (h : (s.cfg c).enabled = true) : Evolves s (deliver c level s) :=
  .single c (by rw [deliver_loader]) (by rw [deliver_ch, if_pos rfl]; exact .demand level h)
    (fun d hd => by rw [deliver_ch, if_neg hd])

theorem grant_evolves : Evolves s (grant c s) := by
  unfold grant
  split
  · rename_i h
    exact .single c (by rw [enter_loader]) (by rw [enter_ch_self]; exact .granted h) (fun d hd => enter_ch_ne c d s _ _ hd)
  · exact .refl s

theorem retryDue_evolves : Evolves s (retryDue c s) := by
  unfold retryDue
  split
  · rename_i h
    refine .single c (by simp) ?_ ?_
    · have m := Move.retried (k := s.cfg c) h
      unfold retryAtChannel
      simp only [State.wants, State.updCh_cfg, State.updCh_ch_self]
      split <;> rename_i g <;> simp only [switchOn_ch, State.updCh_ch_self, State.updCh_cfg, if_true, g] at m ⊢ <;>
        simpa using m
    · intro d hd
      unfold retryAtChannel
      split <;> simp [switchOn_ch, State.updCh_ch, hd]
  · exact .refl s

theorem retake_evolves (h : (s.ch c).state = .latched ∨ (s.ch c).state = .cut) : Evolves s (retake c s) :=
  .single c (by rw [retake_loader]) (by rw [retake_ch, if_pos rfl]; exact .freed h) (fun d hd => by rw [retake_ch, if_neg hd])

theorem releaseLatch_evolves : Evolves s (releaseLatch c s) := by
  unfold releaseLatch
  split
  · rename_i h
    exact retake_evolves c s (.inl h)
  · exact .refl s

theorem orderable_iff : s.orderable c = true ↔ (s.ch c).state = .on ∧ (s.cfg c).cls ≠ 0 := by
  simp [State.orderable]

theorem shed_evolves (r : ShedReason) (hr : r ≠ .none) : Evolves s (shed c r s) := by
  unfold shed
  split
  · rename_i h
    have h := (orderable_iff c s).mp h
    exact .single c (by rw [enter_loader]) (by rw [enter_ch_self]; exact .shed r h.1 h.2 hr)
      (fun d hd => enter_ch_ne c d s _ _ hd)
  · exact .refl s

theorem setCap_evolves (n : Nat) (h : s.orderable c = true) (hn : n ≤ 255 ∨ n ≤ (s.ch c).effectiveDuty) :
    Evolves s (setCap c n s) := by
  have h := (orderable_iff c s).mp h
  exact .single c rfl (by rw [setCap, State.updCh_ch_self]; exact .capped n h.1 h.2 hn)
    (fun d hd => by rw [setCap, State.updCh_ch_ne _ _ _ hd])

theorem throttle_evolves (n : Nat) (hn : n ≤ 255 ∨ n ≤ (s.ch c).effectiveDuty) : Evolves s (throttle c n s) := by
  unfold throttle
  split
  · rename_i h
    have h1 : s.orderable c = true := by simp_all
    have h2 := (orderable_iff c s).mp h1
    split
    · exact setCap_evolves c s n h1 hn
    · exact .single c (by rw [enter_loader]) (by rw [enter_ch_self]; exact .shed .budget h2.1 h2.2 (by decide))
        (fun d hd => enter_ch_ne c d s _ _ hd)
  · exact .refl s

theorem capRaise_evolves (n : Nat) : Evolves s (capRaise c n s) := by
  unfold capRaise
  split
  · rename_i h
    exact setCap_evolves c s _ h (.inl (Nat.min_le_left _ _))
  · exact .refl s

theorem restore_evolves : Evolves s (restore c s) := by
  unfold restore
  split
  · rename_i h
    exact .single c (by rw [switchOn_loader]) (by rw [switchOn_ch, if_pos rfl]; exact .restored h)
      (fun d hd => by rw [switchOn_ch, if_neg hd])
  · exact .refl s

theorem cutBegins_evolves : Evolves s (cutBegins s) :=
  forChans_evolves (fun c s => .single c (by rw [enter_loader]) (by rw [enter_ch_self]; exact .cut)
    (fun d hd => enter_ch_ne c d s _ _ hd)) s

theorem cutEnds_evolves : Evolves s (cutEnds s) :=
  forChans_evolves (fun c s => by
    split
    · rename_i h
      exact retake_evolves c s (.inr h)
    · exact .refl s) s

theorem setCauses_evolves (x : CutCauses) : Evolves s (s.setCauses x) := .still rfl fun _ => rfl

theorem changeCauses_evolves (x : CutCauses) : Evolves s (changeCauses x s) := by
  simp only [changeCauses]
  split_ifs
  · exact (setCauses_evolves s x).trans (cutBegins_evolves _)
  · exact (setCauses_evolves s x).trans (cutEnds_evolves _)
  · exact setCauses_evolves s x

theorem trip_evolves (kind : FaultKind) (current step : Nat) : Evolves s (trip c kind current step s) := by
  by_cases h : (s.ch c).state.live = true
  · exact .single c (by rw [trip_loader]) (by rw [trip_ch c c s kind current step h, if_pos rfl]; exact .tripped _ _ _ _ h)
      (fun d hd => by rw [trip_ch c d s kind current step h, if_neg hd])
  · rw [trip, if_neg h]
    exact .refl s

/-- A change of one channel's measurement. -/
theorem updCh_evolves (f : Channel → Channel) (h : (s.ch c).measuredAs (f (s.ch c))) : Evolves s (s.updCh c f) :=
  .single c rfl (by rw [State.updCh_ch_self]; exact .measured h) (fun d hd => State.updCh_ch_ne s c f hd)

/-- A change of every channel's measurement. -/
theorem mapCh_evolves (f : Chan → Channel → Channel) (h : ∀ c x, Channel.measuredAs x (f c x)) : Evolves s (s.mapCh f) :=
  .every (by rw [State.mapCh_loader]) (fun c => by rw [State.mapCh_ch]; exact .measured (h c _))

theorem cutOff_evolves : Evolves s (cutOff c s) :=
  updCh_evolves c s _ (by simp [Channel.measuredAs])

theorem overcurrent_evolves (sample step : Nat) : Evolves s (overcurrent c sample step s) := by
  unfold overcurrent
  split_ifs
  · exact updCh_evolves c s _ (by simp [Channel.measuredAs])
  · exact trip_evolves c s _ _ _
  · exact updCh_evolves c s _ (by simp [Channel.measuredAs])
  · exact .refl s

theorem sampled_measured (x : Channel) (sample threshold : Nat) : x.measuredAs (x.sampled sample threshold) := by
  simp only [Channel.sampled, Channel.openLoad, Channel.measuredAs]
  split_ifs <;> simp

theorem takeSample_evolves (current : Nat) : Evolves s (takeSample c current s) := by
  simp only [takeSample]
  split
  · refine Evolves.trans (t := (s.atStep _).updCh c _) ?_ (overcurrent_evolves c _ _ _)
    exact (Evolves.still rfl fun _ => rfl : Evolves s (s.atStep (sampleStep s.own c (s.ch c).activeDuty))).trans
      (updCh_evolves c _ _ (sampled_measured _ _ _))
  · exact .refl s

theorem windowEnd_evolves : Evolves s (windowEnd c s) := by
  unfold windowEnd
  split
  · rename_i h
    have h : (s.ch c).state = .inrush := by simp_all
    have pass : Evolves s (enter c .on .none s) :=
      .single c (by rw [enter_loader]) (by rw [enter_ch_self]; exact .passed h) (fun d hd => enter_ch_ne c d s _ _ hd)
    split
    · split
      · exact trip_evolves c s _ _ _
      · exact pass
    · exact pass
  · exact .refl s

theorem attemptReset_evolves : Evolves s (attemptReset c s) := by
  unfold attemptReset
  split
  · exact .single c rfl (by rw [State.updCh_ch_self]; exact .attempts) (fun d hd => State.updCh_ch_ne s c _ hd)
  · exact .refl s

theorem clearChannel_evolves : Evolves s (clearChannel c s) :=
  (Evolves.single c rfl (by rw [clearRecord, State.updCh_ch_self]; exact .cleared)
    (fun d hd => State.updCh_ch_ne s c _ hd) : Evolves s (clearRecord c s)).trans (releaseLatch_evolves c _)

theorem resolve_evolves (test : Chan → Bool) : Evolves s (resolve test s) :=
  forChans_evolves (fun c s => by
    split
    · rename_i h
      have h : (s.cfg c).enabled = true := by simp_all
      unfold resolveOne
      split
      · exact .refl s
      · exact deliver_evolves c s _ h
    · exact .refl s) s

theorem holdClaim_evolves (x : Claim) : Evolves s (holdClaim x s) :=
  .still (by rw [holdClaim_loader]) (fun d => by simp [holdClaim])

theorem refuse_evolves (x : Claim) : Evolves s (refuse x s) :=
  .still (by rw [refuse_loader]) (fun d => by simp [refuse])

/-- The steps of the admission decision are moves (R9, R145, R146). -/
theorem admission_keeps_evolves : AdmissionKeeps Evolves where
  refl := .refl
  trans := .trans
  hold x s := holdClaim_evolves s x
  grant c s := grant_evolves c s
  refuse x s := refuse_evolves s x

/-- The admission decision, where all that comes before the arrival of a grant are moves too (R9, R145). -/
theorem decideAdmissionAmid_evolves {between : List (State → State)} (h : ∀ event ∈ between, ∀ s, Evolves s (event s)) :
    Evolves s (decideAdmissionAmid between s) := decideAdmissionAmid_keeps admission_keeps_evolves h s

theorem decideAdmission_evolves : Evolves s (decideAdmission s) := decideAdmissionAmid_evolves s (between := []) (fun _ h => nomatch h)

theorem select_evolves : Evolves s (select s) := by
  refine .still (by rw [select_loader]) (fun d => ?_)
  unfold select
  split
  · split
    · simp only []
      split_ifs <;> simp
    · rfl
  · rfl

theorem budgetEvaluatedAmid_evolves {between : List (State → State)} (h : ∀ event ∈ between, ∀ s, Evolves s (event s)) :
    Evolves s (budgetEvaluatedAmid between s) := (decideAdmissionAmid_evolves s h).trans (select_evolves _)

theorem budgetEvaluated_evolves : Evolves s (budgetEvaluated s) :=
  (decideAdmission_evolves s).trans (select_evolves _)

/-- The orders of the Budget Unit are moves (R16–R18). -/
theorem orders_keep_evolves : OrdersKeep Evolves where
  refl := .refl
  trans := .trans
  shed c reason s := shed_evolves c s reason
  throttle c cap s h := throttle_evolves c s cap (.inl h)
  capRaise c n s := capRaise_evolves c s n
  restore c s := restore_evolves c s

/-- The budget evaluation, where all that comes between its parts are moves too (R117, R127). -/
theorem evaluateAmid_evolves {between : List (State → State)} (h : ∀ event ∈ between, ∀ s, Evolves s (event s)) :
    Evolves s (evaluateAmid between s) :=
  evaluateAmid_keeps orders_keep_evolves (fun _ => .still rfl fun _ => rfl) (fun _ => .still rfl fun _ => rfl)
    (fun _ _ => .still rfl fun _ => rfl) (fun _ _ => .still rfl fun _ => rfl) h s

theorem evaluateBudget_evolves : Evolves s (evaluateBudget s) := evaluateAmid_evolves s (by simp)

theorem testSupply_evolves (n : Nat) : Evolves s (testSupply n s) := by
  simp only [testSupply]
  split_ifs
  · exact Evolves.after (changeCauses_evolves _ _) (by simp) (fun _ => by simp)
  · exact .still rfl fun _ => rfl

theorem takeSupply_evolves (v : Nat) : Evolves s (takeSupply v s) := by
  simp only [takeSupply]
  split_ifs
  · exact .still rfl fun _ => rfl
  · exact .still rfl fun _ => rfl
  · exact Evolves.after (changeCauses_evolves _ _) (by simp) (fun _ => by simp)
  · exact .still rfl fun _ => rfl
  · exact .refl s

theorem addPending_evolves : Evolves s (addPending s) := by
  simp only [addPending]
  exact .every (by simp) fun c => .measured (by simp [Channel.measuredAs])

theorem dropPending_evolves : Evolves s (dropPending s) := by
  simp only [dropPending]
  exact .every (by simp) fun c => .measured (by simp [Channel.measuredAs])

theorem closeMeasurement_evolves (n : Nat) : Evolves s (closeMeasurement n s) := by
  simp only [closeMeasurement]
  exact .every (by simp) fun c => .measured (by simp [Channel.measuredAs, Channel.closeEpoch])

theorem loadDuties_evolves : Evolves s (loadDuties s) := by
  unfold loadDuties
  exact mapCh_evolves s _ (by intros; simp [Channel.measuredAs])

theorem ageSignals_evolves : Evolves s (ageSignals s) := .still rfl fun _ => rfl

theorem takePhase_evolves : Evolves s (takePhase s) := .still rfl fun _ => rfl

theorem resolveAll_evolves : Evolves s (resolveAll s) := by
  unfold resolveAll
  exact resolve_evolves s _

theorem resolveFlash_evolves : Evolves s (resolveFlash s) := by
  unfold resolveFlash
  exact resolve_evolves s _

theorem publish_evolves : Evolves s (publish s) := by
  unfold publish
  split
  · exact .still rfl fun _ => rfl
  · exact .refl s

theorem countPublication_evolves : Evolves s (countPublication s) := by
  unfold countPublication
  split
  · exact .still rfl fun _ => rfl
  · exact .refl s

theorem periodicPublication_evolves : Evolves s (periodicPublication s) := by
  unfold periodicPublication
  split
  · exact publish_evolves s
  · exact .refl s

theorem readInputs_evolves (din : DinLevels) : Evolves s (readInputs din s) := by
  simp only [readInputs]
  split
  · exact .refl s
  · exact (Evolves.after (resolve_evolves _ _) (by simp) (fun _ => by simp)).trans (publish_evolves _)

theorem isolationDue_evolves : Evolves s (isolationDue s) := by
  unfold isolationDue
  split
  · exact .still rfl fun _ => rfl
  · exact .refl s

/-- One part of an epoch start. -/
theorem runTask_evolves (n : Nat) (din : DinLevels) (t : EpochTask) : Evolves s (runTask n din t s) := by
  cases t
  · exact loadDuties_evolves s
  · exact readInputs_evolves s din
  · exact closeMeasurement_evolves s n
  · exact testSupply_evolves s n
  · exact resolveAll_evolves s
  · exact evaluateBudget_evolves s
  · exact budgetEvaluated_evolves s
  · exact forChans_evolves windowEnd_evolves s
  · exact forChans_evolves retryDue_evolves s
  · exact forChans_evolves attemptReset_evolves s
  · exact .still (by simp only [runTask, peerPresence, State.mapPeers_loader]) (fun c => by
      simp only [runTask, peerPresence, State.mapPeers_ch])
  · exact .still rfl fun _ => rfl
  · exact periodicPublication_evolves s
  · exact isolationDue_evolves s

theorem settleWaits_evolves : Evolves s (settleWaits s) := by
  unfold settleWaits
  have h : Evolves s (attemptResets (retries (windowEnds s))) :=
    ((forChans_evolves windowEnd_evolves s).trans (forChans_evolves retryDue_evolves _)).trans
      (forChans_evolves attemptReset_evolves _)
  have g : Evolves s (peerPresence (attemptResets (retries (windowEnds s)))) :=
    h.trans (.still (by simp only [peerPresence, State.mapPeers_loader]) fun c => by
      simp only [peerPresence, State.mapPeers_ch])
  exact ((g.trans (.still (by simp [removeRunOut]) fun _ => by simp [removeRunOut])).trans (periodicPublication_evolves _)).trans (isolationDue_evolves _)

theorem countEpochs_evolves (first : Bool) : Evolves s (countEpochs first s) := by
  have hm : ∀ u : State, Evolves u (u.mapCh fun _ x => x.countEpoch) := fun u =>
    mapCh_evolves u _ (by
      intro c x
      simp only [Channel.measuredAs, Channel.countEpoch, Option.isSome_map, true_and, and_true, true_or]
      by_cases e : x.state = .inrush <;> simp [e])
  have hs : ∀ u : State, Evolves u (schedulerEpoch u) := fun u => .still rfl fun _ => rfl
  have hc : ∀ u : State, Evolves u (countSilence (lowerHolds (u.mapPeers PeerEntry.grow))) := fun u => by
    refine .still ?_ (fun c => ?_) <;>
      simp only [countSilence, lowerHolds, State.setLink_loader, State.setLink_ch, State.setReservations_loader,
        State.setReservations_ch, State.mapPeers_loader, State.mapPeers_ch]
  have hp : ∀ u : State, Evolves u (countPublication (ageSignals (countSilence (lowerHolds (u.mapPeers PeerEntry.grow))))) :=
    fun u => ((hc u).trans (ageSignals_evolves _)).trans (countPublication_evolves _)
  cases first
  · exact ((hm s).trans (hs _)).trans (hp _)
  · exact ((hs s).trans (hm _)).trans (hp _)

theorem runTasks_evolves (n : Nat) (din : DinLevels) (tasks : List EpochTask) : Evolves s (runTasks n din tasks s) :=
  foldl_evolves (fun s t => runTask_evolves s n din t) tasks s

theorem epochTask_evolves (n : Nat) (din : DinLevels) (o : EpochOrder) (t : EpochTask) :
    Evolves s (epochTask n din o t s) := by
  unfold epochTask
  split
  · refine evaluateAmid_evolves s (fun event h u => ?_)
    obtain ⟨ts, -, rfl⟩ := List.mem_map.mp h
    exact runTasks_evolves u n din ts
  · refine budgetEvaluatedAmid_evolves s (fun event h u => ?_)
    obtain ⟨t, -, rfl⟩ := List.mem_map.mp h
    exact runTask_evolves u n din t
  · exact runTask_evolves s n din _

/-- An epoch start (R32). -/
theorem epochStart_evolves (n m : Nat) (inp : Inputs) (ord : EpochOrder) : Evolves s (epochStart n m inp ord s) := by
  simp only [epochStart]
  refine Evolves.trans ?_ (foldl_evolves (fun u t => epochTask_evolves u n _ _ t) _ _)
  refine Evolves.trans ?_ (countEpochs_evolves _ _)
  exact (settleWaits_evolves s).trans (.still (by simp) fun _ => by simp)

theorem queueMark_evolves (m : Nat) : Evolves s (queueMark m s) := by
  unfold queueMark
  split
  · exact .refl s
  · exact .still rfl fun _ => rfl

theorem ownExpiry_evolves (inp : Inputs) (ord : EpochOrder) : Evolves s (ownExpiry inp ord s) := by
  simp only [ownExpiry]
  refine Evolves.trans ?_ (epochStart_evolves _ _ _ _ _)
  refine Evolves.trans ?_ (queueMark_evolves _ _)
  exact (addPending_evolves s).trans (.still rfl fun _ => rfl)

theorem periodCompleted_evolves (inp : Inputs) (ord : EpochOrder) : Evolves s (periodCompleted inp ord s) := by
  simp only [periodCompleted]
  split
  · refine Evolves.trans ?_ (runTasks_evolves _ _ _ _)
    exact (addPending_evolves s).trans (.still rfl fun _ => rfl)
  · exact ownExpiry_evolves s inp ord

theorem withdrawMark_evolves : Evolves s (withdrawMark s) := by
  simp only [withdrawMark]
  split
  · exact .still rfl fun _ => rfl
  · exact .still rfl fun _ => rfl

theorem abandonPeriod_evolves : Evolves s (abandonPeriod s) :=
  (dropPending_evolves s).trans (.still rfl fun _ => rfl)

theorem realign_evolves (m : Nat) (inp : Inputs) (ord : EpochOrder) : Evolves s (realign m inp ord s) := by
  simp only [realign]
  refine Evolves.trans ?_ (foldl_evolves (fun u t => ?_) _ _)
  · have h : ∀ u : State, Evolves u (if m ≠ s.timer.number then takePhase u else u) := fun u => by
      split
      · exact takePhase_evolves u
      · exact .refl u
    refine Evolves.trans ?_ (h _)
    exact ((withdrawMark_evolves s).trans (abandonPeriod_evolves _)).trans (.still rfl fun _ => rfl)
  · cases t
    · exact loadDuties_evolves u
    · exact readInputs_evolves u _
    all_goals (try exact .refl u)
    simp only [realignTask]
    split
    · exact resolveFlash_evolves u
    · exact .refl u

theorem takeMark_evolves (m : Nat) (inp : Inputs) (ord : EpochOrder) : Evolves s (takeMark m inp ord s) := by
  unfold takeMark
  split_ifs
  · unfold acceptMark
    exact ((withdrawMark_evolves s).trans (abandonPeriod_evolves _)).trans (epochStart_evolves _ _ _ _ _)
  · exact realign_evolves s m inp ord
  · exact .refl s

end

section
variable (s : State)

theorem leaveMuted_evolves : Evolves s (leaveMuted s) := by
  simp only [leaveMuted]
  exact .still (by rw [announceAgain_loader]; rfl) (fun c => by rw [announceAgain_ch]; rfl)

theorem validFrame_evolves : Evolves s (validFrame s) := by
  simp only [validFrame, countGood]
  have h0 : Evolves s (s.setLink { s.link with silence := 0 }) := .still rfl fun _ => rfl
  have h1 : ∀ u : State, Evolves u (leaveIsolated u) := fun u => .still rfl fun _ => rfl
  have h2 : ∀ u : State, Evolves u (if u.link.muted = true then
      if 99 ≤ u.link.good then leaveMuted u else u.setLink { u.link with good := u.link.good + 1 } else u) := fun u => by
    split_ifs
    · exact leaveMuted_evolves u
    · exact .still rfl fun _ => rfl
    · exact .refl u
  split
  · exact (h0.trans (h1 _)).trans (h2 _)
  · exact h0.trans (h2 _)

theorem receiveChecked_evolves (n : Nat) (sender : Stn) (payload : List Byte) (f : State → State)
    (hf : ∀ u, Evolves u (f u)) : Evolves s (receiveChecked n sender payload f s) := by
  simp only [receiveChecked]
  split_ifs
  · exact (validFrame_evolves s).trans (.still rfl fun _ => rfl)
  · exact (validFrame_evolves s).trans (.still rfl fun _ => rfl)
  · exact (validFrame_evolves s).trans (hf _)

theorem reportCompletion_evolves (f : Frame) : Evolves s (reportCompletion f s) := by
  have hr : ∀ (c : Chan) (u : State), Evolves u (reserveCompleted c u) := fun c u => by
    unfold reserveCompleted
    split
    · exact .still rfl fun _ => rfl
    · split
      · exact .still rfl fun _ => rfl
      · exact .refl u
  cases f
  case reserve ty cls chan amount hold =>
    simp only [reportCompletion]
    split
    · exact Evolves.after (hr _ _) (by simp [takeReserve]) (fun _ => by simp [takeReserve])
    · exact .still rfl fun _ => rfl
  all_goals exact .still rfl fun _ => rfl

theorem completeFrame_evolves : Evolves s (completeFrame s) := by
  unfold completeFrame
  split
  · exact Evolves.after (reportCompletion_evolves _ _) (by simp) (fun _ => by simp)
  · exact .refl s

theorem abortFrame_evolves (bit : Nat) : Evolves s (abortFrame bit s) := by
  unfold abortFrame
  split
  · split
    · simp only []
      split
      · exact .still rfl fun _ => rfl
      · exact .still rfl fun _ => rfl
    · exact .refl s
  · exact .refl s

theorem clearEvery_evolves : Evolves s (clearEvery s) := by
  simp only [clearEvery]
  exact (forChans_evolves clearChannel_evolves s).trans (.still (by simp) fun _ => by simp)

theorem receiveQuery_evolves (b0 arg : Byte) : Evolves s (receiveQuery b0 arg s) := by
  unfold receiveQuery
  refine (validFrame_evolves s).trans ?_
  generalize validFrame s = u
  unfold takeQuery
  split
  · exact .refl u
  · split
    · exact .refl u
    · split
      · exact .refl u
      · unfold takeItem
        split
        · exact .still rfl fun _ => rfl
        · rename_i item _ _ _
          have ha : Evolves u (itemAction item arg u) := by
            cases item
            case clear => exact (clearChannel_evolves _ u).trans (.still rfl fun _ => rfl)
            case clearAll => exact clearEvery_evolves u
            all_goals exact .refl u
          refine ha.trans ?_
          generalize itemAction item arg u = w
          unfold sendReport
          split
          · exact .refl w
          · exact .still rfl fun _ => rfl

theorem takeSignalFrame_evolves (sender : Stn) (payload : List Byte) : Evolves s (takeSignalFrame sender payload s) := by
  simp only [takeSignalFrame]
  split
  · exact Evolves.after (resolve_evolves _ _) (by simp) (fun _ => by simp)
  · exact .refl s

theorem expireEntry_evolves (source : Stn) (signal : Fin 64) : Evolves s (expireEntry source signal s) := by
  simp only [expireEntry]
  split
  · exact Evolves.after (resolve_evolves _ _) (by simp) (fun _ => by simp)
  · exact .refl s

theorem comparatorFires_evolves (c : Chan) (step current : Nat) : Evolves s (comparatorFires c step current s) := by
  simp only [comparatorFires]
  split_ifs
  · exact Evolves.after (trip_evolves _ _ _ _ _) (by simp) (fun _ => by simp)
  · exact Evolves.after (cutOff_evolves _ _) (by simp) (fun _ => by simp)
  · exact .refl s

theorem thermalReport_evolves (c : Chan) (step : Nat) : Evolves s (thermalReport c step s) := by
  simp only [thermalReport]
  split_ifs
  · exact Evolves.after (trip_evolves _ _ _ _ _) (by simp) (fun _ => by simp)
  · exact Evolves.after (cutOff_evolves _ _) (by simp) (fun _ => by simp)
  · exact .refl s

theorem isolateChanged_evolves (high : Bool) : Evolves s (isolateChanged high s) := by
  simp only [isolateChanged]
  split
  · exact Evolves.after (changeCauses_evolves _ _) (by simp) (fun _ => by simp)
  · exact .still rfl fun _ => rfl

/-- Load end after the configuration has been handed out (R169). -/
theorem loadEnd_evolves (buffer : List Byte) (din : DinLevels) :
    Evolves (handOut buffer s) (loadEnd buffer din s) := by
  unfold loadEnd
  generalize handOut buffer s = u
  have h1 : Evolves u (startPeriods din u) := by
    simp only [startPeriods]
    exact Evolves.after (loadDuties_evolves _) (by simp) (fun _ => ch_congr (by simp) _)
  have h2 : ∀ w : State, Evolves w (takeIsolateLevel w) := fun w => by
    unfold takeIsolateLevel
    split
    · exact changeCauses_evolves _ _
    · exact .refl w
  have h3 : ∀ w : State, Evolves w (firstResolution w) := fun w => by
    simp only [firstResolution]
    refine (Evolves.after (forChans_evolves (fun c x => ?_) _) (by simp) (fun _ => by simp)).trans
      (publish_evolves _)
    split
    · rename_i h
      exact deliver_evolves c x _ h
    · exact .refl x
  exact ((h1.trans (h2 _)).trans (h3 _)).trans (.still (by simp [startListening]) fun _ => by simp [startListening])

theorem whenLoaded_evolves (f : State → State) (h : ∀ u, Evolves u (f u)) : Evolves s (whenLoaded f s) := by
  unfold whenLoaded
  split
  · exact h s
  · exact .refl s

/-- Every command but RESET and READ_STOPS takes each channel through moves, under the configuration it finds. -/
theorem exec_evolves (i : Instr) (t : State) (h : exec i s = .next t) (h1 : i ≠ .reset)
    (h2 : ∀ memory din, i ≠ .readStops memory din) : Evolves s t := by
  cases i <;> simp only [exec, execReset, execHoldEnds, execReadStops, execPeriodCompleted, execOwnExpiry, execSignalExpiry,
    execPeerStale, execPeerAbsent, execHoldRunsOut, execInrushWindowEnd, execRetryDue, execAttemptReset,
    execPeriodicPublication, execIsolatedEntry, execCurrentSample, execSupplySample, execShort, execThermal,
    execIsolateChange, execLineIdle, execContentionLost, execAbort, execTransmitCompletion, execDiscardedReception,
    execMarkReceived, execReserveReceived, execReleaseReceived, execStatusReceived, execSignalReceived,
    execReportFrameReceived, execKind7FrameReceived, execSummary, execChannel, execPeer, execLink, execClear, execClearAll,
    execRecord, execQueryIgnored, execPayloadLengthDiscard, Host.Outcome.next.injEq] at h <;> subst h
  case reset => exact absurd rfl h1
  case readStops memory din => exact absurd rfl (h2 memory din)
  case holdEnds straps =>
    unfold beginLoad
    split
    · exact .still rfl fun _ => rfl
    · exact .refl s
  case isolateChange high => exact isolateChanged_evolves s high
  all_goals refine whenLoaded_evolves s _ (fun u => ?_)
  case periodCompleted inp ord => exact periodCompleted_evolves u inp ord
  case ownExpiry inp ord =>
    split
    · exact ownExpiry_evolves u inp ord
    · exact .refl u
  case signalExpiry => exact expireEntry_evolves u _ _
  case inrushWindowEnd c => exact windowEnd_evolves c u
  case retryDue c => exact retryDue_evolves c u
  case attemptReset c => exact attemptReset_evolves c u
  case periodicPublication => exact periodicPublication_evolves u
  case isolatedEntry => exact isolationDue_evolves u
  case currentSample c current => exact takeSample_evolves c u current
  case supplySample v => exact takeSupply_evolves u v
  case short => exact comparatorFires_evolves u _ _ _
  case thermal => exact thermalReport_evolves u _ _
  case lineIdle =>
    unfold offerFrame
    split
    · split
      · exact .refl u
      · exact .still rfl fun _ => rfl
    · exact .refl u
  case contentionLost =>
    unfold contentionLost
    split
    · split
      · exact .still rfl fun _ => rfl
      · exact .refl u
    · exact .refl u
  case abort => exact abortFrame_evolves u _
  case transmitCompletion => exact completeFrame_evolves u
  case discardedReception =>
    split
    · simp only [discardReception]
      split
      · exact .still rfl fun _ => rfl
      · exact .still rfl fun _ => rfl
    · exact .refl u
  case markReceived => exact receiveChecked_evolves u _ _ _ _ (fun w => takeMark_evolves w _ _ _)
  case reserveReceived => exact receiveChecked_evolves u _ _ _ _ (fun w => .still rfl fun _ => rfl)
  case releaseReceived => exact receiveChecked_evolves u _ _ _ _ (fun w => .still rfl fun _ => rfl)
  case statusReceived => exact receiveChecked_evolves u _ _ _ _ (fun w => .still rfl fun _ => rfl)
  case signalReceived => exact (validFrame_evolves u).trans (takeSignalFrame_evolves _ _ _)
  case reportFrameReceived => exact validFrame_evolves u
  case kind7FrameReceived => exact validFrame_evolves u
  case payloadLengthDiscard =>
    split
    · exact (validFrame_evolves u).trans (.still rfl fun _ => rfl)
    · exact .refl u
  all_goals first
    | exact receiveQuery_evolves u _ _
    | exact .still rfl fun _ => rfl

end

end Sys2Proof.Machine
end

