-- ==== Sys2Proof/Laws/Effects.lean ====
section
/-! SUPPORT. What an event at the channels does beyond them, said once for each operation: to the Turn-On Scheduler, the cut
causes and the FAULT pin. Everything else stands by the equations of Laws/Frames.lean. -/

namespace Sys2Proof.Machine

/-- What `blank` keeps, named. -/
theorem keeps_of_blank {s t : State} (h : t.blank = s.blank) : s.KeepsBeyondChannels t := by
  refine ⟨timer_of_blank h, signal_of_blank h, peers_of_blank h, reservations_of_blank h, budget_of_blank h,
    loader_of_blank h, pending_of_blank h, ?_, ?_⟩
  · have e := congrArg State.diag h
    simp only [State.blank, Responder.mk.injEq] at e
    cases hs : s.diag; cases ht : t.diag
    simp_all
  · have e := link_of_blank h
    simp only [LinkController.blank, LinkController.mk.injEq] at e
    cases hs : s.link; cases ht : t.link
    simp_all

section
variable (c : Chan) (s : State)

@[simp] theorem releaseClaim_sched (x : Claim) : (releaseClaim x s).sched = s.sched := by
  unfold releaseClaim; split <;> simp

/-- The queue after LEFT QUEUE (R139). -/
@[simp] theorem leftQueue_queue : (leftQueue c s).sched.queue = s.sched.queue.filter fun d => d ≠ c := by
  simp only [leftQueue]
  split
  · simp
  · split
    · split <;> simp
    · simp

/-- The ordinary record after LEFT QUEUE (R147). -/
theorem leftQueue_ordinary : (leftQueue c s).sched.ordinary = s.sched.ordinary.filter fun x => x.chan ≠ c := by
  simp only [leftQueue, State.setQueue_sched]
  split
  · rename_i h; simp_all
  · rename_i x h
    split
    · rename_i e; split <;> simp_all [Option.filter_some]
    · simp_all [Option.filter_some]

/-- The Scheduler's counts do not move with a notice (R151). -/
abbrev Scheduler.sameCounts (x y : Scheduler) : Prop :=
  y.rotation = x.rotation ∧ y.deferral = x.deferral ∧ y.listen = x.listen

theorem leftQueue_counts : s.sched.sameCounts (leftQueue c s).sched := by
  simp only [leftQueue, Scheduler.sameCounts]
  split
  · simp
  · split
    · split <;> simp
    · simp

/-- The Scheduler after INRUSH ENDED of class 1–3 (R147). -/
theorem surgeOver_sched : (surgeOver c s).sched =
    { s.sched with ordinary := s.sched.ordinary.filter fun x => !(x.chan = c && x.phase = .held) } := by
  unfold surgeOver
  cases ho : s.sched.ordinary with
  | none => simp only [Option.filter_none]; rw [← ho]
  | some x =>
    simp only [Option.filter_some]
    split
    · simp_all
    · rename_i h
      rw [Bool.not_eq_true] at h
      rw [if_pos (by rw [h]; rfl), ← ho]

@[simp] theorem surgeOver_queue : (surgeOver c s).sched.queue = s.sched.queue := by rw [surgeOver_sched]

theorem announceLowered_sched : (announceLowered c s).sched =
    { s.sched with announceAmount := s.surgeAmount, announceHold := s.surgeHold } := by
  simp only [announceLowered]
  split <;> simp

theorem inrushBegun_sched : (inrushBegun c s).sched =
    { s.sched with announceAmount := s.surgeAmount, announceHold := s.surgeHold } := by
  simp only [inrushBegun]
  split <;> simp

/-- A notice of a channel going from one state to another ends a claim that names it (R147). -/
def endsClaim (c : Chan) (cls : Cls) (old st : ChState) (x : Claim) : Bool :=
  x.chan = c && ((old = .requested && st ≠ .inrush) || (old = .inrush && (st ≠ .inrush && (cls ≠ 0 && x.phase = .held))))

theorem option_filter_true {α : Type} (o : Option α) : o.filter (fun _ => true) = o := by cases o <;> rfl

/-- The queue after the notices of a change of state (R8, R139). -/
theorem notices_queue (old st : ChState) : (notices c old st s).sched.queue =
    (if old = .requested ∧ st ≠ .inrush then s.sched.queue.filter (fun d => d ≠ c) else s.sched.queue) ++
      (if st = .requested then [c] else []) := by
  cases old <;> cases st <;>
    simp [notices, joined, inrushEnded, announceLowered_sched, inrushBegun_sched, apply_ite State.sched,
      apply_ite Scheduler.queue]

/-- The ordinary record after the notices of a change of state (R147). -/
theorem notices_ordinary (old st : ChState) : (notices c old st s).sched.ordinary =
    s.sched.ordinary.filter fun x => !endsClaim c (s.cfg c).cls old st x := by
  cases old <;> cases st <;> by_cases hk : (s.cfg c).cls = 0 <;>
    simp [notices, joined, inrushEnded, announceLowered_sched, inrushBegun_sched, surgeOver_sched, leftQueue_ordinary,
      endsClaim, option_filter_true, hk]

theorem notices_counts (old st : ChState) : s.sched.sameCounts (notices c old st s).sched := by
  have h := leftQueue_counts c s
  cases old <;> cases st <;> by_cases hk : (s.cfg c).cls = 0 <;>
    simp [notices, joined, inrushEnded, announceLowered_sched, inrushBegun_sched, surgeOver_sched, hk] <;>
    simp_all [Scheduler.sameCounts]

end

end Sys2Proof.Machine
end

