-- ==== Sys2Proof/WellFormed.lean ====
section
/-! DEFINITION. Which commands are well formed: operands inside the ranges their rules give. Every meaning is
total all the same; an ill-formed command is one whose event cannot arise as that row. -/

namespace Sys2Proof

/-- Payload bytes the kind requires (R80, R86). -/
def FixedKind.length : FixedKind → Nat
  | .mark => 1
  | .reserve => 3
  | .release => 1
  | .status => 8
  | .query => 2

/-- A payload the length field can carry, 0–8 bytes (R80). -/
def payloadFits (payload : List Byte) : Bool := payload.length ≤ 8

/-- An order names each part of the epoch start at most once, and between the orders of the evaluation (R127) and before the arrival of
a grant (R9) only what the channels take. -/
def EpochOrder.wf (o : EpochOrder) : Bool :=
  (o.tasks ++ o.within.flatten ++ o.granting).Nodup && (o.within.flatten ++ o.granting).all EpochTask.atChannels

/-- The argument names a channel or a peer, 0–15 (R155, R158). -/
def argNames (arg : Byte) : Bool := arg.toNat ≤ 15

/-- Well-formed commands. -/
def Instr.wf : Instr → Bool
  | .reset => true
  | .holdEnds _ => true
  | .readStops _ _ => true
  | .periodCompleted _ ord => ord.wf
  | .ownExpiry _ ord => ord.wf
  | .signalExpiry _ _ => true
  | .peerStale _ => true
  | .peerAbsent _ => true
  | .holdRunsOut _ _ => true
  | .inrushWindowEnd _ => true
  | .retryDue _ => true
  | .attemptReset _ => true
  | .periodicPublication => true
  | .isolatedEntry => true
  | .currentSample _ _ => true
  | .supplySample _ => true
  | .short _ step _ => step ≤ 254
  | .thermal _ step => step ≤ 254
  | .isolateChange _ => true
  | .lineIdle bits => 11 ≤ bits.length
  | .contentionLost bit => 2 ≤ bit && bit ≤ 8
  | .abort bit => bit = 1 || (9 ≤ bit && bit ≤ 99)
  | .transmitCompletion => true
  | .discardedReception samples before => 10 ≤ before.length && samples.length ≤ 99
  | .markReceived _ payload _ ord => payload.length = 1 && ord.wf
  | .reserveReceived _ payload => payload.length = 3
  | .releaseReceived _ payload => payload.length = 1
  | .statusReceived _ payload => payload.length = 8
  | .signalReceived _ payload => payloadFits payload
  | .reportFrameReceived _ payload => payloadFits payload
  | .kind7FrameReceived _ payload => payloadFits payload
  | .summary _ _ _ => true
  | .channel _ _ arg => argNames arg
  | .peer _ _ arg => argNames arg
  | .link _ _ _ => true
  | .clear _ _ arg => argNames arg
  | .clearAll _ _ _ => true
  | .record _ _ arg => argNames arg
  | .queryIgnored _ _ _ => true
  | .payloadLengthDiscard kind _ payload => payload.length ≠ kind.length && payloadFits payload

end Sys2Proof
end

