-- ==== Sys2Proof/Tests/Slice0.lean ====
section
/-! SUPPORT. Tests of the model on numbers the spec works out, ill-formed commands that the checks refuse, and one state for
each set of hypotheses that a statement has. -/

open Sys2Proof Sys2Proof.Machine

namespace Sys2Proof.Tests

set_option Elab.async false

/-! ### Small states -/

/-- The state a command leads to. -/
def ran (i : Instr) (s : State) : State :=
  match exec i s with
  | .next t => t
  | _ => s

/-- An order that names no part. -/
def anyOrder : EpochOrder := { schedulerFirst := false, tasks := [] }

/-- All direct inputs low. -/
def lowInputs : DinLevels := { din0 := false, din1 := false, din2 := false, din3 := false }

/-- All direct inputs low, engine charging. -/
def charging : Inputs := { din := lowInputs, charge := true }

/-- A channel record of a class and a mode, with the limits of the floor heater of chapter 1. -/
def recordOf (cls : Cls) (mode : Mode) (rank minDuty : Nat) : ChannelConfig where
  enabled := true
  mode := mode
  cls := cls
  shedRank := rank
  steadyLimit := 150
  inrushLimit := 300
  window := 2
  amount := 200
  minDuty := minDuty
  openThreshold := 5
  retryBase := 2
  retryLimit := 2
  limitAction := .latch

/-- Channel 0 class 0, channels 2 and 3 class 1, channel 5 class 2, channel 9 a class 2 fan, channels 12 and 13 class 3
heaters; the others disabled. -/
def records : Vector ChannelConfig 16 :=
  Vector.ofFn fun c =>
    if c = 0 then recordOf 0 .dc 0 0
    else if c = 2 || c = 3 then recordOf 1 .dc 0 0
    else if c = 5 then recordOf 2 .dc 0 0
    else if c = 9 then recordOf 2 .pwm 0 40
    else if c = 12 then recordOf 3 .pwm 5 20
    else if c = 13 then recordOf 3 .pwm 2 20
    else { recordOf 3 .dc 0 0 with enabled := false }

/-- The defaults of R165, rotation 2, station 3 expected with 300 dA, DIN publish on. -/
def parameters : Params where
  limitRun := 1600
  limitBatt := 1000
  limitAlone := 400
  guardBand := 50
  hysteresis := 100
  restoreStep := 16
  vLow := 220
  vCut := 160
  lifetime := 10
  rotationN := 2
  expected := 8
  peerAllowance := 300
  dinPublish := true

/-- A loaded station 4, every channel OFF, its link ONLINE, nothing queued; DIN0 drives channel 0 and signal 5 of station 12
drives channel 9 with the fallback level 64. -/
def up : State :=
  { State.reset with
    modulator := { running := true, step := 0 }
    timer := { running := true, number := 57, completed := 0, markPending := false }
    signal :=
      { bindings :=
          [{ source := 4, signal := 60, chan := 0, transform := .direct, threshold := 0, fallback := .hold,
             fallbackLevel := 0 },
           { source := 12, signal := 5, chan := 9, transform := .direct, threshold := 0, fallback := .level,
             fallbackLevel := 64 }]
        store := [{ source := 12, signal := 5, value := 180, age := 9, state := .fresh }]
        inputs := lowInputs
        phaseOn := true
        pubCount := 0 }
    sched := { State.reset.sched with listen := 0 }
    loader := { phase := .loaded, station := 4, runMode := .running, buffer := [],
                config := some { params := parameters, records := records } } }

/-- `up` with the completed-period count `n`. -/
def upAt (n : Nat) : State := up.setTimer { up.timer with completed := n }

/-- Channel `c` in ON at full demand, or at `duty` for a PWM channel. -/
def switchedOn (c : Chan) (duty : Nat) (s : State) : State :=
  s.updCh c fun x =>
    { x with state := .on, demandLevel := duty, demandDuty := duty, effectiveDuty := duty, activeDuty := duty,
             shadowDuty := duty }

/-- Channel `c` in INRUSH at full demand with `left` epochs of its window to come. -/
def surgingOn (c : Chan) (left : Nat) (s : State) : State :=
  s.updCh c fun x =>
    { x with state := .inrush, demandLevel := 255, demandDuty := 255, effectiveDuty := 255, activeDuty := 255,
             shadowDuty := 255, inrushRemaining := left }

/-- Channel `c` in REQUESTED, at the tail of the queue. -/
def waitingFor (c : Chan) (s : State) : State :=
  joined c (s.updCh c fun x => { x with state := .requested, demandLevel := 255, demandDuty := 255 })

/-- Channel `c` in SHED by a cut, its demand on. -/
def shedOff (c : Chan) (s : State) : State :=
  s.updCh c fun x => { x with state := .shed, shedReason := .budget, demandLevel := 255 }

/-- A claim of channel 3 in a phase. -/
def claimOn (phase : ClaimPhase) : Claim :=
  { phase := phase, chan := 3, cls := 1, amount := 300, hold := 3, byFrame := true }

/-- A record of an OVERCURRENT at two attempts (chapter 9, the tester's sequence). -/
def lampRecord : FaultRecord :=
  { kind := .overcurrent, current := 200, epoch := 90, step := 12, attempts := 2, persistNoted := false, isNew := true }

/-- Channel 2 LATCHED with that record, its demand on. -/
def latchedLamp : State :=
  (up.updCh 2 fun x => { x with state := .latched, demandLevel := 255, demandDuty := 255, fault := lampRecord }).refreshFault

/-- `up` MUTED with `n` good frames counted. -/
def mutedAt (n : Nat) : State := (up.setLink { up.link with muted := true, txErr := 134, good := n }).refreshInUse

/-- The part in the READING phase with straps for station 4. -/
def readingState : State := { State.reset with loader := { State.reset.loader with phase := .reading, station := 4 } }

/-- An image of zeros for `n` bindings with its header, and a sum field that fits it. -/
def plainImage (n : Nat) : List Byte :=
  let total := 1 + n + (imageLength n) / 256 + (imageLength n) % 256
  [1, byteOf ((imageLength n) / 256), byteOf (imageLength n), byteOf n] ++
    (List.replicate (imageLength n - 6) 0 ++ [byteOf (total / 256), byteOf total])

/-! ### Numbers the spec works out -/

/-- Chapter 2: station 5, channel 6 has edge offset 167; at duty 120 it is sampled at step 227, at duty 60 at 197. -/
theorem test_edge_offset :
    edgeOffset 5 6 = 167 ∧ sampleStep 5 6 120 = 227 ∧ sampleStep 5 6 60 = 197 ∧ inWindow 167 120 0 = true ∧
    inWindow 167 60 0 = false ∧ inWindow 167 120 31 = true ∧ inWindow 167 120 32 = false := by decide

/-- R170: a RESERVE from station 3 carries 001 0011 in frame bits 2–8. -/
theorem test_arbitration_bits :
    (RawFrame.bits { kind := 1, station := 3, payload := [] }).take 8 =
      [false, false, false, true, false, false, true, true] := by decide +kernel

/-- R170's register with the published check value of its generator: the bytes of "123456789" give 29B1H. -/
theorem test_check_sequence : crc (payloadBits [49, 50, 51, 52, 53, 54, 55, 56, 57]) = 0x29B1#16 := by decide +kernel

/-- Chapter 7: the shares of stations A, B and C of an excess of 350. -/
theorem test_shares :
    cutOf 350 250 150 = 150 ∧ cutOf 350 250 100 = 100 ∧ cutOf 100 170 80 = 48 ∧ cutOf 100 170 0 = 0 ∧ cutOf 100 170 90 = 53 ∧
    excessAfter 350 250 = 100 ∧ excessAfter 100 170 = 0 := by decide

/-- Chapter 7: at A the heaters are shed and the fan is throttled to 80. -/
theorem test_cut_applied :
    let s := ((switchedOn 12 200 (switchedOn 13 120 (switchedOn 9 200 up))).updCh 12 fun x => { x with epochDraw := 90 })
    let a := (s.updCh 13 fun x => { x with epochDraw := 60 }).updCh 9 fun x => { x with epochDraw := 80 }
    let t := applyCut 2 48 (applyCut 3 150 a)
    (t.ch 12).state = .shed ∧ (t.ch 13).state = .shed ∧ (t.ch 9).state = .on ∧ (t.ch 9).cap = 80 := by decide +kernel

/-- Chapter 10: the clamped fields of station 11's image. -/
theorem test_clamped_fields :
    withDefault 65535 1000 4095 = 1000 ∧ clampRestoreStep 0 = 1 ∧ min 240 (withDefault 230 220 390) = 230 ∧
    clsOf 6 = 3 ∧ sourceOf 18 = 15 ∧ signalOf 70 = 63 := by decide

/-- An ill-formed command for each check of well-formedness is refused. -/
theorem test_ill_formed :
    (Instr.periodCompleted charging { anyOrder with tasks := [.budget, .budget] }).wf = false ∧
    (Instr.ownExpiry charging { anyOrder with tasks := [.signals, .signals] }).wf = false ∧
    (Instr.ownExpiry charging { anyOrder with tasks := [.signals], within := [[], [.signals]] }).wf = false ∧
    (Instr.ownExpiry charging { anyOrder with within := [[.retries], [.retries]] }).wf = false ∧
    (Instr.ownExpiry charging { anyOrder with within := [[.admission]] }).wf = false ∧
    (Instr.ownExpiry charging { anyOrder with within := [[.signals]], granting := [.signals] }).wf = false ∧
    (Instr.ownExpiry charging { anyOrder with granting := [.supplyTest] }).wf = false ∧
    (Instr.ownExpiry charging { anyOrder with within := [[], [.signals]], granting := [.retries] }).wf = true ∧
    (Instr.short 0 255 700).wf = false ∧ (Instr.thermal 0 255).wf = false ∧ (Instr.contentionLost 1).wf = false ∧
    (Instr.contentionLost 9).wf = false ∧ (Instr.abort 0).wf = false ∧ (Instr.abort 8).wf = false ∧
    (Instr.abort 100).wf = false ∧ (Instr.discardedReception (List.replicate 100 (true, true))).wf = false ∧
    (Instr.discardedReception [] (List.replicate 9 (true, true))).wf = false ∧
    (Instr.lineIdle (List.replicate 10 (true, true))).wf = false ∧
    (Instr.markReceived 3 [] charging anyOrder).wf = false ∧
    (Instr.markReceived 3 [1] charging { anyOrder with tasks := [.budget, .budget] }).wf = false ∧
    (Instr.reserveReceived 3 [1, 2]).wf = false ∧ (Instr.releaseReceived 3 []).wf = false ∧
    (Instr.statusReceived 3 [1]).wf = false ∧ (Instr.signalReceived 3 (List.replicate 9 0)).wf = false ∧
    (Instr.reportFrameReceived 3 (List.replicate 9 0)).wf = false ∧
    (Instr.kind7FrameReceived 3 (List.replicate 9 0)).wf = false ∧ (Instr.channel 3 4 16).wf = false ∧
    (Instr.peer 3 4 16).wf = false ∧ (Instr.clear 3 4 16).wf = false ∧ (Instr.record 3 4 16).wf = false ∧
    (Instr.payloadLengthDiscard .mark 3 [1]).wf = false ∧
    (Instr.payloadLengthDiscard .mark 3 (List.replicate 9 0)).wf = false := by decide

/-! ### One step of each command -/

/-- RESET leaves a part held with its outputs off, whatever it did. -/
theorem test_reset : ran .reset (switchedOn 9 200 up) = State.reset := by decide +kernel

/-- Straps 1 and 2 open, the others low: station 6. -/
theorem test_hold_ends :
    (ran (.holdEnds { stn0 := .low, stn1 := .floating, stn2 := .high, stn3 := .low }) State.reset).loader.station = 6 := by
  decide +kernel

/-- A silent memory reads as 255, so the station enters LIMP and lamp 2 follows DIN2 (R163, R168). -/
theorem test_read_stops_limp :
    let t := ran (.readStops [] { lowInputs with din2 := true }) readingState
    t.loader.runMode = .limp ∧ (t.ch 2).state = .inrush ∧ (t.ch 1).state = .off ∧ t.sched.announceAmount = 300 := by
  decide +kernel

/-- An image that all three checks pass is run, and one with its sum off by one is not (R164). -/
theorem test_read_stops_running :
    (ran (.readStops (plainImage 0) lowInputs) readingState).loader.runMode = .running ∧
    (ran (.readStops ((plainImage 0).set 4 1) lowInputs) readingState).loader.runMode = .limp := by decide +kernel

/-- R163: the command 3 and the address 0 most significant bit first, then the bytes of the image; 24 and 8 × 510 cycles. -/
theorem test_read_over_the_port :
    ((portCycles [0x81]).map PortCycle.out).take 24 = (payloadBits [3, 0, 0]).map some ∧
    ((portCycles [0x81]).map PortCycle.sampled).drop 24 =
      [some true, some false, some false, some false, some false, some false, some false, some true] ∧
    (portCycles (List.replicate 510 0)).length = 4104 ∧ clockedIn 2 (portCycles [0x81, 0x0F]) = [0x81, 0x0F] := by
  decide +kernel

/-- A sample of 151 at duty 170 is weighted, and the shadow duty becomes active (R26, R43). -/
theorem test_period_completed :
    let s := up.updCh 9 fun x =>
      { x with drawAcc := 76670, pendingTerm := some { sample := 151, duty := 170 }, shadowDuty := 100 }
    let t := ran (.periodCompleted charging anyOrder) s
    (t.ch 9).drawAcc = 102340 ∧ (t.ch 9).activeDuty = 100 ∧ t.timer.completed = 1 := by decide +kernel

/-- Chapter 3: an accumulator of 102 340 over 4 periods is a draw of 100, and D2 carries it. -/
theorem test_own_expiry :
    let t := ran (.ownExpiry charging anyOrder) ((upAt 3).updCh 9 fun x => { x with drawAcc := 102340 })
    (t.ch 9).epochDraw = 100 ∧ t.sense.draws.d2 = 100 ∧ t.timer.number = 58 ∧ t.timer.markPending = true ∧
    t.link.slots.mark = some (.mark 58) := by decide +kernel

/-- R127: lamp 2's demand falls between the reading of class 1 and the order to it, for a cut of 20 in draws of 20 and 20. The order is
ignored and the draw counts, so lamp 3 stays on; a fall taken before the class is read leaves lamp 3 to be shed. -/
theorem test_fall_before_the_order_arrives :
    let held : Binding :=
      { source := 4, signal := 60, chan := 3, transform := .direct, threshold := 0, fallback := .hold, fallbackLevel := 0 }
    let high : DinLevels := { lowInputs with din0 := true }
    let lamp (c : Chan) (s : State) := (switchedOn c 255 s).updCh c fun x => { x with drawAcc := 20400 }
    let lamps := (lamp 2 (lamp 3 (upAt 3))).updCh 0 fun x => { x with drawAcc := 336600 }
    let s := (lamps.setSignal { lamps.signal with bindings := [held], inputs := high }).setLink { lamps.link with muted := true }
    let t (within : List (List EpochTask)) :=
      ran (.ownExpiry { charging with din := high } { anyOrder with within := within }) s
    (t []).budget.cut1 = 20 ∧
    ((t [[], [], [.signals]]).ch 2).state = .off ∧ ((t [[], [], [.signals]]).ch 3).state = .on ∧
    ((t [[.signals]]).ch 2).state = .off ∧ ((t [[.signals]]).ch 3).state = .shed := by decide +kernel

/-- R68: the entry of age 9 expires before any channel is resolved at the epoch start, so that a change of DIN0 that is read
first resolves channel 9 to the fallback level 64 and not to the value 180. -/
theorem test_ageing_comes_first :
    let both : Binding :=
      { source := 4, signal := 60, chan := 9, transform := .invert, threshold := 0, fallback := .hold, fallbackLevel := 0 }
    let s := up.setSignal { up.signal with bindings := both :: up.signal.bindings }
    ((runTask 4 { lowInputs with din0 := true } .readInputs (countEpochs false s)).ch 9).demandLevel = 64 := by decide +kernel

/-- Chapter 3: 51 000 over 2 periods is a draw of 100, and the MARK's number is taken. -/
theorem test_mark_received :
    let s := (upAt 2).updCh 9 fun x => { x with drawAcc := 51000, pendingTerm := some { sample := 149, duty := 100 } }
    let t := ran (.markReceived 3 [72] charging anyOrder) s
    (t.ch 9).epochDraw = 100 ∧ t.timer.number = 72 ∧ t.timer.completed = 0 := by decide +kernel

/-- Chapter 2: B's realignment keeps its epoch and takes the number. -/
theorem test_mark_realigns :
    let t := ran (.markReceived 3 [59] charging anyOrder) (up.setTimer { up.timer with markPending := true })
    t.timer.number = 59 ∧ t.timer.markPending = false ∧ (t.signal.store.map (·.age)) = [9] := by decide +kernel

/-- Chapter 4: the entry of signal 5 reaches the lifetime, and the channel bound to it takes its fallback level 64. -/
theorem test_signal_expiry :
    let s := up.setStore [{ source := 12, signal := 5, value := 180, age := 10, state := .fresh }]
    let t := ran (.signalExpiry 12 5) s
    (t.ch 9).demandLevel = 64 ∧ (t.ch 9).state = .requested := by decide +kernel

/-- Chapter 6: an entry is PRESENT at age 4 and STALE at 5; STALE at 249 and ABSENT at 250. -/
theorem test_peer_waits :
    let d : Draws := { d0 := 400, d1 := 150, d2 := 0, d3 := 90 }
    let entry (pr : Presence) (age : Nat) : State := up.setPeer 3 { presence := pr, age := age, draws := some d }
    ((ran (.peerStale 3) (entry .present 4)).peer 3).presence = .present ∧
    ((ran (.peerStale 3) (entry .present 5)).peer 3).presence = .stale ∧
    ((ran (.peerAbsent 3) (entry .stale 249)).peer 3).presence = .stale ∧
    (ran (.peerAbsent 3) (entry .stale 250)).peer 3 = { presence := .absent, age := 250, draws := none } := by
  decide +kernel

/-- A hold that has run out takes its entry, and one that has not stays. -/
theorem test_hold_runs_out :
    let r (hold : Nat) : Reservation := { station := 12, ty := .announce, cls := 0, chan := 2, amount := 40, hold := hold }
    (ran (.holdRunsOut 12 .announce) (up.setReservations [r 0])).reservations = [] ∧
    (ran (.holdRunsOut 12 .announce) (up.setReservations [r 1])).reservations = [r 1] := by decide +kernel

/-- Chapter 1: a last sample of 138 passes a steady limit of 150; 151 is a STALL. -/
theorem test_inrush_window_end :
    let s (v : Nat) := (surgingOn 3 0 up).updCh 3 fun x => { x with lastSample := some v }
    ((ran (.inrushWindowEnd 3) (s 138)).ch 3).state = .on ∧ ((ran (.inrushWindowEnd 3) (s 151)).ch 3).state = .tripped ∧
    ((ran (.inrushWindowEnd 3) (s 151)).ch 3).fault.kind = .stall := by decide +kernel

/-- A retry joins the queue again. -/
theorem test_retry_due :
    let s := up.updCh 3 fun x => { x with state := .tripped, demandLevel := 255, demandDuty := 255, retryTimer := some 0 }
    ((ran (.retryDue 3) s).ch 3).state = .requested ∧ (ran (.retryDue 3) s).sched.queue = [3] := by decide +kernel

/-- Fifty epochs in ON reset the attempt count. -/
theorem test_attempt_reset :
    let s := (switchedOn 3 255 up).updCh 3 fun x => { x with onEpochs := 50, fault := lampRecord }
    ((ran (.attemptReset 3) s).ch 3).fault.attempts = 0 ∧ ((ran (.attemptReset 3) s).ch 3).fault.isNew = true := by
  decide +kernel

/-- A publication at a count of 8, and none at 7. -/
theorem test_periodic_publication :
    let s (n : Nat) := up.setSignal { up.signal with pubCount := n }
    (ran .periodicPublication (s 8)).link.slots.signal = some (.signal lowInputs) ∧
    ran .periodicPublication (s 7) = s 7 := by decide +kernel

/-- A silence count of 10 makes the link ISOLATED, and 9 does not. -/
theorem test_isolated_entry :
    (ran .isolatedEntry (up.setLink { up.link with silence := 10 })).link.isolated = true ∧
    (ran .isolatedEntry (up.setLink { up.link with silence := 9 })).link.isolated = false := by decide +kernel

/-- The second sample above the limit in force trips, and 2 retries are given before the latch (R47, R48, R52). -/
theorem test_current_sample :
    let s := switchedOn 9 200 up
    let t := (ran (.currentSample 9 151) s).updCh 9 fun x => { x with pendingTerm := none }
    (t.ch 9).overCount = 1 ∧ ((ran (.currentSample 9 600) t).ch 9).state = .tripped ∧
    ((ran (.currentSample 9 600) t).ch 9).fault.current = 511 ∧ ((ran (.currentSample 9 600) t).ch 9).retryTimer = some 2 := by
  decide +kernel

/-- The second sample below V_CUT cuts every channel (R60). -/
theorem test_supply_sample :
    let s := (switchedOn 9 200 up).setSense { up.sense with lowSamples := 1 }
    (ran (.supplySample 159) s).sense.supply = .cut ∧ ((ran (.supplySample 159) s).ch 9).state = .cut ∧
    (ran (.supplySample 160) s).sense.lowSamples = 0 := by decide +kernel

/-- The comparator fires above 640 dA alone, and a channel that has been shed is only cut off (R49). -/
theorem test_short :
    let s := switchedOn 9 200 up
    let shedOne := s.updCh 9 fun x => { x with state := .shed }
    ((ran (.short 9 142 641) s).ch 9).fault.kind = .short ∧ ran (.short 9 142 640) s = s ∧
    ((ran (.short 9 142 641) shedOne).ch 9).activeDuty = 0 ∧ ((ran (.short 9 142 641) shedOne).ch 9).fault.kind = .none := by
  decide +kernel

/-- A THERMAL trip records the last sample. -/
theorem test_thermal :
    let s := (switchedOn 9 200 up).updCh 9 fun x => { x with lastSample := some 138 }
    ((ran (.thermal 9 142) s).ch 9).fault.kind = .thermal ∧ ((ran (.thermal 9 142) s).ch 9).fault.current = 138 := by
  decide +kernel

/-- Chapter 1: ISOLATE high cuts a waiting heater, and low sends it to REQUESTED again. -/
theorem test_isolate_change :
    let t := ran (.isolateChange true) (waitingFor 9 up)
    (t.ch 9).state = .cut ∧ t.sched.queue = [] ∧ ((ran (.isolateChange false) t).ch 9).state = .requested ∧
    (ran (.isolateChange false) t).sched.queue = [9] := by decide +kernel

/-- Three slots hold frames. -/
def threeSlots : State :=
  up.setLink { up.link with
    slots := { up.link.slots with
      reserveOrdinary := some (.reserve .ordinary 1 3 300 3), signal := some (.signal lowInputs)
      status := some (.status up.statusContent) } }

/-- `n` recessive bits. -/
def recessive (n : Nat) : List (Bool × Bool) := List.replicate n (true, true)

/-- Chapter 5: of a RESERVE, a SIGNAL and a STATUS the RESERVE is offered. -/
theorem test_line_idle : (ran .lineIdle threeSlots).link.onLine = some (.reserve .ordinary) := by decide +kernel

/-- R79: 10 recessive bits are no idle; a dominant level after 9 begins the count again, and one after 10 is a start. -/
theorem test_line_idle_counts :
    let offered (bits : List (Bool × Bool)) := (ran (.lineIdle bits) threeSlots).link.onLine.isSome
    offered (recessive 10) = false ∧ offered (recessive 11) = true ∧
    offered (recessive 9 ++ (false, false) :: recessive 10) = false ∧
    offered (recessive 9 ++ (false, false) :: recessive 11) = true ∧
    offered (recessive 10 ++ (false, false) :: recessive 11) = false := by decide +kernel

/-- The RESERVE of station 4 sends 001 0100: it can lose at frame bits 4 and 6, and at no other. -/
theorem test_contention_lost :
    (ran (.contentionLost 4) (ran .lineIdle threeSlots)).link.onLine = none ∧
    ran (.contentionLost 5) (ran .lineIdle threeSlots) = ran .lineIdle threeSlots ∧
    (ran (.contentionLost 6) (ran .lineIdle threeSlots)).link.slots = threeSlots.link.slots := by decide +kernel

/-- Chapter 5: an abort at 126 mutes the link and empties the slots; one at 104 does not. -/
theorem test_abort :
    let s (n : Nat) := ran .lineIdle (threeSlots.setLink { threeSlots.link with txErr := n })
    (ran (.abort 20) (s 126)).link.muted = true ∧ (ran (.abort 20) (s 126)).link.txErr = 134 ∧
    (ran (.abort 20) (s 126)).link.slots = LinkController.reset.slots ∧ (ran (.abort 20) (s 104)).link.txErr = 112 := by
  decide +kernel

/-- Chapter 5: the completion of the RESERVE at a count of 112 leaves 111, the entry in the list and the claim SETTLING. -/
theorem test_transmit_completion :
    let s := (ran .lineIdle (threeSlots.setLink { threeSlots.link with txErr := 112 })).setClaim (some (claimOn .pendingTx))
    let t := ran .transmitCompletion s
    t.link.txErr = 111 ∧ t.link.standingOrd = true ∧ t.sched.ordinary = some (claimOn .settling) ∧
    t.reservations = [{ station := 4, ty := .ordinary, cls := 1, chan := 3, amount := 300, hold := 3 }] := by decide +kernel

/-- Both samples of every bit of a frame. -/
def samplesOf (f : RawFrame) : List (Bool × Bool) := f.bits.map fun b => (b, b)

/-- A frame of one payload byte is 43 bits; with its last end bit dominant it is discarded, and as sent it is not (R85,
R170). -/
theorem test_discarded_reception :
    let sent := samplesOf { kind := 0, station := 3, payload := [58] }
    sent.length = 43 ∧ (ran (.discardedReception (sent.set 42 (false, false))) up).link.rxErr = 1 ∧
    ran (.discardedReception sent) up = up := by decide +kernel

/-- R79: a dominant level after 9 recessive bits is no start and no error, and one after 10 that does not last is a false start
(R85); a coding error breaks the run of good frames while MUTED (R93). -/
theorem test_discarded_reception_starts :
    (ran (.discardedReception [(false, true)] (recessive 9)) up).link.rxErr = 0 ∧
    (ran (.discardedReception [(false, true)] (recessive 10)) up).link.rxErr = 1 ∧
    (ran (.discardedReception [(true, true)] (recessive 10)) up).link.rxErr = 0 ∧
    (ran (.discardedReception [(false, true)]) (mutedAt 98)).link.good = 0 := by decide +kernel

/-- R171: the kind codes and the items, read at station 4 from frames of station 14. -/
theorem test_received_commands :
    let got (kind : Fin 8) (payload : List Byte) :=
      receivedCommand 4 { kind := kind, station := 14, payload := payload } charging anyOrder
    got 0 [58] = .markReceived 14 [58] charging anyOrder ∧ got 0 [] = .payloadLengthDiscard .mark 14 [] ∧
    got 1 [1, 2, 3] = .reserveReceived 14 [1, 2, 3] ∧ got 2 [5] = .releaseReceived 14 [5] ∧ got 3 [] = .signalReceived 14 [] ∧
    got 4 [0, 0, 0, 0, 0, 0, 0, 255] = .statusReceived 14 [0, 0, 0, 0, 0, 0, 0, 255] ∧ got 5 [0x40, 9] = .summary 14 4 9 ∧
    got 5 [0x41, 15] = .channel 14 4 15 ∧ got 5 [0x41, 16] = .queryIgnored 14 0x41 16 ∧
    got 5 [0x90, 0] = .queryIgnored 14 0x90 0 ∧ got 5 [0x45, 16] = .clearAll 14 4 16 ∧
    got 5 [0x47, 0] = .queryIgnored 14 0x47 0 ∧ got 5 [0x40] = .payloadLengthDiscard .query 14 [0x40] ∧
    got 6 [] = .reportFrameReceived 14 [] ∧ got 7 [] = .kind7FrameReceived 14 [] := by decide +kernel

/-- Chapter 6: station 12's announce of 40 dA for channel 2, hold 3. -/
theorem test_reserve_received :
    (ran (.reserveReceived 12 [0x82, 0x20, 0x28]) up).reservations =
      [{ station := 12, ty := .announce, cls := 0, chan := 2, amount := 40, hold := 3 }] := by decide +kernel

/-- A RELEASE removes the entry of its type whatever channel it names (R106). -/
theorem test_release_received :
    (ran (.releaseReceived 12 [0x85]) (ran (.reserveReceived 12 [0x82, 0x20, 0x28]) up)).reservations = [] := by
  decide +kernel

/-- Chapter 6: station 3's STATUS of D0 400, D1 150, D2 0, D3 90. -/
theorem test_status_received :
    (ran (.statusReceived 3 [0x19, 0x00, 0x96, 0x00, 0x00, 0x5A, 0, 255]) up).peer 3 =
      { presence := .present, age := 0, draws := some { d0 := 400, d1 := 150, d2 := 0, d3 := 90 } } := by decide +kernel

/-- Chapter 4: the pair (5, 180) is written and drives channel 9; a payload of one and a half pairs is discarded (R67). -/
theorem test_signal_received :
    ((ran (.signalReceived 12 [5, 180]) up).ch 9).demandLevel = 180 ∧
    ((ran (.signalReceived 12 [5, 180, 5]) up).ch 9).demandLevel = 0 := by decide +kernel

/-- Chapter 5: the hundredth good frame leaves MUTED. -/
theorem test_report_frame_received :
    (ran (.reportFrameReceived 14 []) (mutedAt 99)).link.muted = false ∧
    (ran (.reportFrameReceived 14 []) (mutedAt 98)).link.good = 99 := by decide +kernel

/-- A frame of kind 7 ends ISOLATED and sets the listen count to 2 (R95, R143). -/
theorem test_kind_7_frame_received :
    let s := up.setLink { up.link with isolated := true, silence := 10 }
    (ran (.kind7FrameReceived 14 []) s).link.isolated = false ∧ (ran (.kind7FrameReceived 14 []) s).sched.listen = 2 := by
  decide +kernel

/-- Chapter 9: CHANNEL 2 reads LATCHED, OVERCURRENT, new, attempts 2 and epoch 90. -/
theorem test_channel :
    (ran (.channel 14 4 2) latchedLamp).link.slots.report = some (.report 1 2 [0xCA, 255, 255, 0, 0x20, 90]) := by
  decide +kernel

/-- RECORD 2 of the same lamp: kind 2, new, attempts 2; 200 dA; epoch 90; step 12. -/
theorem test_record :
    (ran (.record 14 4 2) latchedLamp).link.slots.report = some (.report 6 2 [0x52, 0x32, 0x00, 90, 12, 0]) := by
  decide +kernel

/-- Chapter 9: CLEAR 2 frees the lamp, which joins the queue, and the FAULT pin is deasserted. -/
theorem test_clear :
    let t := ran (.clear 14 4 2) latchedLamp
    (t.ch 2).state = .requested ∧ t.sched.queue = [2] ∧ t.diag.faultAsserted = false ∧ (t.ch 2).fault.attempts = 0 ∧
    (t.ch 2).fault.epoch = 90 := by decide +kernel

/-- CLEAR ALL frees it as well and clears the clash count. -/
theorem test_clear_all :
    let t := ran (.clearAll 14 4 0) (clash latchedLamp)
    (t.ch 2).state = .requested ∧ t.link.clash = 0 ∧ t.diag.faultAsserted = false := by decide +kernel

/-- SUMMARY of the lamp's station: RUNNING, one new fault, no excess read. -/
theorem test_summary :
    (ran (.summary 14 4 0) latchedLamp).link.slots.report = some (.report 0 0 [0, 0, 1, 0, 0, 0]) := by decide +kernel

/-- LINK reads the counts. -/
theorem test_link :
    (ran (.link 14 4 9) (mutedAt 0)).link.slots.report = none ∧
    (ran (.link 14 4 9) (up.setLink { up.link with txErr := 7, rxErr := 1 })).link.slots.report =
      some (.report 3 9 [7, 1, 0, 0, 0, 0]) := by decide +kernel

/-- PEER 3 reads its presence, age and the sum 640. -/
theorem test_peer :
    let s := up.setPeer 3 { presence := .stale, age := 249, draws := some { d0 := 400, d1 := 150, d2 := 0, d3 := 90 } }
    (ran (.peer 14 4 3) s).link.slots.report = some (.report 2 3 [0x80, 249, 2, 0x80, 0, 0]) := by decide +kernel

/-- Chapter 9: SUMMARY for station 9 is ignored, and a CLEAR while a report is pending is dropped and counted. -/
theorem test_query_ignored :
    (ran (.queryIgnored 14 0x90 0) latchedLamp).diag = latchedLamp.diag ∧
    (ran (.clear 14 4 2) (ran (.channel 14 4 2) latchedLamp)).diag.overruns = 1 ∧
    ((ran (.clear 14 4 2) (ran (.channel 14 4 2) latchedLamp)).ch 2).state = .latched := by decide +kernel

/-- A MARK of two bytes is a receive error (R86). -/
theorem test_payload_length_discard :
    (ran (.payloadLengthDiscard .mark 3 [58, 0]) up).link.rxErr = 1 ∧
    ran (.payloadLengthDiscard .mark 3 [58]) up = up := by decide +kernel

/-- Chapter 6: 1000 + 40 + 300 is admitted under 1550, and 1000 + 340 + 230 is not. -/
theorem test_admission :
    let ahead : Reservation := { station := 12, ty := .announce, cls := 0, chan := 2, amount := 40, hold := 2 }
    let own (amount : Nat) : Reservation :=
      { station := 4, ty := .ordinary, cls := 1, chan := 3, amount := amount, hold := 2 }
    let s := ((waitingFor 3 up).setClaim (some (claimOn .settling))).setBudget
      { up.budget with carried := { up.budget.carried with zone := { base := 1600, limit := 1550, steady := 1000, excess := 0 } } }
    ((decideAdmission (s.setReservations [ahead, own 300])).ch 3).state = .inrush ∧
    (decideAdmission (s.setReservations [ahead, own 511])).sched.deferral = 2 ∧
    ((decideAdmission (s.setReservations [ahead, own 511])).ch 3).state = .requested := by decide +kernel

/-! ### States that meet the hypotheses of the statements, and of their clauses -/

/-- What a valid frame leads to, for every statement that names it `u`. -/
theorem witness_valid_frame (s : State) (p : Stn) :
    exec (.kind7FrameReceived p []) s = .next (ran (.kind7FrameReceived p []) s) := rfl

theorem witness_StepRunsTheFrontCommand :
    ({ up with pending := [.lineIdle, .reset] } : State).pending = .lineIdle :: [.reset] := rfl

theorem witness_NothingIsTakenBeforeLoadEnd : State.reset.isLoaded = false ∧ readingState.isLoaded = false := by
  decide +kernel

/-- Number 0, 15 with all straps open, and 4. -/
theorem witness_HoldEndsReadsTheStraps :
    strapNumber { stn0 := .low, stn1 := .low, stn2 := .low, stn3 := .low } = 0 ∧
    strapNumber { stn0 := .floating, stn1 := .floating, stn2 := .floating, stn3 := .floating } = 15 ∧
    strapNumber { stn0 := .low, stn1 := .low, stn2 := .high, stn3 := .low } = 4 ∧
    State.reset.loader.phase = .held ∧ up.loader.phase ≠ .held := by decide +kernel

/-- No binding, the full 48, one too many, and a memory that answers nothing. -/
theorem witness_AnImageIsReadAndCheckedExactly :
    imageAccepted (readImage (plainImage 0)) = true ∧ imageAccepted (readImage (plainImage 48)) = true ∧
    (readImage (plainImage 48)).length = 510 ∧ (readImage (plainImage 49)).length = 4 ∧ (readImage []).length = 4 ∧
    imageAccepted (readImage ((plainImage 0).set 4 1)) = false := by decide +kernel

/-- Bytes of 0 and of 255 where R165 gives a default, the least windows and limits, and a binding that names channel 15 and one
that names 16 (R172). -/
theorem witness_EveryImageIsClampedIntoRange :
    let image := [(4, 255), (5, 255), (6, 255), (15, 9), (18, 1), (222, 15), (228, 16)].foldl
      (fun l (p : Nat × Byte) => l.set p.1 p.2) (plainImage 2)
    let k := imageConfiguration image
    k.params.limitRun = 1600 ∧ k.params.limitBatt = 4095 ∧ k.params.limitAlone = 0 ∧ k.params.restoreStep = 1 ∧
    k.params.lifetime = 2 ∧ k.params.rotationN = 3 ∧ k.params.vLow = 0 ∧ k.params.vCut = 0 ∧
    (k.records[(15 : Chan)]).steadyLimit = 1 ∧ (k.records[(15 : Chan)]).window = 1 ∧
    (imageBindings image).map (·.chan) = [15] := by decide +kernel

/-- Of three records the third matches the first but for its transform: the first is kept, and the Store has its key first. -/
theorem witness_EveryImageIsClampedIntoRange_matching :
    let image := [(220, 2), (221, 5), (222, 1), (226, 1), (227, 5), (228, 1), (232, 2), (233, 5), (234, 1), (235, 1)].foldl
      (fun l (p : Nat × Byte) => l.set p.1 p.2) (plainImage 3)
    ((imageBindings image).map fun b => (b.source, b.transform)) = [(2, .direct), (1, .direct)] ∧
    (imageBinding image 2).map (·.transform) = some .switch ∧
    ((storeOf 4 (imageBindings image)).map (·.source)) = [2, 1] := by decide +kernel

theorem witness_ReadStopsSetsThePartGoing :
    readingState.HeldAtReset ∧ readingState.loader.phase = .reading ∧
    (readingState.setPins { isolate := true, charge := false }).HeldAtReset := by decide +kernel

/-- In LIMP with DIN0 and DIN2 high: lamp 0 raises the announce amount to 300, and lamp 2, which the RESERVE names, to 600; with all
inputs low nothing is announced (R149, R153, R168). -/
theorem witness_ReadStopsSetsThePartGoing_announce :
    let t (din : DinLevels) := ran (.readStops [] din) readingState
    let both : DinLevels := { lowInputs with din0 := true, din2 := true }
    (t both).link.slots.reserveAnnounce = some (.reserve .announce 0 2 600 3) ∧ (t both).sched.announceAmount = 600 ∧
    (t both).sched.announceHold = 3 ∧ ((t both).ch 0).inrushRemaining = 2 ∧ ((t both).ch 0).runningMarker = true ∧
    (t lowInputs).link.slots.reserveAnnounce = none := by decide +kernel

theorem witness_LimpRunsTheFixedConfiguration :
    readingState.loader.phase = .reading ∧ imageAccepted (readImage []) = false := by decide +kernel

/-- Channel 9 of station 4 at duty 0, at 1 and at 255, and a Modulator that does not run. -/
theorem witness_OutputsAreOnForTheirDuty :
    (up.ch 9).activeDuty = 0 ∧ ((switchedOn 9 1 up).ch 9).activeDuty = 1 ∧ (switchedOn 9 1 up).onAt 9 142 = true ∧
    ((switchedOn 9 255 up).ch 9).activeDuty = 255 ∧ (switchedOn 9 255 up).onAt 9 141 = true ∧
    up.modulator.running = true ∧ State.reset.modulator.running = false := by decide +kernel

theorem witness_PeriodCompletedBeginsTheNextPeriod :
    up.isLoaded = true ∧ up.timer.completed = 0 ∧ (upAt 2).isLoaded = true ∧ (upAt 2).timer.completed < 3 := by decide +kernel

/-- DIN0 rises at the last period start of an epoch that opens none: channel 0 is bound to it, channel 9 is not, and the
station publishes. -/
theorem witness_APeriodStartReadsTheDirectInputs :
    (upAt 2).isLoaded = true ∧ (upAt 2).timer.completed < 3 ∧ ((upAt 2).cfg 0).enabled = true ∧
    ({ lowInputs with din0 := true } : DinLevels) ≠ (upAt 2).signal.inputs ∧ lowInputs = (upAt 2).signal.inputs ∧
    (upAt 2).params.dinPublish = true ∧ (upAt 2).loader.runMode = .running ∧ (upAt 2).link.muted = false ∧
    ((ran (.periodCompleted { din := { lowInputs with din0 := true }, charge := true } anyOrder) (upAt 2)).ch 0).state =
      .inrush := by decide +kernel

theorem witness_OwnExpiryStartsTheNextEpoch :
    (upAt 3).isLoaded = true ∧ (upAt 3).timer.completed = 3 ∧ (upAt 3).link.muted = false ∧
    ((mutedAt 5).setTimer { up.timer with completed := 3 }).link.muted = true := by decide +kernel

/-- A channel with an epoch of its window to come is marked for the closed epoch and the one beginning; one whose window ends and one
whose demand falls are marked for the closed epoch alone, where the fall is taken first; where the markers are moved first the fall
keeps its mark; a channel in ON is marked for neither (R45). -/
theorem witness_MarkersMoved :
    let lamp (c : Chan) : Binding :=
      { source := 4, signal := 60, chan := c, transform := .direct, threshold := 0, fallback := .hold, fallbackLevel := 0 }
    let marked (c : Chan) (left : Nat) (s : State) := (surgingOn c left s).updCh c fun x => { x with runningMarker := true }
    let s := (switchedOn 5 255 (marked 0 1 (marked 2 2 (marked 3 2 (upAt 3))))).setSignal
      { up.signal with bindings := [lamp 0, lamp 3, lamp 5], inputs := { lowInputs with din0 := true } }
    let t (tasks : List EpochTask) (c : Chan) := (ran (.ownExpiry { din := { lowInputs with din0 := true }, charge := true }
      { anyOrder with tasks := tasks }) s).ch c
    ((t [.windowEnds] 3).closedMarker, (t [.windowEnds] 3).runningMarker) = (true, true) ∧
    ((t [.windowEnds] 0).closedMarker, (t [.windowEnds] 0).runningMarker) = (true, false) ∧
    (t [.windowEnds] 0).state = .on ∧ (t [] 0).state = .inrush ∧ (t [] 0).runningMarker = false ∧
    ((t [.signals] 2).state, (t [.signals] 2).closedMarker, (t [.signals] 2).runningMarker) = (.off, true, false) ∧
    ((t [.closeMeasurement] 2).state, (t [.closeMeasurement] 2).runningMarker) = (.off, true) ∧
    ((t [] 5).closedMarker, (t [] 5).runningMarker) = (false, false) := by decide +kernel

/-- A window of two epochs to come, a retry in two epochs, a publication count of 6 and of 7, and a class 0 surge whose hold is
read before the windows move and after. -/
theorem witness_EpochCounted :
    let r := (surgingOn 3 2 (upAt 3)).updCh 2 fun x => { x with state := .tripped, demandLevel := 255, retryTimer := some 2 }
    let lamp (c : Chan) : Binding :=
      { source := 4, signal := 60, chan := c, transform := .direct, threshold := 0, fallback := .hold, fallbackLevel := 0 }
    let s (n : Nat) := (surgingOn 0 2 r).setSignal
      { up.signal with bindings := [lamp 0, lamp 2, lamp 3], inputs := { lowInputs with din0 := true }, pubCount := n }
    let t (n : Nat) (first : Bool) :=
      ran (.ownExpiry { din := { lowInputs with din0 := true }, charge := true } { anyOrder with schedulerFirst := first }) (s n)
    ((t 6 false).ch 3).state = .inrush ∧ ((t 6 false).ch 3).inrushRemaining = 1 ∧ ((t 6 false).ch 2).retryTimer = some 1 ∧
    (t 6 false).signal.pubCount = 7 ∧ (t 7 false).signal.pubCount = 8 ∧ (t 6 true).sched.announceHold = 3 ∧
    (t 6 false).sched.announceHold = 2 := by decide +kernel

/-- The fourth period of an epoch at a station that is alone, lamp 3 driven by DIN3 low: waiting, with a claim or with none. -/
def lampDue (claim : Option Claim) : State :=
  let lamp : Binding :=
    { source := 4, signal := 63, chan := 3, transform := .invert, threshold := 0, fallback := .hold, fallbackLevel := 0 }
  let s := waitingFor 3 (upAt 3)
  (((s.setSignal { s.signal with bindings := [lamp] }).setLink { s.link with isolated := true }).setClaim claim).refreshInUse

/-- A claim taken alone is granted at the own expiry, one that meets a settle count of 1 is given up with the deferral, and with no
claim the lamp is selected; the evaluation carries the settle count it began with. -/
theorem witness_EpochDecides :
    let s := lampDue (some { claimOn .settling with byFrame := false })
    let r := s.setBudget { s.budget with settle := 1 }
    let n := lampDue none
    let t (s : State) := ran (.ownExpiry charging anyOrder) s
    (∀ x ∈ [s, r, n], x.AdmissionRuled ∧ lowInputs = x.signal.inputs ∧ (t x).link.isolated = x.link.isolated ∧
      (∀ c, 1 ≤ (x.cfg c).window) ∧
      ∀ c, demandOn (x.cfg c).mode (x.ch c).demandLevel = true → demandOn (x.cfg c).mode ((t x).ch c).demandLevel = true) ∧
    ((t s).ch 3).state = .inrush ∧ ((t r).ch 3).state = .requested ∧ (t r).sched.ordinary = none ∧
    (t r).sched.deferral = 2 ∧ (t r).budget.carried.settle = 1 ∧ (t r).budget.settle = 0 ∧
    ((t n).sched.ordinary.map fun x => (x.phase, x.chan)) = some (.settling, 3) := by decide +kernel

/-- A claim made by frame whose RESERVE stands is granted at a MARK that opens an epoch, and one taken alone is given up (R148). -/
theorem witness_EpochDecides_mark :
    let s (byFrame : Bool) := (lampDue (some { claimOn .settling with byFrame := byFrame })).setReservations
      [{ station := 4, ty := .ordinary, cls := 1, chan := 3, amount := 300, hold := 2 }]
    let u (byFrame : Bool) := ran (.kind7FrameReceived 3 []) (s byFrame)
    let t (byFrame : Bool) := ran (.markReceived 3 [72] charging anyOrder) (s byFrame)
    (∀ x ∈ [true, false], (u x).AdmissionRuled ∧ lowInputs = (u x).signal.inputs ∧
      (t x).link.isolated = (u x).link.isolated ∧ ((t x).ch 3).demandLevel = 255) ∧
    ((t true).ch 3).state = .inrush ∧ ((t false).ch 3).state = .requested ∧ (t false).sched.ordinary = none := by
  decide +kernel

/-- R9, R145: channel 3's demand falls between its grant and the arrival of it. The claim was HELD, so a RELEASE goes out and no deferral
is set, and the channel is not marked. Taken before the admission the fall leaves no claim to decide; taken after, it ends a surge. -/
theorem test_fall_before_the_grant_arrives :
    let l := (lampDue (some (claimOn .settling))).setSignal { up.signal with bindings := [] }
    let s := (l.setLink { l.link with standingOrd := true }).setSched { l.sched with rotation := 1 }
    let t (o : EpochOrder) := ran (.ownExpiry charging o) s
    let amid := t { anyOrder with granting := [.signals] }
    let before := t { anyOrder with tasks := [.signals] }
    let after := t { anyOrder with tasks := [.admission] }
    (amid.ch 3).state = .off ∧ amid.sched.ordinary = none ∧ amid.sched.queue = [] ∧ amid.sched.deferral = 0 ∧
    amid.sched.rotation = 0 ∧ amid.link.slots.releaseOrdinary = some (.release .ordinary 3) ∧ (amid.ch 3).runningMarker = false ∧
    (before.ch 3).state = .off ∧ before.sched.rotation = 1 ∧
    (after.ch 3).state = .off ∧ after.sched.ordinary = none ∧ (after.ch 3).runningMarker = true := by decide +kernel

/-- A lamp in ON whose duty was raised in the period before: its shadow duty becomes active, whatever starts the period. -/
theorem witness_DutiesLoaded :
    let s := (switchedOn 3 255 (lampDue none)).updCh 3 fun x => { x with activeDuty := 0 }
    let m := (ran (.ownExpiry charging anyOrder) s).updCh 3 fun x => { x with activeDuty := 7 }
    let t := ran (.markReceived 3 [64] charging anyOrder) m
    let u := ran (.markReceived 3 [64] charging anyOrder) s
    (¬s.InputMoves lowInputs 3) ∧ m.timer.completed = 0 ∧ m.timer.markPending = true ∧ (m.ch 3).activeDuty = 7 ∧
    (∀ x ∈ [m, t, u], (x.ch 3).state = .on ∧ (x.ch 3).demandLevel = 255 ∧ (x.ch 3).shadowDuty = 255) ∧
    (t.ch 3).activeDuty = 255 ∧ (u.ch 3).activeDuty = 255 := by decide +kernel

/-- The configuration of every station above stands in its ranges, and so does that of LIMP. -/
theorem witness_configuration_in_range : up.configuration.InRange ∧ State.reset.configuration.InRange := by decide +kernel

/-- A mean of 170 at the own expiry ends the SUPPLY cut at V_CUT + 10 and 169 does not; with ISOLATE as a cause no channel leaves
CUT. Lamp 0 of class 0 surges again, and lamps 2 and 3 join the queue in ascending number. -/
theorem witness_SupplyCutEnds :
    let lamp (c : Chan) : Binding :=
      { source := 4, signal := 60, chan := c, transform := .direct, threshold := 0, fallback := .hold, fallbackLevel := 0 }
    let din : DinLevels := { lowInputs with din0 := true }
    let s := (waitingFor 2 (waitingFor 3 ((surgingOn 0 1 (upAt 3)).setAnnounce 200 2))).setSignal
      { up.signal with bindings := [lamp 0, lamp 2, lamp 3], inputs := din }
    let c := ran (.supplySample 159) (s.setSense { s.sense with lowSamples := 1 })
    let mean (n : Nat) (x : State) := x.setSense { x.sense with supplySum := 4 * n, pendingSupply := none }
    let t (x : State) := ran (.ownExpiry { din := din, charge := true } anyOrder) x
    let i := mean 170 (ran (.isolateChange true) c)
    c.CutRuled ∧ c.AdmissionRuled ∧ c.sense.supply = .cut ∧ i.CutRuled ∧ i.cuts.isolate = true ∧
    (t (mean 170 c)).sense.supply = .low ∧ (t (mean 169 c)).sense.supply = .cut ∧ ((t (mean 169 c)).ch 0).state = .cut ∧
    (t i).sense.supply = .low ∧ ((t i).ch 3).state = .cut ∧ ((t (mean 170 c)).ch 0).state = .inrush ∧
    ((t (mean 170 c)).ch 0).inrushRemaining = 2 ∧ ((t (mean 170 c)).ch 12).state = .off ∧
    (∀ d, ((t (mean 170 c)).ch d).demandLevel = (c.ch d).demandLevel) ∧ (t (mean 170 c)).sched.queue = [2, 3] ∧
    (t (mean 170 c)).sched.announceAmount = 200 := by decide +kernel

/-- A FLASH channel at a realignment: the number 64 turns the phase on, and 58, the number it has, resolves nothing (R71). -/
theorem witness_RealignmentResolvesFlash :
    let lamp : Binding :=
      { source := 4, signal := 63, chan := 3, transform := .flash, threshold := 0, fallback := .hold, fallbackLevel := 0 }
    let s := (up.setSignal { up.signal with bindings := [lamp], phaseOn := false }).setTimer
      { up.timer with number := 58, markPending := true }
    let t (b : Byte) := ran (.markReceived 3 [b] charging anyOrder) s
    ((t 64).ch 3).demandLevel = 255 ∧ ((t 58).ch 3).demandLevel = 0 ∧ (t 64).timer.number = 64 := by decide +kernel

/-- Counts 1 and 3, with an own MARK pending in its slot, on the line, and none. -/
theorem witness_AMarkAfterTheFirstPeriodIsFollowed :
    let s := ran (.ownExpiry charging anyOrder) (upAt 3)
    (3 : Stn) ≠ up.own ∧ (upAt 1).isLoaded = true ∧ 1 ≤ (upAt 1).timer.completed ∧ 1 ≤ (upAt 3).timer.completed ∧
    s.timer.markPending = true ∧ s.link.onLine ≠ some .mark ∧ (ran .lineIdle s).link.onLine = some .mark ∧
    (upAt 1).timer.markPending = false := by decide +kernel

theorem witness_AMarkInTheFirstPeriodStartsNoEpoch :
    let s := ran (.ownExpiry charging anyOrder) (upAt 3)
    (3 : Stn) ≠ s.own ∧ s.isLoaded = true ∧ s.timer.completed = 0 ∧ s.timer.markPending = true ∧
    s.link.onLine ≠ some .mark ∧ (ran .lineIdle s).link.onLine = some .mark ∧ up.timer.completed = 0 ∧
    up.timer.markPending = false := by decide +kernel

/-- Draws whose steady total stands exactly at the limit, one above it, and at a settle count of 0 and of 2. -/
theorem witness_AnEvaluationFormsItsFigures :
    let s (d3 : Nat) := (up.setSense { up.sense with draws := { d0 := 0, d1 := 0, d2 := 0, d3 := d3 } }).setPins
      { isolate := false, charge := true }
    (evaluateBudget (s 1250)).budget.cut3 = 0 ∧ (evaluateBudget (s 1251)).budget.cut3 = 1 ∧
    (evaluateBudget (s 1251)).budget.settle = 2 ∧ (evaluateBudget (s 1250)).budget.settle = 0 ∧
    (evaluateBudget ((s 1251).setBudget { up.budget with settle := 2 })).budget.settle = 1 ∧
    (evaluateBudget (s 1251)).budget.overload = false := by decide +kernel

/-- An evaluation with room: the lowest class that qualifies is restored, at L − H and not one above it; while the supply is LOW
class 3 is shed instead and class 2 alone restored (R121, R129–R131). -/
theorem witness_AnEvaluationFormsItsFigures_restores :
    let s (d0 : Nat) := ((shedOff 12 (shedOff 9 (switchedOn 13 200 up))).setSense
      { up.sense with draws := { d0 := d0, d1 := 0, d2 := 0, d3 := 0 } }).setPins { isolate := false, charge := true }
    let low := (s 0).setSense { (s 0).sense with supply := .low }
    (∀ k : Cls, k ≠ 0 → ((s 0).Qualifies k ↔ k = 2 ∨ k = 3) ∧ (low.Qualifies k ↔ k = 2) ∧ ¬up.Qualifies k) ∧
    (evaluateBudget (s 1150)).sched.queue = [9] ∧ (evaluateBudget (s 1151)).sched.queue = [] ∧
    ((evaluateBudget low).ch 13).shedReason = .supply ∧ (evaluateBudget low).sched.queue = [9] := by decide +kernel

/-- Chapter 7: station A's class 2 at a cut of 48, and one that takes all of its draw of 80. A cut of 81 sheds the fan, and lamp 5
as well where it draws. Of two lamps of class 1 and one rank the lower number is shed first. -/
theorem witness_ACutThrottlesThePwmChannels :
    let a := (switchedOn 9 200 up).updCh 9 fun x => { x with epochDraw := 80 }
    let b (draw : Nat) := (switchedOn 5 255 a).updCh 5 fun x => { x with epochDraw := draw }
    let drawing (c : Chan) (s : State) := (switchedOn c 255 s).updCh c fun x => { x with epochDraw := 20 }
    let lamps := drawing 2 (drawing 3 up)
    (∀ c, (a.cfg c).shedRank ≤ 15) ∧ ((applyCut 2 81 (b 20)).ch 9).state = .shed ∧
    ((applyCut 2 81 (b 20)).ch 5).state = .shed ∧ ((applyCut 2 81 (b 0)).ch 5).state = .on ∧
    ((applyCut 1 20 lamps).ch 2).state = .shed ∧ ((applyCut 1 20 lamps).ch 3).state = .on ∧
    ((applyCut 1 21 lamps).ch 3).state = .shed ∧
    ((allChans.filter fun c => (a.cfg c).cls = 2 && ((a.ch c).state = .on && !(a.ch c).closedMarker &&
      (a.cfg c).mode = .pwm)).map fun c => (a.ch c).epochDraw).sum = 80 ∧
    ((applyCut 2 48 a).ch 9).cap = 80 ∧ ((applyCut 2 80 a).ch 9).state = .shed := by decide +kernel

/-- R127: lamp 2's fall between the reading of class 1 and its order leaves lamp 3 on at a cut of 20. R125: the fan's duty is read when its
order is formed, so a duty of 100 gives the cap 40 where it comes before that, and the cap stays 80 where it comes after. -/
theorem witness_ACutThrottlesThePwmChannels_between :
    let drawing (c : Chan) (s : State) := (switchedOn c 255 s).updCh c fun x => { x with epochDraw := 20 }
    let lamps := drawing 2 (drawing 3 up)
    let fall (u : State) := u.updCh 2 fun x => { x with state := .off }
    let fan := (switchedOn 9 200 up).updCh 9 fun x => { x with epochDraw := 80 }
    let dim (u : State) := u.updCh 9 fun x => { x with effectiveDuty := 100 }
    let stay (u : State) := u
    EventsAt (fun c => c = 2) [fall] ∧ ((fall lamps).ch 2).state = .off ∧
    ((applyCutAmid 1 20 { between := [stay, fall], now := lamps }).finish.ch 3).state = .on ∧
    ((applyCutAmid 1 20 { between := [fall], now := lamps }).finish.ch 3).state = .shed ∧
    ((applyCutAmid 2 48 { between := [stay, dim], now := fan }).finish.ch 9).cap = 40 ∧
    ((applyCutAmid 2 48 { between := [stay, stay, dim], now := fan }).finish.ch 9).cap = 80 := by
  refine ⟨?_, by decide +kernel⟩
  intro event h u
  rw [List.mem_singleton.mp h]
  refine ⟨rfl, fun c => ?_⟩
  by_cases e : c = 2
  · subst e
    simp
  · simp [State.updCh_ch_ne _ _ _ e]

/-- A restore step: a cap of 80 is raised to 96, one of 250 to 255; of two heaters in SHED the one of higher rank joins the queue;
and with neither nothing moves (R130). -/
theorem witness_ACutThrottlesThePwmChannels_restores :
    let capped (n : Nat) := (switchedOn 9 200 up).updCh 9 fun x => { x with cap := n }
    let s := shedOff 12 (shedOff 13 up)
    (capped 80).IsCapped 2 9 ∧ ((restoreStep 2 (capped 80)).ch 9).cap = 96 ∧
    ((restoreStep 2 (capped 250)).ch 9).cap = 255 ∧ s.IsRestorable 3 12 ∧ s.IsRestorable 3 13 ∧ (∀ c, ¬s.IsCapped 3 c) ∧
    (restoreStep 3 s).sched.queue = [12] ∧ restoreStep 1 s = s := by decide +kernel

/-- A claim in SETTLING; and one taken alone that meets its decision when the station is not alone: it fails, though an own entry of
before MUTED still stands (R111, R148). -/
theorem witness_AdmissionNeedsRoomInTheFeed :
    let s := (waitingFor 3 up).setClaim (some (claimOn .settling))
    let e : Figures := { base := 1600, limit := 1550, steady := 0, excess := 0 }
    let decided (byFrame : Bool) := decideAdmission
      (((s.setClaim (some { claimOn .settling with byFrame := byFrame })).setBudget
        { up.budget with carried := { up.budget.carried with zone := e } }).setReservations
        [{ station := 4, ty := .ordinary, cls := 1, chan := 3, amount := 300, hold := 2 }])
    s.AdmissionRuled ∧ s.sched.ordinary = some (claimOn .settling) ∧ (claimOn .settling).phase = .settling ∧
    ((decided true).ch 3).state = .inrush ∧ ((decided true).ch 3).runningMarker = true ∧
    ((decided true).ch 3).lastSample = none ∧ ((decided true).ch 3).cap = 255 ∧ ((decided false).ch 3).state = .requested ∧
    (decided false).sched.ordinary = none := by decide +kernel

/-- A fall of demand and the start of a cut before the arrival of a grant: it is ignored, and the claim ends in HELD; an event that leaves
the channel in REQUESTED does not stop it; and after a failure the event comes when the claim is given up (R9, R145, R147). -/
theorem witness_AdmissionNeedsRoomInTheFeed_between :
    let e : Figures := { base := 1600, limit := 1550, steady := 0, excess := 0 }
    let l := (waitingFor 9 (waitingFor 3 up)).setClaim (some (claimOn .settling))
    let s := ((l.setLink { l.link with standingOrd := true }).setBudget
      { up.budget with carried := { up.budget.carried with zone := e } }).setReservations
        [{ station := 4, ty := .ordinary, cls := 1, chan := 3, amount := 300, hold := 2 }]
    let v (event : State → State) := decideAdmissionAmid [event] s
    let fails := decideAdmissionAmid [deliver 3 0] (s.setReservations [])
    s.AdmissionRuled ∧ demandOn (s.cfg 3).mode (s.ch 3).demandLevel = true ∧ demandOn (s.cfg 3).mode 0 = false ∧
    ((v (deliver 3 0)).ch 3).state = .off ∧ (v (deliver 3 0)).sched.ordinary = none ∧ (v (deliver 3 0)).sched.rotation = 1 ∧
    (v (deliver 3 0)).sched.queue = [9] ∧ (v (deliver 3 0)).link.slots.releaseOrdinary = some (.release .ordinary 3) ∧
    ((v cutBegins).ch 3).state = .cut ∧ (v cutBegins).sched.ordinary = none ∧
    ((v (deliver 9 0)).ch 3).state = .inrush ∧ (v (deliver 9 0)).sched.rotation = 1 ∧ (v (deliver 9 0)).sched.queue = [] ∧
    (fails.ch 3).state = .off ∧ fails.sched.deferral = 2 := by decide +kernel

/-- Two classes waiting, with rotation calling and not, and a queue that may not be served yet. -/
theorem witness_ASelectionClaimsTheLowestClass :
    let s := waitingFor 3 (waitingFor 9 up)
    let r := s.setSched { s.sched with rotation := 2 }
    s.AdmissionRuled ∧ r.AdmissionRuled ∧ s.sched.queue = [9, 3] ∧ ((select s).sched.ordinary.map Claim.chan) = some 3 ∧
    ((select r).sched.ordinary.map Claim.chan) = some 9 ∧
    select (s.setSched { s.sched with deferral := 1 }) = s.setSched { s.sched with deferral := 1 } := by decide +kernel

theorem witness_SignalExpiryHandsOverToTheFallback :
    let s := up.setStore [{ source := 12, signal := 5, value := 180, age := 10, state := .fresh }]
    s.isLoaded = true ∧ ∃ e ∈ s.signal.store, e.source = 12 ∧ e.signal = 5 ∧ e.state = .fresh ∧ s.params.lifetime ≤ e.age := by
  decide +kernel

/-- A window that has run out, with a last sample at the limit and one above it; a held claim made by frame, a channel without one,
and a class 0 channel whose surge is announced: the RELEASE names the channel. -/
theorem witness_AnInrushWindowEndsInOnOrStall :
    let s (v : Nat) := ((surgingOn 3 0 up).updCh 3 fun x => { x with lastSample := some v }).setClaim (some (claimOn .held))
    (ran (.inrushWindowEnd 3) (s 150)).link.slots.releaseOrdinary = some (.release .ordinary 3) ∧
    (ran (.inrushWindowEnd 3) (surgingOn 3 0 up)).link = up.link ∧
    (ran (.inrushWindowEnd 0) ((surgingOn 0 0 up).setAnnounce 200 1)).link.slots.releaseAnnounce = some (.release .announce 0) ∧
    (s 150).isLoaded = true ∧ ((s 150).ch 3).state = .inrush ∧ ((s 150).ch 3).inrushRemaining = 0 ∧
    ((s 150).cfg 3).steadyLimit = 150 ∧ ((s 150).cfg 3).cls ≠ 0 ∧ ((ran (.inrushWindowEnd 3) (s 150)).ch 3).state = .on ∧
    ((ran (.inrushWindowEnd 3) (s 151)).ch 3).state = .tripped ∧ (ran (.inrushWindowEnd 3) (s 150)).sched.ordinary = none ∧
    ((surgingOn 0 0 up).cfg 0).cls = 0 ∧ ((surgingOn 0 0 up).ch 0).state = .inrush := by decide +kernel

theorem witness_ARetryRejoinsLikeANewTurnOn :
    let s (c : Chan) :=
      up.updCh c fun x => { x with state := .tripped, demandLevel := 128, demandDuty := 255, retryTimer := some 0 }
    (s 3).isLoaded = true ∧ ((s 3).ch 3).retryTimer = some 0 ∧ ((s 3).ch 3).state = .tripped ∧
    demandOn ((s 3).cfg 3).mode ((s 3).ch 3).demandLevel = true ∧ ((s 3).cfg 3).cls ≠ 0 ∧ ((s 0).cfg 0).cls = 0 ∧
    demandOn ((s 0).cfg 0).mode ((s 0).ch 0).demandLevel = true ∧
    (s 0).sched.announceAmount < (ran (.retryDue 0) (s 0)).sched.announceAmount := by decide +kernel

/-- The amount that stands already: the RESERVE is handed over where the hold rises, and nothing is where it does not. -/
theorem witness_ARetryRejoinsLikeANewTurnOn_hold :
    let s (hold : Nat) :=
      (up.updCh 0 fun x => { x with state := .tripped, demandLevel := 255, demandDuty := 255, retryTimer := some 0 }).setAnnounce
        200 hold
    (ran (.retryDue 0) (s 2)).link.slots.reserveAnnounce = some (.reserve .announce 0 0 200 3) ∧
    (ran (.retryDue 0) (s 3)).link = (s 3).link := by decide +kernel

theorem witness_StationWaitsRunOut :
    let s := ((switchedOn 3 255 up).updCh 3 fun x => { x with onEpochs := 50 }).setLink { up.link with silence := 10 }
    let t := s.setSignal { s.signal with pubCount := 8 }
    t.isLoaded = true ∧ (t.ch 3).onEpochs = 50 ∧ t.link.silence = 10 ∧ t.link.isolated = false ∧ t.signal.pubCount = 8 ∧
    t.params.dinPublish = true ∧ t.loader.runMode = .running := by decide +kernel

/-- A sample at the limit, the first one above it, and one in a state with no limit. -/
theorem witness_ACurrentSampleIsTaken :
    let s := switchedOn 9 1 up
    s.isLoaded = true ∧ s.modulator.running = true ∧ 1 ≤ (s.ch 9).activeDuty ∧ (s.ch 9).pendingTerm = none ∧
    (s.cfg 9).steadyLimit = 150 ∧ (s.ch 9).overCount = 0 ∧ ((ran (.currentSample 9 150) s).ch 9).overCount = 0 ∧
    ((ran (.currentSample 9 151) s).ch 9).overCount = 1 ∧
    ((ran (.currentSample 9 700) (s.updCh 9 fun x => { x with state := .shed })).ch 9).pendingTerm =
      some { sample := 511, duty := 1 } := by decide +kernel

theorem witness_TheSecondHighSampleTrips :
    let s := (switchedOn 9 1 up).updCh 9 fun x => { x with overCount := 1 }
    s.isLoaded = true ∧ s.modulator.running = true ∧ 1 ≤ (s.ch 9).activeDuty ∧ (s.ch 9).pendingTerm = none ∧
    (s.ch 9).state = .on ∧ (s.cfg 9).steadyLimit < 151 ∧ (s.ch 9).overCount ≠ 0 := by decide +kernel

/-- Channel 9 of station 4 is on at steps 142 to 151 at duty 10, in ON and after a shed order, and off at 152. -/
theorem witness_TheSwitchItselfTurnsAnOutputOff :
    let s := switchedOn 9 10 up
    let shedOne := s.updCh 9 fun x => { x with state := .shed }
    s.isLoaded = true ∧ s.onAt 9 142 = true ∧ s.onAt 9 151 = true ∧ s.onAt 9 152 = false ∧ (s.ch 9).state = .on ∧
    shedOne.onAt 9 142 = true ∧ (shedOne.ch 9).state = .shed ∧ (switchedOn 9 255 up).onAt 9 254 = true := by decide +kernel

/-- Samples at V_CUT and one below it, after no low sample and after one, and in CUT. -/
theorem witness_ASupplySampleIsTaken :
    let s (n : Nat) := up.setSense { up.sense with lowSamples := n }
    (s 0).isLoaded = true ∧ (s 0).modulator.running = true ∧ (s 0).sense.pendingSupply = none ∧ (s 0).params.vCut = 160 ∧
    (s 0).sense.supply ≠ .cut ∧ (ran (.supplySample 160) (s 1)).sense.lowSamples = 0 ∧
    (ran (.supplySample 159) (s 0)).sense.lowSamples = 1 ∧ (ran (.supplySample 159) (s 1)).sense.supply = .cut ∧
    (s 1).AdmissionRuled ∧ (s 1).cuts = { isolate := false, supply := false } ∧
    (ran (.isolateChange true) (s 1)).cuts ≠ { isolate := false, supply := false } ∧
    (ran (.isolateChange true) (s 1)).AdmissionRuled := by decide +kernel

/-- A first cut cause, and one that joins SUPPLY. -/
theorem witness_IsolateCutsEveryChannel :
    let s := waitingFor 9 up
    let c := ran (.supplySample 159) (s.setSense { s.sense with lowSamples := 1 })
    s.isLoaded = true ∧ s.pins.isolate = false ∧ s.AdmissionRuled ∧ s.cuts = { isolate := false, supply := false } ∧
    c.isLoaded = true ∧ c.pins.isolate = false ∧ c.AdmissionRuled ∧ c.cuts ≠ { isolate := false, supply := false } := by
  decide +kernel

/-- The claim in each phase, its RESERVE in the slot and on the line, and an announced surge, at the beginning of a cut. -/
theorem witness_CutLeaves_frames :
    let r (p : ClaimPhase) := (waitingFor 3 (threeSlots.setAnnounce 0 0)).setClaim (some (claimOn p))
    let h := (surgingOn 3 1 up).setClaim (some (claimOn .held))
    let a := (surgingOn 0 1 up).setAnnounce 200 2
    let cut (s : State) := (ran (.isolateChange true) s).link
    (∀ s ∈ [r .pendingTx, r .settling, h, a], s.AdmissionRuled) ∧
    (cut (r .pendingTx)).slots.reserveOrdinary = none ∧ (cut (ran .lineIdle (r .pendingTx))).lineWithdrawn = true ∧
    (cut h).slots.releaseOrdinary = some (.release .ordinary 3) ∧
    (cut a).slots.releaseAnnounce = some (.release .announce 0) := by decide +kernel

/-- ISOLATE as the last cut cause, and with SUPPLY left; a lamp of class 0 with its demand held announces its surge again. -/
theorem witness_TheEndOfTheCutTakesDemandAgain :
    let s := ran (.isolateChange true) (waitingFor 9 up)
    let a := ran (.isolateChange true) ((surgingOn 0 1 up).setAnnounce 200 2)
    a.sched.announceAmount = 0 ∧ (ran (.isolateChange false) a).sched.announceAmount = 200 ∧
    (ran (.isolateChange false) { a with link := up.link }).link.slots.reserveAnnounce = some (.reserve .announce 0 0 200 3) ∧
    let b := s.setCauses { isolate := true, supply := true }
    s.isLoaded = true ∧ s.pins.isolate = true ∧ s.cuts = { isolate := true, supply := false } ∧
    (∀ c, (s.ch c).state = .cut) ∧ s.sched.queue = [] ∧ b.cuts.supply = true ∧ (∀ c, (b.ch c).state = .cut) := by
  decide +kernel

/-- What the bits of an idle or of a start obey, a finite question. -/
theorem idleRead_of {n : Nat} {bits : List (Bool × Bool)}
    (h : n ≤ bits.length ∧ (∀ j < bits.length, bits.length ≤ j + n → bitSamples bits j = (true, true)) ∧
      ∀ i < bits.length, ¬StartAt bits i) : IdleRead n bits :=
  ⟨h.1, h.2.1, fun i hi => h.2.2 i hi.2.1 hi⟩

/-- Eleven recessive bits alone and after an early dominant level; ten alone, and eleven after a start, are no idle. -/
theorem witness_IdleRead :
    IdleRead 11 (recessive 11) ∧ IdleRead 11 (recessive 9 ++ (false, true) :: recessive 11) ∧ IdleRead 10 (recessive 10) ∧
    ¬IdleRead 11 (recessive 10) ∧ ¬IdleRead 11 (recessive 10 ++ (false, false) :: recessive 11) :=
  ⟨idleRead_of (by decide), idleRead_of (by decide), idleRead_of (by decide), fun h => absurd h.1 (by decide),
    fun h => h.2.2 10 (by decide)⟩

theorem witness_AnIdleOffersTheFirstSlot :
    threeSlots.isLoaded = true ∧ threeSlots.link.onLine = none ∧ threeSlots.link.muted = false ∧
    (mutedAt 0).link.onLine = none ∧ (mutedAt 0).link.muted = true := by decide +kernel

/-- RESERVE from station 4 is 001 0100: frame bit 4 is sent recessive. A MARK is 000 0100: frame bit 6 is, and 8 is not. -/
theorem witness_LostContentionKeepsTheFrame :
    let s := ran .lineIdle threeSlots
    s.isLoaded = true ∧ s.link.onLine = some (.reserve .ordinary) ∧
    s.link.slots.get (.reserve .ordinary) = some (.reserve .ordinary 1 3 300 3) ∧
    ((Frame.reserve .ordinary 1 3 300 3).kind.val * 16 + s.own.val) / 2 ^ (8 - 4) % 2 = 1 ∧
    ((Frame.mark 58).kind.val * 16 + s.own.val) / 2 ^ (8 - 6) % 2 = 1 ∧
    ((Frame.mark 58).kind.val * 16 + (5 : Stn).val) / 2 ^ (8 - 8) % 2 = 1 := by decide +kernel

/-- A count of 119 stays below 128 after the abort, and 120 reaches it; bits 1, 9 and the last of a frame of three bytes. -/
theorem witness_AnAbortCountsAndMutes :
    let s (n : Nat) := ran .lineIdle (threeSlots.setLink { threeSlots.link with txErr := n })
    (s 119).isLoaded = true ∧ (s 119).link.onLine = some (.reserve .ordinary) ∧
    (s 119).link.slots.get (.reserve .ordinary) = some (.reserve .ordinary 1 3 300 3) ∧ (s 119).link.txErr + 8 < 128 ∧
    128 ≤ (s 120).link.txErr + 8 ∧ 59 ≤ 35 + 8 * (Frame.reserve .ordinary 1 3 300 3).payload.length ∧
    (ran (.abort 1) (s 120)).link.muted = true ∧ (ran (.abort 59) (s 119)).link.muted = false ∧
    (ran (.abort 9) (s 119)).link.txErr = 127 := by decide +kernel

/-- A waiting RESERVE and a waiting RELEASE off the line, either on the line, and a link that is MUTED. -/
theorem witness_ReserveAndReleaseArePaired :
    let l := threeSlots.link
    let r := l.setSlot (.release .ordinary) (some (.release .ordinary 3))
    l.muted = false ∧ l.slots.get (.reserve .ordinary) ≠ none ∧ l.onLine ≠ some (.reserve .ordinary) ∧
    l.onLine ≠ some (.release .ordinary) ∧ l.slots.get (.release .ordinary) = none ∧
    r.slots.get (.release .ordinary) ≠ none ∧ (ran .lineIdle threeSlots).link.onLine = some (.reserve .ordinary) ∧
    ({ r with onLine := some (.release .ordinary) } : LinkController).muted = false ∧ (mutedAt 0).link.muted = true ∧
    l.slots.get (.release .announce) = none ∧
    (({ r with onLine := some (.release .ordinary), heldAside := some (.release .ordinary 5) } : LinkController).handOver
      (.reserve .ordinary 1 2 40 3)).heldAside = none ∧
    (({ l with onLine := some .signal } : LinkController).handOver (.signal lowInputs)).heldAside = some (.signal lowInputs) := by
  decide +kernel

/-- A frame of each kind on the line: its slot obeys the rules. -/
theorem witness_ACompletionIsReportedByKind :
    let on (f : Frame) := up.setLink { up.link with slots := up.link.slots.set f.slot (some f), onLine := some f.slot }
    ∀ f ∈ [Frame.mark 58, .signal lowInputs, .status up.statusContent, .report 0 0 [], .release .ordinary 3,
        .reserve .ordinary 1 3 300 3, .reserve .announce 0 0 200 3],
      (on f).isLoaded = true ∧ (∀ x ∈ serviceOrder, ∀ g, (on f).link.slots.get x = some g → g.slot = x) ∧
      (on f).link.heldAside = none ∧ (on f).link.onLine = some f.slot ∧ (on f).link.slots.get f.slot = some f := by
  decide +kernel

/-- MARK under RESERVE, and station 3 under station 5. -/
theorem witness_TheLowerArbitrationFieldWins :
    let f (kind : Fin 8) (station : Stn) : RawFrame := { kind := kind, station := station, payload := [] }
    (f 0 15).kind < (f 1 0).kind ∧ (f 0 15).arbitration < (f 1 0).arbitration ∧ (f 0 3).station < (f 0 5).station ∧
    (f 0 3).arbitration < (f 0 5).arbitration := by decide

/-- The least and the greatest value of every field. -/
theorem witness_PayloadsReadAsTheyWereComposed :
    (reserveOf 3 (Frame.reserve .announce 3 15 4095 16).payload).amount = 4095 ∧
    (reserveOf 3 (Frame.reserve .announce 3 15 4095 16).payload).hold = 16 ∧
    (reserveOf 3 (Frame.reserve .ordinary 0 0 0 1).payload).hold = 1 ∧
    (Frame.release .ordinary 15).payload = [0x0F] ∧
    (Frame.status { up.statusContent with overload := true, lowSupply := true, lowestNew := some 15 }).payload.drop 6 = [0x88, 15] ∧
    (Frame.status { up.statusContent with limp := true, isolated := true, settling := true }).payload.drop 6 = [0x70, 255] ∧
    (Frame.report 6 2 [0x52]).payload = [6, 2, 0x52] := by decide +kernel

theorem witness_ADiscardedReceptionIsCounted :
    let sent := samplesOf { kind := 0, station := 3, payload := [58] }
    up.isLoaded = true ∧ IdleRead 10 (recessive 10) ∧ ¬IdleRead 10 (recessive 9) ∧ bitSamples [(false, true)] 0 ≠ (true, true) ∧
    verdict [(false, true)] = .falseStart ∧ verdict sent = .valid { kind := 0, station := 3, payload := [58] } ∧
    lineCommand 4 (recessive 10) sent charging anyOrder = some (.markReceived 3 [58] charging anyOrder) ∧
    lineCommand 4 (recessive 10) [(false, true)] charging anyOrder =
      some (.discardedReception [(false, true)] (recessive 10)) ∧
    lineCommand 4 (recessive 9) sent charging anyOrder = none :=
  ⟨by decide +kernel, idleRead_of (by decide), fun h => absurd h.1 (by decide), by decide, by decide +kernel,
    by decide +kernel, by decide +kernel, by decide +kernel, by decide +kernel⟩

/-- A link that is ONLINE, and one MUTED with 98 and with 99 good frames and a class 0 surge to announce. -/
theorem witness_AValidFrameIsCounted :
    let m (n : Nat) := (surgingOn 0 2 (mutedAt n)).setAnnounce 200 3
    up.isLoaded = true ∧ up.MutedRuled ∧ (m 98).MutedRuled ∧ (m 99).MutedRuled ∧ (m 99).link.muted = true ∧
    (m 98).link.good < 99 ∧ 99 ≤ (m 99).link.good ∧ 0 < (m 99).sched.announceAmount ∧
    (ran (.kind7FrameReceived 3 []) (m 99)).link.slots.reserveAnnounce = some (.reserve .announce 0 0 200 3) := by
  decide +kernel

/-- Both types, at the least and the greatest value of every field of R171. -/
theorem witness_PeerFramesAreTaken :
    up.isLoaded = true ∧ (12 : Stn) ≠ up.own ∧
    (ran (.reserveReceived 12 [0xEF, 0xFF, 0xFF]) up).reservations =
      [{ station := 12, ty := .announce, cls := 3, chan := 15, amount := 4095, hold := 16 }] ∧
    (ran (.reserveReceived 12 [0x00, 0x00, 0x00]) up).reservations =
      [{ station := 12, ty := .ordinary, cls := 0, chan := 0, amount := 0, hold := 1 }] := by decide +kernel

/-- One pair, four pairs, none and five bytes. -/
theorem witness_ASignalFrameIsTaken :
    up.isLoaded = true ∧ ((ran (.signalReceived 12 [5, 1, 5, 2, 6, 3, 5, 4]) up).signal.store.map (·.value)) = [4] ∧
    ((ran (.signalReceived 12 [5, 255]) up).signal.store.map (·.age)) = [0] ∧
    (ran (.signalReceived 12 []) up).signal.store = up.signal.store ∧
    (ran (.signalReceived 12 [5, 1, 5, 2, 5]) up).signal.store = up.signal.store := by decide +kernel

/-- The own number, and a MARK of no byte. -/
theorem witness_FramesTurnedAwayAreCounted :
    up.isLoaded = true ∧ (4 : Stn) = up.own ∧ (ran (.markReceived 4 [58] charging anyOrder) up).link.clash = 1 ∧
    (ran (.markReceived 4 [58] charging anyOrder) up).diag.faultAsserted = true ∧
    (ran (.payloadLengthDiscard .mark 4 []) up).link.rxErr = 1 := by decide +kernel

/-- A station whose slots, report and MUTED obey the rules, ONLINE and MUTED; arguments 0 and 15. -/
theorem witness_QueriesAreAnswered :
    up.isLoaded = true ∧ up.ReportRuled ∧ up.diag.reportPending = false ∧ (mutedAt 0).ReportRuled ∧
    (∀ x ∈ serviceOrder, up.link.slots.get x = none) ∧ (15 : Fin 16).val = (15 : Byte).toNat % 16 ∧
    (mutedAt 0).link.muted = true ∧ (mutedAt 0).diag.reportPending = false := by decide +kernel

/-- Another target, items 6 and 7, arguments 15 and 16, and a report that is pending. -/
theorem witness_QueriesAreIgnoredOrDropped :
    up.isLoaded = true ∧ (9 : Stn) ≠ up.own ∧ (0x90 : Byte).toNat / 16 ≠ up.own.val ∧
    (ran (.queryIgnored 14 0x47 0) up).diag = up.diag ∧ (ran (.queryIgnored 14 0x41 16) up).diag = up.diag ∧
    (ran (.kind7FrameReceived 14 []) (ran (.channel 14 4 15) up)).diag.reportPending = true := by decide +kernel

theorem witness_AClearFreesALatchedChannel :
    latchedLamp.isLoaded = true ∧ latchedLamp.ReportRuled ∧ latchedLamp.diag.reportPending = false ∧
    (2 : Byte).toNat = (2 : Chan).val ∧ (latchedLamp.ch 2).state = .latched ∧ (latchedLamp.ch 3).state ≠ .latched := by
  decide +kernel

/-- The slots of a station that sends nothing obey the rules. -/
theorem witness_slots_ruled :
    up.SlotsRuled ∧ latchedLamp.SlotsRuled ∧ (mutedAt 0).SlotsRuled := by
  refine ⟨⟨fun x f h => ?_, fun f h => ?_, fun x h => ?_, fun _ => ?_, fun ty h => ?_⟩,
    ⟨fun x f h => ?_, fun f h => ?_, fun x h => ?_, fun _ => ?_, fun ty h => ?_⟩,
    ⟨fun x f h => ?_, fun f h => ?_, fun x h => ?_, fun _ => ?_, fun ty h => ?_⟩⟩ <;>
  first
  | rfl
  | cases h
  | (exfalso; revert h; rcases x with _ | ⟨_ | _⟩ | ⟨_ | _⟩ | _ | _ | _ <;> intro h <;> cases h)

/-- A station that runs obeys every rule that the step keeps. -/
theorem witness_steps_keep :
    (up.isLoaded = true ∧ up.HeldAtReset ∧ up.ChannelsRuled ∧ up.FaultPinTrue) ∧ up.CutRuled ∧ up.AdmissionRuled ∧
    up.ReportRuled ∧ up.MutedRuled :=
  ⟨by decide +kernel, by decide +kernel, by decide +kernel, by decide +kernel, by decide +kernel⟩

theorem witness_steps_keep_more :
    up.PeersRuled ∧ up.RetriesRuled ∧ up.DisabledIdle ∧ up.DemandRuled := by decide +kernel

theorem witness_counts_in_range (c : Chan) :
    (up.cfg c).window ≤ 15 ∧ (up.cfg c).retryLimit ≤ 7 ∧ (up.ch c).CountsInRange := by revert c; decide +kernel

theorem witness_counters_in_range : up.CountersInRange := ⟨witness_counts_in_range, by decide +kernel⟩

theorem witness_one_per_claimant : up.OnePerClaimant := by
  intro p ty; exact Nat.zero_le 1

/-- A step with a command in front, and one with none. -/
theorem witness_step_answers :
    step up = .next (tick up) ∧ step { up with pending := [.lineIdle] } = .next (ran .lineIdle up) := ⟨rfl, rfl⟩

theorem witness_TheConfigurationStandsUntilReset :
    up.isLoaded = true ∧ Instr.lineIdle ≠ .reset ∧ exec .lineIdle up = .next (ran .lineIdle up) :=
  ⟨by decide +kernel, by decide, rfl⟩

theorem witness_AClearAllClearsEveryRecord :
    latchedLamp.isLoaded = true ∧ latchedLamp.ReportRuled ∧ latchedLamp.diag.reportPending = false ∧
    (clash latchedLamp).ReportRuled ∧ (clash latchedLamp).diag.faultAsserted = true := by decide +kernel

/-- A lamp whose claim was taken alone: the fourth completion admits it. -/
theorem witness_OnlyAnAdmittedClaimSwitchesOn :
    let m := lampDue (some { claimOn .settling with byFrame := false })
    let t := ran (.ownExpiry charging anyOrder) m
    m.HeldAtReset ∧ m.AdmissionRuled ∧ (t.cfg 3).cls ≠ 0 ∧ (t.ch 3).state = .inrush ∧ (m.ch 3).state ≠ .inrush := by
  decide +kernel

end Sys2Proof.Tests
end

