-- ==== Sys2Proof/Proofs/Orders.lean ====
section
/-! The orders of the Budget Unit at one channel (R16–R18): what each makes of the channel, and that nothing beyond the channel
takes notice of it but the queue, which a restored channel joins. -/

namespace Sys2Proof.Machine

section
variable {x : Channel}

/-- A new cap hands over the lesser of demand duty and cap while the channel is ON (R4). -/
theorem recompute_cap_of_on (h : x.state = .on) (cap : Nat) : Channel.recompute { x with cap := cap } = x.CappedAt cap := by
  simp [Channel.recompute, Channel.CappedAt, effectiveDutyOf, h]

/-- From ON to SHED no immediate off is handed over (R4), and the counts of the Sense Unit begin afresh (R47, R56, R57). -/
theorem enter_shed_of_on (h : x.state = .on) (r : ShedReason) (window : Nat) : x.enter .shed r window = x.ShedFor r := by
  simp [Channel.enter, Channel.recompute, effectiveDutyOf, ChState.immediateOff, ChState.live, h]

/-- From SHED to REQUESTED the Sense Unit's counts stand: the channel leaves neither ON nor INRUSH. -/
theorem enter_requested_of_shed (h : x.state = .shed) (window : Nat) :
    x.enter .requested .none window =
      { x with state := .requested, shedReason := .none, cap := 255, effectiveDuty := 0, shadowDuty := 0
               inrushRemaining := 0 } := by
  simp [Channel.enter, Channel.recompute, effectiveDutyOf, ChState.immediateOff, ChState.live, h]

end

section
variable {c : Chan} {s : State}

/-- No other block takes notice of a shed channel: it left neither REQUESTED nor INRUSH (R8). -/
theorem notices_on_shed (c : Chan) (s : State) : notices c .on .shed s = s := by
  simp [notices]

/-- The notice of a restored channel is JOINED QUEUE (R8, R139). -/
theorem notices_shed_requested (c : Chan) (s : State) : notices c .shed .requested s = joined c s := by
  simp [notices]

theorem setCap_of_on (h : (s.ch c).state = .on) (cap : Nat) : setCap c cap s = s.setCh c ((s.ch c).CappedAt cap) := by
  rw [setCap, State.updCh, recompute_cap_of_on h]

theorem enter_shed_eq (h : (s.ch c).state = .on) (r : ShedReason) :
    enter c .shed r s = s.setCh c ((s.ch c).ShedFor r) := by
  rw [enter, h, notices_on_shed, enter_shed_of_on h]

theorem enter_requested_eq (h : (s.ch c).state = .shed) : enter c .requested .none s = s.Restored c := by
  rw [enter, h, notices_shed_requested, enter_requested_of_shed h]
  rfl

end

section
variable (c : Chan) (s : State)

/-- A cap raise order (R17). -/
theorem capRaise_eq (step : Nat) :
    capRaise c step s =
      if (s.ch c).state = .on ∧ (s.cfg c).cls ≠ 0 then s.setCh c ((s.ch c).CappedAt (min 255 ((s.ch c).cap + step)))
      else s := by
  simp only [capRaise, orderable_iff]
  exact ite_congr rfl (fun ⟨hOn, _⟩ => setCap_of_on hOn _) fun _ => rfl

/-- A throttle order (R16). -/
theorem throttle_eq (cap : Nat) :
    throttle c cap s =
      if ((s.ch c).state = .on ∧ (s.cfg c).cls ≠ 0) ∧ (s.cfg c).mode = .pwm then
        s.setCh c (if (s.cfg c).minDuty ≤ cap then (s.ch c).CappedAt cap else (s.ch c).ShedFor .budget)
      else s := by
  simp only [throttle, Bool.and_eq_true, orderable_iff, decide_eq_true_eq]
  refine ite_congr rfl (fun ⟨⟨hOn, _⟩, _⟩ => ?_) fun _ => rfl
  rw [setCap_of_on hOn, enter_shed_eq hOn, apply_ite (s.setCh c)]

/-- A shed order (R18). -/
theorem shed_eq (reason : ShedReason) :
    shed c reason s =
      if (s.ch c).state = .on ∧ (s.cfg c).cls ≠ 0 then s.setCh c ((s.ch c).ShedFor reason) else s := by
  simp only [shed, orderable_iff]
  exact ite_congr rfl (fun ⟨hOn, _⟩ => enter_shed_eq hOn reason) fun _ => rfl

/-- A restore order to a channel of class 1–3, which waits for a grant (R10, R18). -/
theorem restore_eq (hk : (s.cfg c).cls ≠ 0) :
    restore c s = if (s.ch c).state = .shed then s.Restored c else s := by
  unfold restore
  refine ite_congr rfl (fun hShed => ?_) fun _ => rfl
  rw [switchOn, if_neg hk, enter_requested_eq hShed]

end

end Sys2Proof.Machine

namespace Sys2Proof
open Machine

/-- Settles O19: each order by its own equation; the cap raise order writes its bound of 255 as a lesser. -/
theorem aCapRaiseActsInOnAlone : Obligations.ACapRaiseActsInOnAlone := by
  intro s c step cap reason
  have raised : (if (s.ch c).cap + step < 255 then (s.ch c).cap + step else 255) = min 255 ((s.ch c).cap + step) := by
    split <;> omega
  refine ⟨?_, throttle_eq c s cap, shed_eq c s reason, restore_eq c s⟩
  rw [raised]
  exact capRaise_eq c s step

end Sys2Proof
end

/-! The on-window of an output within a period (R24, R25): which steps it holds, how many, and that the sample step is one of them
(R42). -/

namespace Sys2Proof.Machine

/-- The edge offset lies inside the period, so the window begins in it (R24). -/
theorem edgeOffset_lt (own : Stn) (c : Chan) : edgeOffset own c < 255 := by
  unfold edgeOffset
  omega

/-- The steps of one period in the window: those from the offset on, and those that wrap past the end of the period (R25). -/
theorem inWindow_iff {o d t : Nat} (ho : o < 255) (hd : d ≤ 255) (ht : t < 255) :
    inWindow o d t = true ↔ (o ≤ t ∧ t < o + d) ∨ t + 255 < o + d := by
  simp only [inWindow, decide_eq_true_eq]
  omega

/-- The window's steps among the first `n` of a period: those of its run from the offset, and those of the run that wraps. -/
theorem length_filter_inWindow {o d : Nat} (ho : o < 255) (hd : d ≤ 255) {n : Nat} (hn : n ≤ 255) :
    ((List.range n).filter (inWindow o d)).length = (min n (o + d) - o) + (min n (o + d - 255)) := by
  induction n with
  | zero => simp
  | succ n ih =>
    have now := inWindow_iff ho hd (t := n) hn
    rw [List.range_succ, List.filter_append, List.length_append, ih (by omega)]
    by_cases h : inWindow o d n = true
    · have within := now.mp h
      simp only [List.filter_cons_of_pos h, List.filter_nil, List.length_singleton]
      omega
    · have without := mt now.mpr h
      simp only [List.filter_cons_of_neg h, List.filter_nil, List.length_nil]
      omega

/-- The sample step stands half a duty into the window (R42). -/
theorem inWindow_sampleStep (own : Stn) (c : Chan) {d : Nat} (h1 : 1 ≤ d) (hd : d ≤ 255) :
    inWindow (edgeOffset own c) d (sampleStep own c d) = true := by
  have ho := edgeOffset_lt own c
  rw [inWindow, decide_eq_true_eq, sampleStep]
  omega

/-- While the Modulator runs, an output follows its window (R25). -/
theorem State.onAt_running {s : State} (h : s.modulator.running = true) (c : Chan) :
    s.onAt c = inWindow (edgeOffset s.own c) (s.ch c).activeDuty := by
  funext t
  simp [State.onAt, h]

end Sys2Proof.Machine

namespace Sys2Proof
open Machine

/-- Settles O10: the output is its on-window, whose steps are counted by the two runs it falls into. -/
theorem outputsAreOnForTheirDuty : Obligations.OutputsAreOnForTheirDuty := by
  rintro s c o d ho rfl hd
  obtain rfl : o = edgeOffset s.own c := ho
  have inside := edgeOffset_lt s.own c
  refine ⟨fun stopped t => by simp [State.onAt, stopped], fun running => ?_⟩
  simp only [State.onAt_running running]
  refine ⟨fun t ht => inWindow_iff inside hd ht, ?_, fun h1 => ⟨rfl, inWindow_sampleStep s.own c h1 hd⟩⟩
  rw [length_filter_inWindow inside hd le_rfl]
  omega

end Sys2Proof

/-! What the parts of a realignment (R35) leave alone: all but the channels, the Scheduler's queue and records, the frames other than
the MARK, the levels held of the direct inputs and the publication count. -/

namespace Sys2Proof.Machine

/-! ### The own MARK in the transmit slots -/

/-- The slot of the MARK, and what stands behind it while it is on the line, are as they were; of the rest of the Link Controller
only slots and notes have moved. -/
structure LinkController.MarkStands (l m : LinkController) : Prop where
  blank : m.blank = l.blank
  slot : m.slots.mark = l.slots.mark
  behind : l.onLine = some .mark → m.heldAside = l.heldAside ∧ m.lineWithdrawn = l.lineWithdrawn

section
variable {l m n : LinkController}

theorem LinkController.onLine_of_blank (h : m.blank = l.blank) : m.onLine = l.onLine := by
  have e := congrArg LinkController.onLine h
  exact e

theorem LinkController.silence_of_blank (h : m.blank = l.blank) : m.silence = l.silence := by
  have e := congrArg LinkController.silence h
  exact e

theorem LinkController.MarkStands.refl (l : LinkController) : l.MarkStands l := ⟨rfl, rfl, fun _ => ⟨rfl, rfl⟩⟩

theorem LinkController.MarkStands.trans (h : l.MarkStands m) (g : m.MarkStands n) : l.MarkStands n where
  blank := g.blank.trans h.blank
  slot := g.slot.trans h.slot
  behind e :=
    have ⟨heldG, notedG⟩ := g.behind ((onLine_of_blank h.blank).trans e)
    have ⟨heldH, notedH⟩ := h.behind e
    ⟨heldG.trans heldH, notedG.trans notedH⟩

theorem LinkController.setSlot_markStands (l : LinkController) {x : Slot} (hx : x ≠ .mark) (f : Option Frame) :
    l.MarkStands (l.setSlot x f) := by
  refine ⟨l.setSlot_blank x f, ?_, fun _ => ⟨rfl, rfl⟩⟩
  cases x with
  | mark => exact absurd rfl hx
  | reserve ty => cases ty <;> rfl
  | release ty => cases ty <;> rfl
  | signal => rfl
  | status => rfl
  | report => rfl

/-- Behind another slot on the line, what is held aside and the note of a withdrawal are not the MARK's. -/
theorem LinkController.behind_markStands {x : Slot} (hx : x ≠ .mark) (h : l.onLine = some x) (held : Option Frame)
    (noted : Bool) : l.MarkStands { l with heldAside := held, lineWithdrawn := noted } :=
  ⟨rfl, rfl, fun e => absurd (Option.some.inj (h.symm.trans e)) hx⟩

theorem LinkController.place_markStands (l : LinkController) {f : Frame} (hf : f.slot ≠ .mark) : l.MarkStands (l.place f) := by
  unfold LinkController.place
  split
  next h => exact behind_markStands hf h _ _
  next => exact l.setSlot_markStands hf _

theorem LinkController.dropRelease_markStands (l : LinkController) (ty : ResType) : l.MarkStands (l.dropRelease ty) := by
  unfold LinkController.dropRelease
  split
  next h => exact behind_markStands (by simp) h _ _
  next => exact l.setSlot_markStands (by simp) _

theorem LinkController.placeRelease_markStands (l : LinkController) (ty : ResType) {f : Frame} (hf : f.slot ≠ .mark) :
    l.MarkStands (l.placeRelease ty f) := by
  have cleared := l.setSlot_markStands (x := .reserve ty) (by simp) none
  simp only [LinkController.placeRelease]
  split_ifs
  · exact cleared.trans (place_markStands _ hf)
  · exact cleared
  · exact l.place_markStands hf

/-- A hand-over of another frame leaves the MARK's slot alone (R88, R90). -/
theorem LinkController.handOver_markStands (l : LinkController) {f : Frame} (hf : f.slot ≠ .mark) :
    l.MarkStands (l.handOver f) := by
  unfold LinkController.handOver
  split
  · exact .refl l
  · split
    · exact (l.dropRelease_markStands _).trans (place_markStands _ hf)
    · exact l.placeRelease_markStands _ hf
    · exact l.place_markStands hf

/-- A withdrawal from another slot leaves the MARK's slot alone (R89). -/
theorem LinkController.withdraw_markStands (l : LinkController) {x : Slot} (hx : x ≠ .mark) : l.MarkStands (l.withdraw x) := by
  unfold LinkController.withdraw
  split
  next h => exact behind_markStands hx h _ _
  next => exact l.setSlot_markStands hx _

end

/-! ### What the parts of a realignment leave alone -/

/-- Only the channels, the queue and records of the Scheduler, frames other than the MARK, the levels held of the direct inputs and
the publication count have moved. -/
structure State.KeptByParts (s t : State) : Prop where
  rest : t = { s with channels := t.channels, sched := t.sched, link := t.link, signal := t.signal }
  counts : s.sched.sameCounts t.sched
  mark : s.link.MarkStands t.link
  table : t.signal = { s.signal with inputs := t.signal.inputs, pubCount := t.signal.pubCount }

section
variable {s t u : State}

theorem State.KeptByParts.refl (s : State) : s.KeptByParts s := ⟨rfl, ⟨rfl, rfl, rfl⟩, .refl _, rfl⟩

theorem State.KeptByParts.trans (h : s.KeptByParts t) (g : t.KeptByParts u) : s.KeptByParts u where
  rest := by rw [g.rest, h.rest]
  counts :=
    have ⟨rotG, defG, lisG⟩ := g.counts
    have ⟨rotH, defH, lisH⟩ := h.counts
    ⟨rotG.trans rotH, defG.trans defH, lisG.trans lisH⟩
  mark := h.mark.trans g.mark
  table := by rw [g.table, h.table]

theorem State.KeptByParts.loader (h : s.KeptByParts t) : t.loader = s.loader := by rw [h.rest]

theorem State.KeptByParts.cuts (h : s.KeptByParts t) : t.cuts = s.cuts := by rw [h.rest]

theorem State.KeptByParts.modulator (h : s.KeptByParts t) : t.modulator = s.modulator := by rw [h.rest]

theorem State.KeptByParts.timer (h : s.KeptByParts t) : t.timer = s.timer := by rw [h.rest]

theorem State.KeptByParts.sense (h : s.KeptByParts t) : t.sense = s.sense := by rw [h.rest]

theorem State.KeptByParts.peers (h : s.KeptByParts t) : t.peers = s.peers := by rw [h.rest]

theorem State.KeptByParts.reservations (h : s.KeptByParts t) : t.reservations = s.reservations := by rw [h.rest]

theorem State.KeptByParts.budget (h : s.KeptByParts t) : t.budget = s.budget := by rw [h.rest]

theorem State.KeptByParts.diag (h : s.KeptByParts t) : t.diag = s.diag := by rw [h.rest]

theorem State.KeptByParts.pins (h : s.KeptByParts t) : t.pins = s.pins := by rw [h.rest]

theorem State.KeptByParts.store (h : s.KeptByParts t) : t.signal.store = s.signal.store := by rw [h.table]

theorem State.KeptByParts.bindings (h : s.KeptByParts t) : t.signal.bindings = s.signal.bindings := by rw [h.table]

theorem State.KeptByParts.phaseOn (h : s.KeptByParts t) : t.signal.phaseOn = s.signal.phaseOn := by rw [h.table]

theorem setCh_kept (s : State) (c : Chan) (x : Channel) : s.KeptByParts (s.setCh c x) :=
  ⟨rfl, ⟨rfl, rfl, rfl⟩, .refl _, rfl⟩

theorem setQueue_kept (s : State) (q : List Chan) : s.KeptByParts (s.setQueue q) := ⟨rfl, ⟨rfl, rfl, rfl⟩, .refl _, rfl⟩

theorem setClaim_kept (s : State) (x : Option Claim) : s.KeptByParts (s.setClaim x) := ⟨rfl, ⟨rfl, rfl, rfl⟩, .refl _, rfl⟩

theorem setAnnounce_kept (s : State) (amount hold : Nat) : s.KeptByParts (s.setAnnounce amount hold) :=
  ⟨rfl, ⟨rfl, rfl, rfl⟩, .refl _, rfl⟩

theorem handOver_kept (s : State) {f : Frame} (hf : f.slot ≠ .mark) : s.KeptByParts (s.handOver f) :=
  ⟨rfl, ⟨rfl, rfl, rfl⟩, s.link.handOver_markStands hf, rfl⟩

theorem withdraw_kept (s : State) {x : Slot} (hx : x ≠ .mark) : s.KeptByParts (s.withdraw x) :=
  ⟨rfl, ⟨rfl, rfl, rfl⟩, s.link.withdraw_markStands hx, rfl⟩

theorem updCh_kept (s : State) (c : Chan) (f : Channel → Channel) : s.KeptByParts (s.updCh c f) := setCh_kept s c _

theorem ite_kept {p : Prop} [Decidable p] (h : s.KeptByParts t) : s.KeptByParts (if p then t else s) := by
  split
  · exact h
  · exact .refl s

theorem forChans_kept {f : Chan → State → State} (h : ∀ c (s : State), s.KeptByParts (f c s)) (s : State) :
    s.KeptByParts (forChans f s) := by
  unfold forChans
  refine List.foldlRecOn allChans (motive := fun t : State => s.KeptByParts t) _ (.refl s) ?_
  exact fun t ht c _ => ht.trans (h c t)

end

section
variable (c : Chan) (s : State)

theorem releaseClaim_kept (x : Claim) : s.KeptByParts (releaseClaim x s) := by
  unfold releaseClaim
  split
  · exact handOver_kept s (by simp [Frame.slot])
  · exact .refl s

/-- LEFT QUEUE (R139, R147). -/
theorem leftQueue_kept : s.KeptByParts (leftQueue c s) := by
  have left := setQueue_kept s (s.sched.queue.filter fun d => d ≠ c)
  simp only [leftQueue]
  split
  · exact left
  · split
    · split
      · exact (left.trans (withdraw_kept _ (by simp))).trans (setClaim_kept _ _)
      · exact (left.trans (releaseClaim_kept _ _)).trans (setClaim_kept _ _)
      · exact (left.trans (releaseClaim_kept _ _)).trans (setClaim_kept _ _)
    · exact left

/-- INRUSH ENDED (R147, R150). -/
theorem inrushEnded_kept : s.KeptByParts (inrushEnded c s) := by
  unfold inrushEnded
  split
  · simp only [announceLowered]
    split
    · exact (setAnnounce_kept s _ _).trans (handOver_kept _ (by simp [Frame.slot]))
    · exact setAnnounce_kept s _ _
  · unfold surgeOver
    split
    · exact .refl s
    · split
      · exact (releaseClaim_kept s _).trans (setClaim_kept _ _)
      · exact .refl s

/-- INRUSH BEGUN (R149). -/
theorem inrushBegun_kept : s.KeptByParts (inrushBegun c s) := by
  simp only [inrushBegun]
  split
  · exact (setAnnounce_kept s _ _).trans (handOver_kept _ (by simp [Frame.slot]))
  · exact setAnnounce_kept s _ _

theorem notices_kept (old st : ChState) : s.KeptByParts (notices c old st s) := by
  simp only [notices]
  exact (((ite_kept (leftQueue_kept c s)).trans (ite_kept (inrushEnded_kept c _))).trans
    (ite_kept (setQueue_kept _ _))).trans (ite_kept (inrushBegun_kept c _))

theorem enter_kept (st : ChState) (r : ShedReason) : s.KeptByParts (enter c st r s) :=
  (setCh_kept s c _).trans (notices_kept c _ _ _)

theorem switchOn_kept : s.KeptByParts (switchOn c s) := by
  unfold switchOn
  split <;> exact enter_kept c s _ _

/-- A demand level delivered (R7). -/
theorem deliver_kept (level : Nat) : s.KeptByParts (deliver c level s) := by
  unfold deliver
  extract_lets m was is s1 s2 kept
  have taken : s.KeptByParts s2 := (updCh_kept s c _).trans (ite_kept (updCh_kept s1 c _))
  have recomputed : s.KeptByParts kept := taken.trans (updCh_kept s2 c _)
  clear_value s2 kept
  split
  · split
    · exact taken.trans (switchOn_kept c s2)
    · exact recomputed
  · exact recomputed
  · split
    · exact taken.trans (enter_kept c s2 _ _)
    · exact recomputed

/-- Resolution (R73). -/
theorem resolve_kept (test : Chan → Bool) : s.KeptByParts (resolve test s) := by
  refine forChans_kept (fun c s => ite_kept ?_) s
  unfold resolveOne
  split
  · exact .refl s
  · exact deliver_kept c s _

theorem publish_kept : s.KeptByParts (publish s) := by
  unfold publish
  refine ite_kept ((handOver_kept s (f := .signal s.signal.inputs) (by simp [Frame.slot])).trans ?_)
  exact ⟨rfl, ⟨rfl, rfl, rfl⟩, .refl _, rfl⟩

theorem readInputs_kept (din : DinLevels) : s.KeptByParts (readInputs din s) := by
  have replaced : s.KeptByParts (s.setSignal { s.signal with inputs := din }) := ⟨rfl, ⟨rfl, rfl, rfl⟩, .refl _, rfl⟩
  simp only [readInputs]
  split
  · exact .refl s
  · exact (replaced.trans (resolve_kept _ _)).trans (publish_kept _)

/-- One part of a realignment (R35). -/
theorem realignTask_kept (moved : Bool) (din : DinLevels) (t : EpochTask) : s.KeptByParts (realignTask moved din t s) := by
  cases t with
  | loadDuties => exact ⟨rfl, ⟨rfl, rfl, rfl⟩, .refl _, rfl⟩
  | readInputs => exact readInputs_kept s din
  | signals => exact ite_kept (resolve_kept s _)
  | _ => exact .refl s

end

end Sys2Proof.Machine

/-! A resolution at one channel (R73): what the delivery makes of it, and that the level delivered is the one of R69–R72. -/

namespace Sys2Proof.Machine

/-! ### What a resolution makes of one channel -/

/-- What the Sense Unit holds of the channel for the epoch that runs and the one that closed (R41, R43–R45). -/
def Channel.measurement (x : Channel) : Nat × Option PendingTerm × Nat × Bool :=
  (x.drawAcc, x.pendingTerm, x.epochDraw, x.closedMarker)

/-- A level that differs from the one held is delivered (R73). -/
def Channel.resolvedTo (x : Channel) (k : ChannelConfig) (level : Nat) : Channel :=
  if level = x.demandLevel then x else x.delivered k level

section
variable (x : Channel) (k : ChannelConfig) (level : Nat)

theorem Channel.wanted_demandLevel : (x.wanted k).demandLevel = x.demandLevel := by
  unfold Channel.wanted
  split <;> rfl

theorem Channel.wanted_measurement : (x.wanted k).measurement = x.measurement := by
  unfold Channel.wanted
  split <;> rfl

/-- What a delivery comes to: with the level held, the channel wants power, has its duty computed again, or falls (R7). -/
theorem Channel.delivered_cases : ∃ y : Channel, y.demandLevel = level ∧ y.measurement = x.measurement ∧
    (x.delivered k level = y.wanted k ∨ x.delivered k level = y.recompute ∨
      x.delivered k level = y.enter .off .none k.window) := by
  unfold Channel.delivered
  extract_lets falls y z
  refine ⟨z, by unfold z; split <;> rfl, by unfold z; split <;> rfl, ?_⟩
  split
  · split
    · exact .inl rfl
    · exact .inr (.inl rfl)
  · exact .inr (.inl rfl)
  · split
    · exact .inr (.inr rfl)
    · exact .inr (.inl rfl)

theorem Channel.delivered_demandLevel : (x.delivered k level).demandLevel = level := by
  obtain ⟨y, held, -, h | h | h⟩ := x.delivered_cases k level <;> rw [h]
  · exact (y.wanted_demandLevel k).trans held
  · exact held
  · exact held

theorem Channel.delivered_measurement : (x.delivered k level).measurement = x.measurement := by
  obtain ⟨y, -, held, h | h | h⟩ := x.delivered_cases k level <;> rw [h]
  · exact (y.wanted_measurement k).trans held
  · exact held
  · exact held

theorem Channel.resolvedTo_demandLevel : (x.resolvedTo k level).demandLevel = level := by
  unfold Channel.resolvedTo
  split
  next same => exact same.symm
  next => exact x.delivered_demandLevel k level

theorem Channel.resolvedTo_measurement : (x.resolvedTo k level).measurement = x.measurement := by
  unfold Channel.resolvedTo
  split
  · rfl
  · exact x.delivered_measurement k level

theorem Channel.resolvedTo_self : x.resolvedTo k x.demandLevel = x := if_pos rfl

end

/-- An event at each channel in turn makes of a channel what its own event makes of it. -/
theorem forChans_ch {f : Chan → State → State} {g : Chan → Channel → Channel} {s : State}
    (hf : ∀ c (t : State), t.blank = s.blank →
      (f c t).blank = s.blank ∧ ∀ d, (f c t).ch d = if d = c then g c (t.ch c) else t.ch d) (c : Chan) :
    (forChans f s).ch c = g c (s.ch c) := by
  have run : ∀ (l : List Chan), l.Nodup → ∀ t : State, t.blank = s.blank →
      (l.foldl (fun s c => f c s) t).ch c = if c ∈ l then g c (t.ch c) else t.ch c := by
    intro l
    induction l with
    | nil => intro _ t _; rfl
    | cons d rest ih =>
      intro hn t ht
      obtain ⟨hd, hn⟩ := List.nodup_cons.mp hn
      obtain ⟨hb, hch⟩ := hf d t ht
      rw [List.foldl_cons, ih hn _ hb, hch]
      by_cases e : c = d
      · subst e
        simp [hd]
      · simp [e]
  rw [forChans, run allChans (List.nodup_finRange 16) s rfl, if_pos (show c ∈ allChans from List.mem_finRange c)]

section
variable {s t : State}

theorem level_of_blank (h : t.blank = s.blank) (c : Chan) : t.level c = s.level c := by
  simp only [State.level, State.inputValue, signal_of_blank h, loader_of_blank h, own_of_blank h]

end

section
variable (s : State) (c : Chan)

theorem resolveOne_ch (d : Chan) :
    (resolveOne c s).ch d = if d = c then (s.ch c).resolvedTo (s.cfg c) (s.level c) else s.ch d := by
  unfold resolveOne Channel.resolvedTo
  split
  · split
    next e => rw [e]
    next => rfl
  · exact deliver_ch c d s _

/-- A resolution brings each enabled channel that its test names to the level of the moment, and leaves the others (R73). -/
theorem resolve_ch (test : Chan → Bool) :
    (resolve test s).ch c =
      if (s.cfg c).enabled = true ∧ test c = true then (s.ch c).resolvedTo (s.cfg c) (s.level c) else s.ch c := by
  refine forChans_ch (s := s)
    (g := fun c x => if (s.cfg c).enabled = true ∧ test c = true then x.resolvedTo (s.cfg c) (s.level c) else x) ?_ c
  intro e t ht
  simp only [cfg_of_blank ht, Bool.and_eq_true]
  split
  · exact ⟨(resolveOne_blank e t).trans ht, fun d => by rw [resolveOne_ch, cfg_of_blank ht, level_of_blank ht]⟩
  · exact ⟨ht, fun d => by split <;> simp_all⟩

end

/-! ### The level that the bindings make -/

theorem foldl_max_spec {α : Type} (f : α → Nat) (l : List α) (n : Nat) :
    n ≤ l.foldl (fun m a => max m (f a)) n ∧ (∀ a ∈ l, f a ≤ l.foldl (fun m a => max m (f a)) n) ∧
      (l.foldl (fun m a => max m (f a)) n = n ∨ ∃ a ∈ l, f a = l.foldl (fun m a => max m (f a)) n) := by
  induction l generalizing n with
  | nil => simp
  | cons b rest ih =>
    obtain ⟨least, above, reached⟩ := ih (max n (f b))
    simp only [List.foldl_cons, List.forall_mem_cons, List.exists_mem_cons_iff]
    refine ⟨by omega, ⟨by omega, above⟩, ?_⟩
    rcases reached with h | h
    · rw [h]
      omega
    · exact .inr (.inr h)

section
variable (s : State)

/-- An input value is read by the table of R69. -/
theorem inputReads_inputValue (b : Binding) : s.InputReads b (s.inputValue b) := by
  have key : (fun e : StoreEntry => e.hasKey b.source b.signal.val) =
      fun e => decide (e.source = b.source) && decide (e.signal = b.signal) := by
    funext e
    simp [StoreEntry.hasKey, Fin.ext_iff]
  simp only [State.InputReads, State.inputValue, isOwnInput, key, Bool.and_eq_true, decide_eq_true_eq]
  split
  · rfl
  · cases s.signal.store.find? fun e => decide (e.source = b.source) && decide (e.signal = b.signal) with
    | none => rfl
    | some e => cases hs : e.state <;> cases hf : b.fallback <;> simp [entryValue, hs, hf]

/-- A contribution is made by the table of R70. -/
theorem contributes_contribution (b : Binding) (phaseOn : Bool) (v : Nat) :
    Contributes b phaseOn v (contribution b phaseOn v) := by
  cases h : b.transform <;> simp [Contributes, contribution, h]

/-- The level delivered is the greatest contribution, or in LIMP that of the direct input (R72, R76). -/
theorem levelIs_level (c : Chan) : s.LevelIs c (s.level c) := by
  simp only [State.LevelIs, State.level]
  split
  · by_cases h : c.val < 4 <;> simp [h, levelOf]
  · obtain ⟨-, above, reached⟩ := foldl_max_spec (fun b => contribution b s.signal.phaseOn (s.inputValue b))
      (s.signal.bindings.filter fun b => b.chan = c) 0
    have makes := fun b => contributes_contribution b s.signal.phaseOn (s.inputValue b)
    refine ⟨fun b hb e => ⟨_, _, inputReads_inputValue s b, makes b, above b (by simp [hb, e])⟩, ?_⟩
    refine reached.imp id fun ⟨b, hb, e⟩ => ?_
    obtain ⟨hb, hc⟩ := List.mem_filter.mp hb
    exact ⟨b, hb, of_decide_eq_true hc, _, inputReads_inputValue s b, e ▸ makes b⟩

end

/-- The level of channel `c` depends on direct input `i`: by a binding, or in LIMP by its number (R66, R76). -/
abbrev State.ReadsInput (s : State) (c : Chan) (i : Nat) : Prop :=
  if s.loader.runMode = .limp then c.val = i
  else ∃ k ∈ s.signal.bindings, k.chan = c ∧ k.source = s.own ∧ k.signal.val = 60 + i

section
variable {s t : State} {c : Chan}

/-- Direct inputs that a channel does not depend on, and the publication count, do not move its level. -/
theorem level_congr (hl : t.loader = s.loader)
    (hs : t.signal = { s.signal with inputs := t.signal.inputs, pubCount := t.signal.pubCount })
    (hi : ∀ i < 4, s.ReadsInput c i → dinGet t.signal.inputs i = dinGet s.signal.inputs i) : t.level c = s.level c := by
  have bindings : t.signal.bindings = s.signal.bindings := by rw [hs]
  have store : t.signal.store = s.signal.store := by rw [hs]
  have phase : t.signal.phaseOn = s.signal.phaseOn := by rw [hs]
  simp only [State.level, hl, bindings, phase]
  split
  next limp =>
    split
    next h => rw [hi c.val h (by rw [State.ReadsInput, if_pos limp])]
    next => rfl
  next run =>
    refine List.foldl_ext _ _ _ fun m b hb => ?_
    obtain ⟨hb, hc⟩ := List.mem_filter.mp hb
    have same : t.inputValue b = s.inputValue b := by
      simp only [State.inputValue, own_congr hl, store]
      split
      next own =>
        simp only [isOwnInput, Bool.and_eq_true, decide_eq_true_eq] at own
        have := b.signal.isLt
        rw [hi _ (by omega) (by rw [State.ReadsInput, if_neg run]; exact ⟨b, hb, of_decide_eq_true hc, own.1, by omega⟩)]
      next => rfl
    rw [same]

end

end Sys2Proof.Machine

/-! A realignment (R35) at one channel: what each of its parts does, in whatever order they are taken, and that a level once resolved
stays the one that the bindings make. -/

namespace Sys2Proof.Machine

/-- Channel `c` is enabled and holds the level that its bindings make of the moment (R73). -/
structure State.Settled (s : State) (c : Chan) : Prop where
  enabled : (s.cfg c).enabled = true
  held : (s.ch c).demandLevel = s.level c

/-- Channel `c` is enabled and has a FLASH binding (R71). -/
abbrev State.Flashes (s : State) (c : Chan) : Prop :=
  (s.cfg c).enabled = true ∧ ∃ k ∈ s.signal.bindings, k.chan = c ∧ k.transform = .flash

section
variable {s t : State} {c : Chan}

theorem inputMoves_congr (hl : t.loader = s.loader) (hb : t.signal.bindings = s.signal.bindings)
    (hi : t.signal.inputs = s.signal.inputs) (din : DinLevels) : t.InputMoves din c ↔ s.InputMoves din c := by
  simp only [State.InputMoves, cfg_congr hl, own_congr hl, hl, hb, hi]

theorem flashes_congr (hl : t.loader = s.loader) (hb : t.signal.bindings = s.signal.bindings) :
    t.Flashes c ↔ s.Flashes c := by
  simp only [State.Flashes, cfg_congr hl, hb]

theorem bound_flash_iff : s.bound (fun b => b.transform = .flash) c = true ↔
    ∃ k ∈ s.signal.bindings, k.chan = c ∧ k.transform = .flash := by
  simp [State.bound]

end

/-! ### The direct inputs at a period start -/

section
variable (s : State) (din : DinLevels) (c : Chan)

theorem publish_ch : (publish s).ch c = s.ch c := by
  unfold publish
  split <;> simp

theorem publish_inputs : (publish s).signal.inputs = s.signal.inputs := by
  unfold publish
  split <;> rfl

/-- The channels bound to a direct input that changes are those that a period start resolves (R74). -/
theorem boundInput_iff_inputMoves (hk : (s.cfg c).enabled = true) :
    (s.setSignal { s.signal with inputs := din }).boundInput (fun i => dinGet din i ≠ dinGet s.signal.inputs i) c = true ↔
      s.InputMoves din c := by
  simp only [State.InputMoves, hk, true_and, State.boundInput, State.setSignal_loader, State.setSignal_own]
  split
  next limp =>
    simp only [Bool.and_eq_true, decide_eq_true_eq]
    exact ⟨fun ⟨h, d⟩ => ⟨c.val, h, d, rfl⟩, fun ⟨i, h, d, e⟩ => e ▸ ⟨h, d⟩⟩
  next run =>
    simp only [State.bound, State.setSignal_signal, List.any_eq_true, Bool.and_eq_true, decide_eq_true_eq, isOwnInput]
    constructor
    · rintro ⟨b, hb, hc, ⟨hs, h60⟩, d⟩
      have := b.signal.isLt
      exact ⟨_, by omega, d, b, hb, hc, hs, by omega⟩
    · rintro ⟨i, hi, d, b, hb, hc, hs, e⟩
      exact ⟨b, hb, hc, ⟨hs, by omega⟩, by rwa [e, Nat.add_sub_cancel_left]⟩

/-- Where some input changes, the levels held are replaced, the channels bound to it resolved, and a publication made (R74, R75). -/
theorem readInputs_of_ne {s : State} {din : DinLevels} (h : din ≠ s.signal.inputs) :
    ∃ test, (∀ c, (s.cfg c).enabled = true → (test c = true ↔ s.InputMoves din c)) ∧
      readInputs din s = publish (resolve test (s.setSignal { s.signal with inputs := din })) :=
  ⟨_, fun c hk => boundInput_iff_inputMoves s din c hk, if_neg h⟩

theorem readInputs_of_eq {s : State} {din : DinLevels} (h : din = s.signal.inputs) : readInputs din s = s := if_pos h

theorem readInputs_inputs : (readInputs din s).signal.inputs = din := by
  by_cases h : din = s.signal.inputs
  · exact (congrArg (·.signal.inputs) (readInputs_of_eq h)).trans h.symm
  · obtain ⟨test, -, e⟩ := readInputs_of_ne h
    rw [e, publish_inputs, signal_of_blank (resolve_blank test _), State.setSignal_signal]

/-- After a period start no input is left that would change. -/
theorem not_inputMoves_readInputs : ¬(readInputs din s).InputMoves din c :=
  fun ⟨_, _, _, differs, _⟩ => differs (by rw [readInputs_inputs])

end

section
variable {s : State} {din : DinLevels} {c : Chan}

/-- A channel bound to an input that changes is resolved by it (R73, R74). -/
theorem readInputs_ch_of_moves (h : s.InputMoves din c) :
    (readInputs din s).ch c = (s.ch c).resolvedTo (s.cfg c) ((readInputs din s).level c) := by
  obtain ⟨hk, i, hi, differs, reads⟩ := id h
  obtain ⟨test, picks, e⟩ := readInputs_of_ne (s := s) (din := din) fun same => differs (by rw [same])
  have published (w : State) : (publish w).level c = w.level c :=
    level_congr (publish_kept w).loader (publish_kept w).table fun _ _ _ => by rw [publish_inputs]
  rw [e, publish_ch, resolve_ch, published, level_of_blank (resolve_blank test _), State.setSignal_cfg, State.setSignal_ch,
    if_pos ⟨hk, (picks c hk).mpr h⟩]

/-- No other channel is. -/
theorem readInputs_ch_of_not_moves (h : ¬s.InputMoves din c) : (readInputs din s).ch c = s.ch c := by
  by_cases same : din = s.signal.inputs
  · rw [readInputs_of_eq same]
  · obtain ⟨test, picks, e⟩ := readInputs_of_ne same
    rw [e, publish_ch, resolve_ch, State.setSignal_cfg, State.setSignal_ch]
    exact if_neg fun ⟨hk, picked⟩ => h ((picks c hk).mp picked)

/-- The level of an enabled channel that no changed input is bound to stands. -/
theorem readInputs_level_of_not_moves (hk : (s.cfg c).enabled = true) (h : ¬s.InputMoves din c) :
    (readInputs din s).level c = s.level c := by
  have kept := readInputs_kept s din
  refine level_congr kept.loader kept.table fun i hi reads => ?_
  rw [readInputs_inputs]
  by_contra differs
  exact h ⟨hk, i, hi, differs, reads⟩

end

/-! ### The parts of a realignment at one channel -/

section
variable {s : State} {c : Chan}

theorem loadDuties_blank (s : State) : (loadDuties s).blank = s.blank := by
  unfold loadDuties
  exact mapCh_blank s _

theorem loadDuties_ch (s : State) (c : Chan) :
    (loadDuties s).ch c = { s.ch c with activeDuty := (s.ch c).shadowDuty } := by
  unfold loadDuties
  exact State.mapCh_ch s _ c

theorem resolveFlash_blank (s : State) : (resolveFlash s).blank = s.blank := resolve_blank _ s

theorem resolveFlash_ch_of_flashes (h : s.Flashes c) :
    (resolveFlash s).ch c = (s.ch c).resolvedTo (s.cfg c) (s.level c) :=
  (resolve_ch s c _).trans (if_pos ⟨h.1, bound_flash_iff.mpr h.2⟩)

theorem resolveFlash_ch_of_not_flashes (h : ¬s.Flashes c) : (resolveFlash s).ch c = s.ch c :=
  (resolve_ch s c _).trans (if_neg fun ⟨hk, bound⟩ => h ⟨hk, bound_flash_iff.mp bound⟩)

end

section
variable {moved : Bool} {din : DinLevels} {task : EpochTask} {s : State} {c : Chan}

theorem realignTask_signals (moved : Bool) (din : DinLevels) (s : State) :
    realignTask moved din .signals s = if moved then resolveFlash s else s := rfl

/-- All but the period start's reading of the inputs act at the channels, the Scheduler and the slots alone. -/
theorem realignTask_blank (ht : task ≠ .readInputs) : (realignTask moved din task s).blank = s.blank := by
  cases task with
  | readInputs => exact absurd rfl ht
  | loadDuties => exact loadDuties_blank s
  | signals =>
    rw [realignTask_signals]
    split
    · exact resolveFlash_blank s
    · rfl
  | _ => rfl

/-- What they make of a channel: nothing, its shadow duty copied (R26), or the resolution of a FLASH channel (R71). -/
theorem realignTask_ch_cases (ht : task ≠ .readInputs) :
    (realignTask moved din task s).ch c = s.ch c ∧ task ≠ .loadDuties ∨
    (realignTask moved din task s).ch c = { s.ch c with activeDuty := (s.ch c).shadowDuty } ∨
    (task = .signals ∧ moved = true ∧ s.Flashes c) ∧ (realignTask moved din task s).ch c = (s.ch c).resolvedTo (s.cfg c) (s.level c) := by
  cases task with
  | readInputs => exact absurd rfl ht
  | loadDuties => exact .inr (.inl (loadDuties_ch s c))
  | signals =>
    rw [realignTask_signals]
    split
    next hm =>
      by_cases flashes : s.Flashes c
      · exact .inr (.inr ⟨⟨rfl, hm, flashes⟩, resolveFlash_ch_of_flashes flashes⟩)
      · exact .inl ⟨resolveFlash_ch_of_not_flashes flashes, by simp⟩
    next => exact .inl ⟨rfl, by simp⟩
  | _ => exact .inl ⟨rfl, by simp⟩

/-- The resolution of a realignment brings every enabled channel with a FLASH binding to its level (R71). -/
theorem settled_of_flashes (h : s.Flashes c) : (resolveFlash s).Settled c := by
  have unmoved := resolveFlash_blank s
  refine ⟨by rw [cfg_of_blank unmoved]; exact h.1, ?_⟩
  rw [level_of_blank unmoved, resolveFlash_ch_of_flashes h, Channel.resolvedTo_demandLevel]

/-- The reading of the inputs brings every channel bound to a changed one to its level (R74). -/
theorem settled_of_moves (h : s.InputMoves din c) : (readInputs din s).Settled c :=
  ⟨by rw [cfg_congr (readInputs_kept s din).loader]; exact h.1,
    by rw [readInputs_ch_of_moves h, Channel.resolvedTo_demandLevel]⟩

/-- A level once resolved stays the one the bindings make, through every part. -/
theorem State.Settled.realignTask (h : s.Settled c) : (realignTask moved din task s).Settled c := by
  by_cases ht : task = .readInputs
  · subst ht
    by_cases moves : s.InputMoves din c
    · exact settled_of_moves moves
    · refine ⟨(congrArg ChannelConfig.enabled (cfg_congr (readInputs_kept s din).loader c)).trans h.enabled, ?_⟩
      exact (congrArg Channel.demandLevel (readInputs_ch_of_not_moves moves)).trans
        (h.held.trans (readInputs_level_of_not_moves h.enabled moves).symm)
  · have unmoved := realignTask_blank (moved := moved) (din := din) (s := s) ht
    refine ⟨by rw [cfg_of_blank unmoved]; exact h.enabled, ?_⟩
    rw [level_of_blank unmoved]
    rcases realignTask_ch_cases (moved := moved) (din := din) (s := s) (c := c) ht with ⟨e, -⟩ | e | ⟨-, e⟩ <;> rw [e]
    · exact h.held
    · exact h.held
    · exact Channel.resolvedTo_demandLevel _ _ _

end

section
variable {moved : Bool} {din : DinLevels} {task : EpochTask} {s : State} {c : Chan}

theorem realignTask_inputMoves_iff (ht : task ≠ .readInputs) :
    (realignTask moved din task s).InputMoves din c ↔ s.InputMoves din c := by
  have unmoved := realignTask_blank (moved := moved) (din := din) (s := s) ht
  exact inputMoves_congr (loader_of_blank unmoved) (by rw [signal_of_blank unmoved]) (by rw [signal_of_blank unmoved]) din

/-- No part makes an input change that did not: the levels held are replaced by those given alone (R74). -/
theorem realignTask_not_inputMoves (h : ¬s.InputMoves din c) : ¬(realignTask moved din task s).InputMoves din c := by
  by_cases ht : task = .readInputs
  · subst ht
    exact not_inputMoves_readInputs s din c
  · rwa [realignTask_inputMoves_iff ht]

theorem realignTask_flashes_iff : (realignTask moved din task s).Flashes c ↔ s.Flashes c := by
  have kept := realignTask_kept s moved din task
  exact flashes_congr kept.loader kept.bindings

theorem realignTask_inputs (h : s.signal.inputs = din) : (realignTask moved din task s).signal.inputs = din := by
  by_cases ht : task = .readInputs
  · subst ht
    exact readInputs_inputs s din
  · rw [signal_of_blank (realignTask_blank ht), h]

/-- No part touches what the Sense Unit holds for the epoch (R41). -/
theorem realignTask_measurement : ((realignTask moved din task s).ch c).measurement = (s.ch c).measurement := by
  by_cases ht : task = .readInputs
  · subst ht
    by_cases moves : s.InputMoves din c
    · exact (congrArg Channel.measurement (readInputs_ch_of_moves moves)).trans (Channel.resolvedTo_measurement _ _ _)
    · exact congrArg Channel.measurement (readInputs_ch_of_not_moves moves)
  · rcases realignTask_ch_cases (moved := moved) (din := din) (s := s) (c := c) ht with ⟨e, -⟩ | e | ⟨-, e⟩ <;> rw [e]
    · rfl
    · exact Channel.resolvedTo_measurement _ _ _

/-- Where no input that changes is bound to the channel, and no phase of a FLASH binding can, its demand and state stand. -/
theorem realignTask_demand_and_state (hi : ¬s.InputMoves din c) (hf : ¬(moved = true ∧ s.Flashes c)) :
    ((realignTask moved din task s).ch c).demandLevel = (s.ch c).demandLevel ∧
      ((realignTask moved din task s).ch c).state = (s.ch c).state := by
  by_cases ht : task = .readInputs
  · subst ht
    have same := readInputs_ch_of_not_moves hi
    exact ⟨congrArg Channel.demandLevel same, congrArg Channel.state same⟩
  · rcases realignTask_ch_cases (moved := moved) (din := din) (s := s) (c := c) ht with ⟨e, -⟩ | e | ⟨⟨-, flashes⟩, -⟩
    · rw [e]
      exact ⟨rfl, rfl⟩
    · rw [e]
      exact ⟨rfl, rfl⟩
    · exact absurd flashes hf

end

/-- The resolution of a realignment that changes the number brings every FLASH channel to its level (R71). -/
theorem realignTask_settled_of_flashes {s : State} {c : Chan} (din : DinLevels) (h : s.Flashes c) :
    (realignTask true din .signals s).Settled c := by
  rw [realignTask_signals, if_pos rfl]
  exact settled_of_flashes h

/-- How the duty of a channel stands amid a realignment that no changed input brings to it: a resolution has moved its demand level
from `level`, or it is as it was, with the shadow duty `duty`, which is its active duty as well once the duties are `loaded`. -/
structure State.DutyStands (s : State) (din : DinLevels) (c : Chan) (level duty : Nat) (loaded : Prop) : Prop where
  still : ¬s.InputMoves din c
  stands : s.Settled c ∧ (s.ch c).demandLevel ≠ level ∨
    (s.ch c).demandLevel = level ∧ (s.ch c).shadowDuty = duty ∧ (loaded → (s.ch c).activeDuty = duty)

section
variable {moved : Bool} {din : DinLevels} {task : EpochTask} {s : State} {c : Chan} {level duty : Nat} {loaded : Prop}

theorem State.DutyStands.mono {due : Prop} (h : s.DutyStands din c level duty loaded) (hl : due → loaded) :
    s.DutyStands din c level duty due :=
  ⟨h.still, h.stands.imp_right fun ⟨held, shadow, active⟩ => ⟨held, shadow, fun d => active (hl d)⟩⟩

/-- Every part lets the duty stand, and the copying of the shadow duties loads it. -/
theorem State.DutyStands.realignTask (h : s.DutyStands din c level duty loaded) :
    (realignTask moved din task s).DutyStands din c level duty (loaded ∨ task = .loadDuties) := by
  refine ⟨realignTask_not_inputMoves h.still, ?_⟩
  by_cases ht : task = .readInputs
  · subst ht
    have same := readInputs_ch_of_not_moves h.still
    rcases h.stands with ⟨settled, away⟩ | ⟨held, shadow, active⟩
    · exact .inl ⟨settled.realignTask, (congrArg Channel.demandLevel same).trans_ne away⟩
    · exact .inr ⟨(congrArg Channel.demandLevel same).trans held, (congrArg Channel.shadowDuty same).trans shadow,
        fun l => (congrArg Channel.activeDuty same).trans (active (l.resolve_right (by simp)))⟩
  · rcases h.stands with ⟨settled, away⟩ | ⟨held, shadow, active⟩
    · refine .inl ⟨settled.realignTask, ?_⟩
      rcases realignTask_ch_cases (moved := moved) (din := din) (s := s) (c := c) ht with ⟨e, -⟩ | e | ⟨-, e⟩ <;> rw [e]
      · exact away
      · exact away
      · rwa [Channel.resolvedTo_demandLevel, ← settled.held]
    · rcases realignTask_ch_cases (moved := moved) (din := din) (s := s) (c := c) ht with ⟨e, hl⟩ | e | ⟨⟨rfl, rfl, flashes⟩, e⟩
      · rw [e]
        exact .inr ⟨held, shadow, fun l => active (l.resolve_right hl)⟩
      · rw [e]
        exact .inr ⟨held, shadow, fun _ => shadow⟩
      · by_cases same : s.level c = (s.ch c).demandLevel
        · rw [same, Channel.resolvedTo_self] at e
          rw [e]
          exact .inr ⟨held, shadow, fun l => active (l.resolve_right (by simp))⟩
        · refine .inl ⟨realignTask_settled_of_flashes din flashes, ?_⟩
          rwa [e, Channel.resolvedTo_demandLevel, ← held]

end

/-! ### All parts of a realignment -/

/-- The parts of a realignment taken in order (R35). -/
def realignParts (moved : Bool) (din : DinLevels) (tasks : List EpochTask) (s : State) : State :=
  tasks.foldl (fun x t => realignTask moved din t x) s

theorem mem_firstOnly {t : EpochTask} {l : List EpochTask} (h : t ∈ l) : t ∈ firstOnly l := by
  induction l with
  | nil => exact h
  | cons u rest ih =>
    by_cases e : t = u
    · exact e ▸ List.mem_cons_self
    · exact List.mem_cons_of_mem _ (List.mem_filter.mpr ⟨ih ((List.mem_cons.mp h).resolve_left e), by simpa using e⟩)

/-- Every part of the epoch start proper is taken, in whatever order (R32). -/
theorem mem_orderParts {t : EpochTask} (h : t ∈ epochParts) (o : EpochOrder) : t ∈ orderParts o := by
  refine mem_firstOnly (List.mem_flatMap.mpr ⟨t, List.mem_append_right _ h, ?_⟩)
  cases t <;> simp [withNeeds]

section
variable {moved : Bool} {din : DinLevels} {tasks : List EpochTask} {s : State} {c : Chan}

/-- What every part keeps, all parts keep. -/
theorem realignParts_induction {P : State → Prop} (keep : ∀ t x, P x → P (realignTask moved din t x)) (h : P s) :
    P (realignParts moved din tasks s) :=
  List.foldlRecOn tasks _ h fun x hx t _ => keep t x hx

/-- What one part brings about from what the parts before it keep, and the parts after it keep, all parts bring about. -/
theorem realignParts_reaches {P Q : State → Prop} {task : EpochTask} (ht : task ∈ tasks)
    (before : ∀ t x, Q x → Q (realignTask moved din t x)) (reach : ∀ x, Q x → P (realignTask moved din task x))
    (after : ∀ t x, P x → P (realignTask moved din t x)) (h : Q s) : P (realignParts moved din tasks s) := by
  obtain ⟨first, rest, rfl⟩ := List.append_of_mem ht
  rw [realignParts, List.foldl_append, List.foldl_cons]
  exact realignParts_induction after (reach _ (realignParts_induction before h))

theorem realignParts_kept (moved : Bool) (din : DinLevels) (tasks : List EpochTask) (s : State) :
    s.KeptByParts (realignParts moved din tasks s) :=
  realignParts_induction (fun t x hx => hx.trans (realignTask_kept x moved din t)) (.refl s)

theorem realignParts_inputs (h : .readInputs ∈ tasks) : (realignParts moved din tasks s).signal.inputs = din :=
  realignParts_reaches (P := fun x => x.signal.inputs = din) (Q := fun _ => True) h (fun _ _ _ => trivial)
    (fun x _ => readInputs_inputs x din) (fun _ _ hx => realignTask_inputs hx) trivial

theorem realignParts_settled_of_moves (h : .readInputs ∈ tasks) (moves : s.InputMoves din c) :
    (realignParts moved din tasks s).Settled c := by
  refine realignParts_reaches (P := fun x => x.Settled c) (Q := fun x => x.InputMoves din c ∨ x.Settled c) h
    (fun t x hx => ?_) (fun x hx => hx.elim settled_of_moves State.Settled.realignTask)
    (fun _ _ hx => hx.realignTask) (.inl moves)
  by_cases ht : t = .readInputs
  · subst ht
    exact .inr (hx.elim settled_of_moves State.Settled.realignTask)
  · exact hx.imp (realignTask_inputMoves_iff ht).mpr State.Settled.realignTask

theorem realignParts_settled_of_flashes (h : .signals ∈ tasks) (flashes : s.Flashes c) :
    (realignParts true din tasks s).Settled c :=
  realignParts_reaches (P := fun x => x.Settled c) (Q := fun x => x.Flashes c) h
    (fun _ _ hx => realignTask_flashes_iff.mpr hx) (fun _ hx => realignTask_settled_of_flashes din hx) (fun _ _ hx => hx.realignTask) flashes

theorem realignParts_measurement : ((realignParts moved din tasks s).ch c).measurement = (s.ch c).measurement :=
  realignParts_induction (P := fun x => (x.ch c).measurement = (s.ch c).measurement)
    (fun _ _ hx => realignTask_measurement.trans hx) rfl

theorem realignParts_demand_and_state (hi : ¬s.InputMoves din c) (hf : ¬(moved = true ∧ s.Flashes c)) :
    ((realignParts moved din tasks s).ch c).demandLevel = (s.ch c).demandLevel ∧
      ((realignParts moved din tasks s).ch c).state = (s.ch c).state := by
  refine (realignParts_induction (P := fun x => ¬x.InputMoves din c ∧ ¬(moved = true ∧ x.Flashes c) ∧
    (x.ch c).demandLevel = (s.ch c).demandLevel ∧ (x.ch c).state = (s.ch c).state) ?_ ⟨hi, hf, rfl, rfl⟩).2.2
  rintro t x ⟨still, steady, demand, state⟩
  have same := realignTask_demand_and_state (task := t) still steady
  exact ⟨realignTask_not_inputMoves still, by rwa [realignTask_flashes_iff], same.1.trans demand, same.2.trans state⟩

/-- A period start copies the shadow duty of a channel that no changed input is bound to, unless its demand level moves (R26). -/
theorem realignParts_duty (h : .loadDuties ∈ tasks) (still : ¬s.InputMoves din c)
    (demand : ((realignParts moved din tasks s).ch c).demandLevel = (s.ch c).demandLevel) :
    ((realignParts moved din tasks s).ch c).activeDuty = (s.ch c).shadowDuty := by
  have loaded : (realignParts moved din tasks s).DutyStands din c (s.ch c).demandLevel (s.ch c).shadowDuty True :=
    realignParts_reaches (Q := fun x => x.DutyStands din c (s.ch c).demandLevel (s.ch c).shadowDuty False)
      (P := fun x => x.DutyStands din c (s.ch c).demandLevel (s.ch c).shadowDuty True) h
      (fun _ _ hx => hx.realignTask.mono False.elim) (fun _ hx => hx.realignTask.mono fun _ => .inr rfl)
      (fun _ _ hx => hx.realignTask.mono .inl) ⟨still, .inr ⟨rfl, rfl, False.elim⟩⟩
  rcases loaded.stands with ⟨-, away⟩ | ⟨-, -, active⟩
  · exact absurd demand away
  · exact active trivial

end

/-- A realignment before its parts: the own MARK withdrawn, the pending samples dropped, step 0, the received number and with it the
flash phase (R27, R35, R71). -/
def State.realigning (s : State) (m : Nat) (charge : Bool) : State :=
  { s with
    channels := Vector.ofFn fun c => { s.ch c with pendingTerm := none }
    sense := { s.sense with pendingSupply := none }
    modulator := { s.modulator with step := 0 }
    timer := { s.timer with number := m, markPending := false }
    signal := { s.signal with phaseOn := if m = s.timer.number then s.signal.phaseOn else flashPhase m }
    link := s.link.withdraw .mark
    pins := { s.pins with charge := charge } }

theorem realign_eq {s : State} (hp : s.timer.markPending = true) (m : Nat) (inp : Inputs) (ord : EpochOrder) :
    realign m inp ord s =
      realignParts (m ≠ s.timer.number) inp.din (orderParts ord) (s.realigning m inp.charge) := by
  have withdrawn : withdrawMark s = (s.withdraw .mark).setTimer { s.timer with markPending := false } := by
    simp [withdrawMark, hp]
  have abandoned : abandonPeriod (withdrawMark s) =
      { s with
        channels := Vector.ofFn fun c => { s.ch c with pendingTerm := none }
        sense := { s.sense with pendingSupply := none }
        modulator := { s.modulator with step := 0 }
        timer := { s.timer with markPending := false }
        link := s.link.withdraw .mark } := by
    simp only [withdrawn, abandonPeriod, dropPending, State.mapCh, State.setTimer, State.setSense, State.atStep, State.ch,
      State.withdraw, State.setLink]
  simp only [realign, abandoned]
  by_cases hm : m = s.timer.number
  · simp only [hm, ne_eq, not_true_eq_false, if_false]
    simp [State.realigning, State.setTimer, State.setPins, realignParts]
  · simp only [hm, ne_eq, not_false_eq_true, if_true]
    simp [State.realigning, State.setTimer, State.setPins, realignParts, hm, takePhase, State.setSignal]

theorem announceAgain_eq (s : State) : ∃ l, announceAgain s = { s with link := l } ∧ l.blank = s.link.blank := by
  unfold announceAgain
  split
  · split
    · exact ⟨_, rfl, LinkController.handOver_blank _ _⟩
    · exact ⟨_, rfl, rfl⟩
  · exact ⟨_, rfl, rfl⟩

/-- Leaving MUTED hands over what is announced, and sets the listen count (R93, R143, R148). -/
theorem leaveMuted_eq (s : State) : ∃ l x b, leaveMuted s = { s with link := l, sched := x, budget := b } ∧
    l.onLine = s.link.onLine ∧ l.silence = s.link.silence ∧ x.deferral = s.sched.deferral := by
  obtain ⟨l, again, kept⟩ :=
    announceAgain_eq (s.setLink { s.link with muted := false, txErr := 0, good := 0 }).listenAgain.refreshInUse
  exact ⟨l, _, _, again, (LinkController.onLine_of_blank kept :), (LinkController.silence_of_blank kept :), rfl⟩

theorem countGood_eq (s : State) : ∃ l x b, countGood s = { s with link := l, sched := x, budget := b } ∧
    l.onLine = s.link.onLine ∧ l.silence = s.link.silence ∧ x.deferral = s.sched.deferral := by
  unfold countGood
  split
  · split
    · exact leaveMuted_eq s
    · exact ⟨_, _, _, rfl, rfl, rfl, rfl⟩
  · exact ⟨_, _, _, rfl, rfl, rfl, rfl⟩

/-- A valid frame reaches the Link Controller, and by it the Scheduler's records and the figures in use, alone (R86, R93–R95). -/
theorem validFrame_eq (s : State) : ∃ l x b, validFrame s = { s with link := l, sched := x, budget := b } ∧
    l.onLine = s.link.onLine ∧ l.silence = 0 ∧ x.deferral = s.sched.deferral := by
  simp only [validFrame]
  split
  · exact countGood_eq _
  · exact countGood_eq _

/-! ### What a realignment leaves -/

section
variable (s : State) (m : Nat) (inp : Inputs) (ord : EpochOrder)

theorem realigning_ch (charge : Bool) (c : Chan) :
    (s.realigning m charge).ch c = { s.ch c with pendingTerm := none } := by
  simp [State.ch, State.realigning]

theorem realigning_inputMoves_iff (charge : Bool) (din : DinLevels) (c : Chan) :
    (s.realigning m charge).InputMoves din c ↔ s.InputMoves din c := inputMoves_congr rfl rfl rfl din

theorem realigning_flashes_iff (charge : Bool) (c : Chan) : (s.realigning m charge).Flashes c ↔ s.Flashes c :=
  flashes_congr rfl rfl

end

theorem dutyLoaded_congr {s u : State} (hl : u.loader = s.loader) (hc : u.channels = s.channels) (hs : u.signal = s.signal)
    (t : State) (din : DinLevels) (c : Chan) : u.DutyLoaded t din c ↔ s.DutyLoaded t din c := by
  simp only [State.DutyLoaded, ch_congr hc, inputMoves_congr hl (congrArg _ hs) (congrArg _ hs)]

/-- A withdrawal empties the slot, or where it is on the line takes back what stands behind it (R89). -/
theorem LinkController.withdraw_of_offLine {l : LinkController} {x : Slot} (h : l.onLine ≠ some x) :
    l.withdraw x = l.setSlot x none := if_neg h

theorem LinkController.withdraw_of_onLine {l : LinkController} {x : Slot} (h : l.onLine = some x) :
    l.withdraw x = { l with heldAside := none, lineWithdrawn := true } := if_pos h

section
variable {s : State} {m : Nat} {inp : Inputs} {ord : EpochOrder} {c : Chan}

theorem realign_kept (hp : s.timer.markPending = true) : (s.realigning m inp.charge).KeptByParts (realign m inp ord s) := by
  rw [realign_eq hp]
  exact realignParts_kept _ _ _ _

/-- The blocks that a realignment does not reach (R35). -/
theorem realign_leaves (hp : s.timer.markPending = true) : (realign m inp ord s).peers = s.peers ∧
    (realign m inp ord s).reservations = s.reservations ∧ (realign m inp ord s).budget = s.budget ∧
    (realign m inp ord s).cuts = s.cuts ∧ (realign m inp ord s).diag = s.diag ∧ (realign m inp ord s).loader = s.loader := by
  have kept := realign_kept (m := m) (inp := inp) (ord := ord) hp
  simp only [kept.peers, kept.reservations, kept.budget, kept.cuts, kept.diag, kept.loader, State.realigning, and_self]

theorem realign_inputs (hp : s.timer.markPending = true) : (realign m inp ord s).signal.inputs = inp.din := by
  rw [realign_eq hp]
  exact realignParts_inputs (mem_orderParts (by decide) ord)

/-- The channels that a changed input or a changed phase reaches end at the level their bindings make (R71, R74). -/
theorem realign_levelIs (hp : s.timer.markPending = true) (h : m ≠ s.timer.number ∧ s.Flashes c ∨ s.InputMoves inp.din c) :
    (realign m inp ord s).LevelIs c ((realign m inp ord s).ch c).demandLevel := by
  have settled : (realign m inp ord s).Settled c := by
    rw [realign_eq hp]
    rcases h with ⟨moved, flashes⟩ | moves
    · rw [decide_eq_true moved]
      exact realignParts_settled_of_flashes (mem_orderParts (by decide) ord) ((realigning_flashes_iff s m _ c).mpr flashes)
    · exact realignParts_settled_of_moves (mem_orderParts (by decide) ord) ((realigning_inputMoves_iff s m _ _ c).mpr moves)
  rw [settled.held]
  exact levelIs_level _ c

/-- The others keep demand level and state. -/
theorem realign_demand_and_state (hp : s.timer.markPending = true)
    (h : ¬(m ≠ s.timer.number ∧ s.Flashes c ∨ s.InputMoves inp.din c)) :
    ((realign m inp ord s).ch c).demandLevel = (s.ch c).demandLevel ∧
      ((realign m inp ord s).ch c).state = (s.ch c).state := by
  have same := realignParts_demand_and_state (moved := m ≠ s.timer.number) (tasks := orderParts ord)
    (mt (realigning_inputMoves_iff s m inp.charge inp.din c).mp fun moves => h (.inr moves))
    (fun ⟨moved, flashes⟩ =>
      h (.inl ⟨of_decide_eq_true moved, (realigning_flashes_iff s m inp.charge c).mp flashes⟩))
  rwa [← realign_eq hp, realigning_ch] at same

theorem realign_dutyLoaded (hp : s.timer.markPending = true) : s.DutyLoaded (realign m inp ord s) inp.din c := by
  rintro still - demand -
  have begun := realigning_ch s m inp.charge c
  have loaded := realignParts_duty (moved := m ≠ s.timer.number) (s := s.realigning m inp.charge) (c := c)
    (mem_orderParts (by decide) ord) (mt (realigning_inputMoves_iff s m inp.charge inp.din c).mp still)
  rw [← realign_eq hp, begun] at loaded
  exact loaded demand

theorem realign_measurement (hp : s.timer.markPending = true) :
    ((realign m inp ord s).ch c).drawAcc = (s.ch c).drawAcc ∧ ((realign m inp ord s).ch c).pendingTerm = none ∧
      ((realign m inp ord s).ch c).epochDraw = (s.ch c).epochDraw ∧
      ((realign m inp ord s).ch c).closedMarker = (s.ch c).closedMarker := by
  have held := realignParts_measurement (moved := m ≠ s.timer.number) (din := inp.din) (tasks := orderParts ord)
    (s := s.realigning m inp.charge) (c := c)
  rw [← realign_eq hp, realigning_ch] at held
  simpa [Channel.measurement] using held

/-- The own MARK waits no longer, nor is one to follow it on the line (R35, R89). -/
theorem realign_mark (hp : s.timer.markPending = true) :
    (s.link.onLine ≠ some .mark → (realign m inp ord s).link.slots.mark = none) ∧
    (s.link.onLine = some .mark →
      (realign m inp ord s).link.heldAside = none ∧ (realign m inp ord s).link.lineWithdrawn = true) := by
  have stands : (s.link.withdraw .mark).MarkStands (realign m inp ord s).link := (realign_kept hp).mark
  refine ⟨fun off => ?_, fun on => ?_⟩
  · rw [stands.slot, LinkController.withdraw_of_offLine off]
    rfl
  · obtain ⟨held, noted⟩ := stands.behind ((LinkController.onLine_of_blank (s.link.withdraw_blank _)).trans on)
    rw [held, noted, LinkController.withdraw_of_onLine on]
    exact ⟨rfl, rfl⟩

end

/-- In the first period a MARK realigns a station whose own MARK is pending, and is ignored otherwise (R35, R36). -/
theorem takeMark_first {s : State} (h : s.timer.completed = 0) (m : Nat) (inp : Inputs) (ord : EpochOrder) :
    takeMark m inp ord s = if s.timer.markPending = true then realign m inp ord s else s := if_neg (by omega)

section
variable {s : State} (h : s.isLoaded = true)
include h

theorem exec_kind7FrameReceived (sender : Stn) : exec (.kind7FrameReceived sender []) s = .next (validFrame s) :=
  congrArg Host.Outcome.next (whenLoaded_of s _ h)

/-- A MARK of another station counts as a valid frame and is taken (R34–R36, R86). -/
theorem exec_markReceived {sender : Stn} (hs : sender ≠ s.own) (b : Byte) (inp : Inputs) (ord : EpochOrder) :
    exec (.markReceived sender [b] inp ord) s = .next (takeMark b.toNat inp ord (validFrame s)) := by
  have own : (validFrame s).own = s.own := by
    obtain ⟨l, x, y, e, -⟩ := validFrame_eq s
    rw [e]
    rfl
  have taken : receiveChecked (requiredLength .mark) sender [b] (takeMark b.toNat inp ord) s =
      takeMark b.toNat inp ord (validFrame s) := by
    simp [receiveChecked, requiredLength, own, hs]
  exact congrArg Host.Outcome.next ((whenLoaded_of s _ h).trans taken)

end

end Sys2Proof.Machine

namespace Sys2Proof
open Machine

/-- Settles O15: the frame counts as a valid one, and the parts of the realignment, in whatever order, touch neither the epoch's
measurement nor a channel that no changed phase or input reaches. -/
theorem aMarkInTheFirstPeriodStartsNoEpoch : Obligations.AMarkInTheFirstPeriodStartsNoEpoch := by
  intro s sender b inp ord loaded other first
  refine ⟨_, exec_kind7FrameReceived loaded sender, ?_⟩
  rw [exec_markReceived loaded other]
  obtain ⟨l, x, y, counted, line, silence, deferral⟩ := validFrame_eq s
  generalize validFrame s = u at counted ⊢
  obtain ⟨channels, cuts, modulator, timer, sense, signal, link⟩ : u.channels = s.channels ∧ u.cuts = s.cuts ∧
      u.modulator = s.modulator ∧ u.timer = s.timer ∧ u.sense = s.sense ∧ u.signal = s.signal ∧ u.link = l := by simp [counted]
  obtain ⟨peers, reservations, sched, diag, loader, pins⟩ : u.peers = s.peers ∧ u.reservations = s.reservations ∧
      u.sched = x ∧ u.diag = s.diag ∧ u.loader = s.loader ∧ u.pins = s.pins := by simp [counted]
  rw [← link] at line silence
  rw [← sched] at deferral
  rw [← timer] at first ⊢
  rw [takeMark_first first]
  refine ⟨fun clear => by rw [if_neg (by simp [clear])], fun pending => ⟨_, by rw [if_pos pending], ?_⟩⟩
  have kept : (u.realigning b.toNat inp.charge).KeptByParts (realign b.toNat inp ord u) := realign_kept pending
  obtain ⟨offLine, onLine⟩ := realign_mark (m := b.toNat) (inp := inp) (ord := ord) pending
  obtain ⟨peersKept, reservationsKept, budgetKept, cutsKept, diagKept, loaderKept⟩ :=
    realign_leaves (m := b.toNat) (inp := inp) (ord := ord) pending
  obtain ⟨-, deferralKept, listenKept⟩ := kept.counts
  have quiet := LinkController.silence_of_blank (kept.mark.blank.trans (u.link.withdraw_blank .mark))
  rw [← modulator, ← sense, ← signal, ← peers, ← reservations, ← cuts, ← diag, ← loader, ← pins, ← line, ← deferral]
  simp only [← cfg_congr loader, ← ch_congr channels, ← inputMoves_congr loader (congrArg _ signal) (congrArg _ signal),
    ← dutyLoaded_congr loader channels signal]
  exact ⟨kept.timer, kept.modulator, offLine, onLine, quiet.trans silence, listenKept, deferralKept,
    fun c => realign_dutyLoaded pending,
    fun c => ⟨fun hit => realign_levelIs pending (hit.imp_left and_left_comm.mp),
      fun missed => realign_demand_and_state pending (mt (Or.imp_left and_left_comm.mp) missed)⟩,
    fun c => realign_measurement pending, kept.sense, peersKept, reservationsKept, budgetKept, kept.store,
    realign_inputs pending, cutsKept, diagKept, loaderKept, kept.pins, kept.phaseOn⟩

end Sys2Proof

/-! A trip (R13, R52–R54): the retry decision, what it makes of its channel, and what the end of the channel's window brings at the
Scheduler and in the slots (R147, R150). -/

namespace Sys2Proof.Machine

theorem ChState.live_iff (st : ChState) : st.live = true ↔ st = .inrush ∨ st = .on := by
  simp [ChState.live]

/-! ### The retry decision -/

section
variable (k : ChannelConfig) (n : Nat)

/-- A retry follows while attempts are left, and under PERSIST (R52). -/
theorem retryDecision_delay : (retryDecision k n).delay =
    if n < k.retryLimit then some (min 255 (k.retryBase * 2 ^ n))
    else if k.limitAction = .persist then some 255 else none := by
  unfold retryDecision
  split
  · rfl
  · cases k.limitAction <;> rfl

theorem retryDecision_attempts : (retryDecision k n).attempts = if n < k.retryLimit then n + 1 else n := by
  unfold retryDecision
  split
  · rfl
  · cases k.limitAction <;> rfl

theorem retryDecision_persistNoted : (retryDecision k n).persistNoted =
    (!decide (n < k.retryLimit) && decide (k.limitAction = .persist)) := by
  unfold retryDecision
  split
  next h => simp [h]
  next h => cases k.limitAction <;> simp [h]

theorem retryDecision_delay_isSome :
    (retryDecision k n).delay.isSome = true ↔ n < k.retryLimit ∨ k.limitAction = .persist := by
  rw [retryDecision_delay]
  split_ifs <;> simp_all

end

/-! ### What a trip makes of its channel -/

/-- A state whose entry is an immediate off leaves the channel no duty, no window and no cap (R4, R5, R11). -/
theorem Channel.enter_of_immediateOff {st : ChState} (h : st.immediateOff = true) (x : Channel) (r : ShedReason) (window : Nat) :
    let y := x.enter st r window
    y.cap = 255 ∧ y.inrushRemaining = 0 ∧ y.effectiveDuty = 0 ∧ y.shadowDuty = 0 ∧ y.activeDuty = 0 := by
  cases st with
  | tripped | latched | cut => exact ⟨rfl, rfl, rfl, rfl, rfl⟩
  | off | requested | inrush | on | shed => exact absurd h (by decide)

section
variable (x : Channel) (k : ChannelConfig) (kind : FaultKind) (current epoch step : Nat)

/-- The state a trip leads to (R13, R52). -/
def Channel.tripState : ChState :=
  if x.fault.attempts < k.retryLimit ∨ k.limitAction = .persist then .tripped else .latched

theorem Channel.tripState_immediateOff : (x.tripState k).immediateOff = true := by
  unfold Channel.tripState
  split <;> rfl

theorem Channel.trips_eq : x.trips k kind current epoch step =
    (x.tripped kind current epoch step (retryDecision k x.fault.attempts)).enter (x.tripState k) .none k.window := by
  simp only [Channel.trips, Channel.tripState, retryDecision_delay_isSome]

theorem Channel.trips_state : (x.trips k kind current epoch step).state = x.tripState k := by
  rw [Channel.trips_eq]
  rfl

/-- The record of a trip (R53). -/
theorem Channel.trips_fault : (x.trips k kind current epoch step).fault =
    { kind := kind, current := current, epoch := epoch, step := step, isNew := true
      attempts := if x.fault.attempts < k.retryLimit then x.fault.attempts + 1 else x.fault.attempts
      persistNoted := !decide (x.fault.attempts < k.retryLimit) && decide (k.limitAction = .persist) } := by
  rw [← retryDecision_attempts, ← retryDecision_persistNoted]
  rfl

/-- The retry timer after a trip runs where a retry follows (R54). -/
theorem Channel.trips_retryTimer : (x.trips k kind current epoch step).retryTimer =
    if x.fault.attempts < k.retryLimit then some (min 255 (k.retryBase * 2 ^ x.fault.attempts))
    else if k.limitAction = .persist then some 255 else x.retryTimer := by
  have kept : (x.trips k kind current epoch step).retryTimer =
      (x.tripped kind current epoch step (retryDecision k x.fault.attempts)).retryTimer := by
    rw [Channel.trips_eq, Channel.tripState]
    split <;> simp [Channel.enter, Channel.recompute]
  rw [kept, Channel.tripped, retryDecision_delay]
  split_ifs <;> rfl

end

/-! ### What the end of a window brings -/

section
variable {s : State} {c : Chan}

theorem surgeOver_of_held {y : Claim} (ho : s.sched.ordinary = some y) (hc : y.chan = c) (hp : y.phase = .held) :
    surgeOver c s = (releaseClaim y s).setClaim none := by
  simp [surgeOver, ho, hc, hp]

theorem surgeOver_of_not_held (h : ¬∃ y, s.sched.ordinary = some y ∧ y.chan = c ∧ y.phase = .held) : surgeOver c s = s := by
  unfold surgeOver
  split
  · rfl
  next y ho => exact if_neg fun named => h ⟨y, ho, by simpa using named⟩

theorem releaseClaim_link (x : Claim) (s : State) :
    (releaseClaim x s).link = if x.byFrame = true then s.link.handOver (.release .ordinary x.chan) else s.link := by
  unfold releaseClaim
  split <;> rfl

theorem announceLowered_link (c : Chan) (s : State) : (announceLowered c s).link =
    if 0 < s.sched.announceAmount ∧ s.surgeAmount = 0 then s.link.handOver (.release .announce c) else s.link := by
  simp only [announceLowered, Bool.and_eq_true, decide_eq_true_eq]
  split <;> rfl

/-- The notices of a channel that leaves INRUSH, or a state of which no block takes notice, for TRIPPED, LATCHED or CUT (R8). -/
theorem notices_immediateOff {old st : ChState} (hOld : old ≠ .requested) (h : st.immediateOff = true) (c : Chan) (s : State) :
    notices c old st s = if old = .inrush then inrushEnded c s else s := by
  have notInrush : st ≠ .inrush := by rintro rfl; exact absurd h (by decide)
  have notRequested : st ≠ .requested := by rintro rfl; exact absurd h (by decide)
  simp [notices, hOld, notInrush, notRequested]

theorem surgeAmount_eq {t : State} (hk : ∀ d, t.cfg d = s.cfg d) : t.surgeAmount = s.SurgeSum t := by
  simp only [State.surgeAmount, sumChans, State.SurgeSum, ← hk]
  rfl

theorem surgeHold_eq {t : State} (hk : ∀ d, t.cfg d = s.cfg d) : t.surgeHold = s.SurgeSpan t := by
  simp only [State.surgeHold, State.SurgeSpan, ← hk]
  rfl

/-- INRUSH ENDED of a class 0 channel, sent after its items alone were written (R150). -/
theorem announceLowered_surgeEnds (h : (s.ch c).state = .inrush) (hk : (s.cfg c).cls = 0) (x : Channel) :
    s.SurgeEnds (announceLowered c (s.setCh c x)) c := by
  have amount : (s.setCh c x).surgeAmount = s.SurgeSum (announceLowered c (s.setCh c x)) := by
    rw [surgeAmount_eq (s.setCh_cfg c x)]
    simp only [State.SurgeSum, announceLowered_ch]
  have span : (s.setCh c x).surgeHold = s.SurgeSpan (announceLowered c (s.setCh c x)) := by
    rw [surgeHold_eq (s.setCh_cfg c x)]
    simp only [State.SurgeSpan, announceLowered_ch]
  refine ⟨fun quiet => absurd quiet (by simp [h, hk]), fun _ held => absurd hk held.1, fun _ _ => ?_⟩
  rw [← amount, ← span, announceLowered_sched, announceLowered_link]
  exact ⟨rfl, rfl⟩

/-- INRUSH ENDED of a class 1–3 channel, sent after its items alone were written (R147). -/
theorem surgeOver_surgeEnds (h : (s.ch c).state = .inrush) (hk : (s.cfg c).cls ≠ 0) (x : Channel) :
    s.SurgeEnds (surgeOver c (s.setCh c x)) c := by
  refine ⟨fun quiet => ?_, fun _ ⟨_, y, ho, hc, hp⟩ => ?_, fun _ zero => absurd zero hk⟩
  · have unheld := (quiet.resolve_left (not_not_intro h)).2
    rw [surgeOver_of_not_held (s := s.setCh c x) fun held => unheld ⟨hk, held⟩]
    exact ⟨rfl, rfl⟩
  · rw [surgeOver_of_held (s := s.setCh c x) ho hc hp]
    refine ⟨by simp, fun z hz => ?_⟩
    obtain rfl : y = z := Option.some.inj (ho.symm.trans hz)
    exact hc ▸ releaseClaim_link y _

theorem inrushEnded_surgeEnds (h : (s.ch c).state = .inrush) (x : Channel) :
    s.SurgeEnds (inrushEnded c (s.setCh c x)) c := by
  simp only [inrushEnded, State.setCh_cfg]
  split
  next hk => exact announceLowered_surgeEnds h hk x
  next hk => exact surgeOver_surgeEnds h hk x

/-- A channel that leaves INRUSH or ON for an immediate off ends the surge it had (R8). -/
theorem enter_surgeEnds {st : ChState} (h : (s.ch c).state.live = true) (off : st.immediateOff = true) (r : ShedReason) :
    s.SurgeEnds (enter c st r s) c := by
  rcases (ChState.live_iff _).mp h with inrush | on
  · rw [enter, notices_immediateOff (by simp [inrush]) off, if_pos inrush]
    exact inrushEnded_surgeEnds inrush _
  · rw [enter, notices_immediateOff (by simp [on]) off, if_neg (by simp [on])]
    exact ⟨fun _ => ⟨rfl, rfl⟩, fun inrush => absurd (on.symm.trans inrush) (by decide),
      fun inrush => absurd (on.symm.trans inrush) (by decide)⟩

end

/-! ### What a trip leaves -/

/-- A new fault record asserts the FAULT pin (R160). -/
theorem faultCondition_of_isNew {s : State} {c : Chan} (h : (s.ch c).fault.isNew = true) : s.faultCondition = true := by
  have new : s.anyNewFault = true := List.any_eq_true.mpr ⟨c, List.mem_finRange c, h⟩
  simp [State.faultCondition, new]

section
variable {s : State} {c : Chan} (h : (s.ch c).state.live = true) (kind : FaultKind) (current step : Nat)
include h

/-- A trip that is taken: the record is written, the state entered, and the FAULT pin follows (R13, R53, R160). -/
theorem trip_eq_of_live : trip c kind current step s =
    (enter c ((s.ch c).tripState (s.cfg c)) .none (s.updCh c fun x =>
      x.tripped kind current s.timer.number step (retryDecision (s.cfg c) x.fault.attempts))).refreshFault := by
  simp only [trip, if_pos h, Channel.tripState, retryDecision_delay_isSome]
  rfl

theorem trip_ch_self :
    (trip c kind current step s).ch c = (s.ch c).trips (s.cfg c) kind current s.timer.number step := by
  rw [trip_ch c c s kind current step h, if_pos rfl]

theorem trip_ch_ne {d : Chan} (hd : d ≠ c) : (trip c kind current step s).ch d = s.ch d := by
  rw [trip_ch c d s kind current step h, if_neg hd]

theorem trip_faultAsserted : (trip c kind current step s).diag.faultAsserted = true := by
  have record : ((trip c kind current step s).ch c).fault.isNew = true := by
    rw [trip_ch_self h, Channel.trips_fault]
  rw [trip_eq_of_live h] at record ⊢
  exact faultCondition_of_isNew record

theorem trip_cuts : (trip c kind current step s).cuts = s.cuts := by
  rw [trip_eq_of_live h]
  exact ((updCh_kept s c _).trans (enter_kept c _ _ _)).cuts

/-- The window of a tripped channel ends (R147, R150). -/
theorem trip_surgeEnds : s.SurgeEnds (trip c kind current step s) c := by
  rw [trip_eq_of_live h]
  generalize hf : (fun x : Channel =>
    x.tripped kind current s.timer.number step (retryDecision (s.cfg c) x.fault.attempts)) = f
  have state : ((s.updCh c f).ch c).state = (s.ch c).state := by rw [State.updCh_ch_self, ← hf]; rfl
  have ends := enter_surgeEnds (s := s.updCh c f) (state ▸ h) ((s.ch c).tripState_immediateOff (s.cfg c)) .none
  simpa only [State.SurgeEnds, State.SurgeSum, State.SurgeSpan, state, State.updCh_cfg, State.updCh_sched, State.updCh_link,
    State.refreshFault_sched, State.refreshFault_link, State.refreshFault_ch] using ends

theorem trip_leaves : s.TripLeaves (trip c kind current step s) c kind current step := by
  have kept := trip_blank c kind current step s
  have tripped := trip_ch_self h kind current step
  obtain ⟨cap, window, effective, shadow, active⟩ :=
    Channel.enter_of_immediateOff ((s.ch c).tripState_immediateOff (s.cfg c))
      ((s.ch c).tripped kind current s.timer.number step (retryDecision (s.cfg c) (s.ch c).fault.attempts)) .none
      (s.cfg c).window
  rw [← Channel.trips_eq, ← tripped] at cap window effective shadow active
  refine ⟨?_, cap, window, effective, shadow, active, ?_, ?_, ?_, ?_, trip_faultAsserted h kind current step,
    fun d hd => trip_ch_ne h kind current step hd, trip_cuts h kind current step, sense_of_blank kept, pins_of_blank kept,
    keeps_of_blank kept, trip_surgeEnds h kind current step⟩ <;> rw [tripped]
  · exact Channel.trips_state ..
  · exact Channel.trips_fault ..
  · exact Channel.trips_retryTimer ..
  · rfl
  · rfl

end

/-! ### The switch turns an output off (R49, R50) -/

/-- What follows where the switch itself has turned off an output that was on (R49, R50). -/
def switchedOff (c : Chan) (kind : FaultKind) (current step : Nat) (s : State) : State :=
  if (s.ch c).state.live then trip c kind current step (s.atStep step) else cutOff c (s.atStep step)

section
variable {s : State} {step : Nat} (hs : step ≤ 254) (c : Chan)
include hs

theorem comparatorFires_eq (current : Nat) : comparatorFires c step current s =
    if s.onAt c step = true ∧ 640 < current then switchedOff c .short 640 step s else s := by
  simp only [comparatorFires, hs, decide_true, Bool.true_and, Bool.and_eq_true, decide_eq_true_eq]
  rfl

theorem thermalReport_eq : thermalReport c step s =
    if s.onAt c step = true then switchedOff c .thermal ((s.ch c).lastSample.getD 0) step s else s := by
  simp only [thermalReport, hs, decide_true, Bool.true_and]
  rfl

end

section
variable {s : State} {c : Chan}

/-- In INRUSH or ON a trip at the step, which moves the step counter alone besides (R23). -/
theorem switchedOff_of_live (h : (s.ch c).state = .inrush ∨ (s.ch c).state = .on) (kind : FaultKind) (current step : Nat) :
    s.TripLeaves (switchedOff c kind current step s) c kind current step ∧
      (switchedOff c kind current step s).modulator = { s.modulator with step := step } := by
  have live := (ChState.live_iff _).mpr h
  rw [switchedOff, if_pos live]
  exact ⟨trip_leaves (s := s.atStep step) live kind current step, modulator_of_blank (trip_blank ..)⟩

/-- In any other state a comparator cut-off. -/
theorem switchedOff_of_not_live (h : ¬((s.ch c).state = .inrush ∨ (s.ch c).state = .on)) (kind : FaultKind)
    (current step : Nat) : switchedOff c kind current step s =
      { s.setCh c { s.ch c with activeDuty := 0 } with modulator := { s.modulator with step := step } } :=
  if_neg (mt (ChState.live_iff _).mp h)

end

section
variable {s : State} (h : s.isLoaded = true) (c : Chan) (step : Nat)
include h

theorem exec_short (current : Nat) : exec (.short c step current) s = .next (comparatorFires c step current s) :=
  congrArg Host.Outcome.next (whenLoaded_of s _ h)

theorem exec_thermal : exec (.thermal c step) s = .next (thermalReport c step s) :=
  congrArg Host.Outcome.next (whenLoaded_of s _ h)

end

end Sys2Proof.Machine

namespace Sys2Proof
open Machine

/-- Settles O29: both events come to the same where they are taken, a trip or a cut-off by the channel's state. -/
theorem theSwitchItselfTurnsAnOutputOff : Obligations.TheSwitchItselfTurnsAnOutputOff := by
  intro s c step current last loaded inPeriod sampled live cutOff
  obtain rfl : last = (s.ch c).lastSample.getD 0 := by
    rw [sampled]
    cases (s.ch c).lastSample <;> rfl
  rw [exec_short loaded, exec_thermal loaded, comparatorFires_eq inPeriod, thermalReport_eq inPeriod]
  refine ⟨fun on above alive => ?_, fun on above dead => ?_, fun off => ?_, fun on alive => ?_, fun on dead => ?_, fun off => ?_⟩
  · rw [if_pos ⟨on, above⟩]
    exact ⟨_, rfl, switchedOff_of_live alive .short 640 step⟩
  · rw [if_pos ⟨on, above⟩, switchedOff_of_not_live dead]
  · rw [if_neg fun ⟨on, above⟩ => off.elim (by simp [on]) above.not_ge]
  · rw [if_pos on]
    exact ⟨_, rfl, switchedOff_of_live alive .thermal _ step⟩
  · rw [if_pos on, switchedOff_of_not_live dead]
  · rw [if_neg (by simp [off])]

end Sys2Proof

/-! Received frames at the Peer Unit (R100, R105, R106): what the bytes of a RESERVE, RELEASE and STATUS say, and that over what a
valid frame counts the delivery is all that follows. -/

namespace Sys2Proof.Machine

/-! ### What the bytes say (R171) -/

/-- The type stands in bit 7 of the first byte. -/
theorem resTypeOf_topBit (b : Byte) : resTypeOf (b.toNat / 128) = if 128 ≤ b.toNat then .announce else .ordinary := by
  have top : b.toNat / 128 = 1 ↔ 128 ≤ b.toNat := by omega
  simp only [resTypeOf, top]

theorem releaseTypeOf_cons (b : Byte) (rest : List Byte) :
    releaseTypeOf (b :: rest) = if 128 ≤ b.toNat then .announce else .ordinary := resTypeOf_topBit b

theorem eq_reserveOf_iff (sender : Stn) (b0 b1 b2 : Byte) (r : Reservation) : r = reserveOf sender [b0, b1, b2] ↔
    r.station = sender ∧ r.ty = (if 128 ≤ b0.toNat then .announce else .ordinary) ∧ r.cls.val = b0.toNat / 32 % 4 ∧
      r.chan.val = b0.toNat % 16 ∧ r.amount = b1.toNat % 16 * 256 + b2.toNat ∧ r.hold = b1.toNat / 16 + 1 := by
  obtain ⟨station, ty, cls, chan, amount, hold⟩ := r
  rw [← resTypeOf_topBit]
  simp only [reserveOf, payloadByte, List.getD_cons_zero, List.getD_cons_succ, Reservation.mk.injEq, Fin.ext_iff, Fin.val_ofNat]

theorem statusDrawsOf_eq (b0 b1 b2 b3 b4 b5 : Byte) (rest : List Byte) :
    statusDrawsOf (b0 :: b1 :: b2 :: b3 :: b4 :: b5 :: rest) =
      { d0 := b0.toNat * 16 + b1.toNat / 16, d1 := b1.toNat % 16 * 256 + b2.toNat
        d2 := b3.toNat * 16 + b4.toNat / 16, d3 := b4.toNat % 16 * 256 + b5.toNat } := rfl

/-! ### What a valid frame leaves alone -/

section
variable (s : State)

@[simp] theorem validFrame_reservations : (validFrame s).reservations = s.reservations := by
  obtain ⟨_, _, _, counted, -⟩ := validFrame_eq s
  rw [counted]

@[simp] theorem validFrame_own : (validFrame s).own = s.own := by
  obtain ⟨_, _, _, counted, -⟩ := validFrame_eq s
  exact own_congr (by rw [counted])

end

/-! ### What is delivered -/

/-- A frame of the right length from another station counts as valid and is delivered (R86, R97). -/
theorem receiveChecked_delivers {s : State} {sender : Stn} {payload : List Byte} {length : Nat} (fits : payload.length = length)
    (other : sender ≠ s.own) (delivery : State → State) :
    receiveChecked length sender payload delivery s = delivery (validFrame s) := by
  simp [receiveChecked, fits, other]

section
variable {s : State} (h : s.isLoaded = true) {sender : Stn} (other : sender ≠ s.own) {payload : List Byte}
include h other

theorem exec_reserveReceived (fits : payload.length = 3) : exec (.reserveReceived sender payload) s =
    .next (takeReserve (reserveOf sender payload) (validFrame s)) :=
  congrArg Host.Outcome.next ((whenLoaded_of s _ h).trans (receiveChecked_delivers fits other _))

theorem exec_releaseReceived (fits : payload.length = 1) : exec (.releaseReceived sender payload) s =
    .next (takeRelease sender (releaseTypeOf payload) (validFrame s)) :=
  congrArg Host.Outcome.next ((whenLoaded_of s _ h).trans (receiveChecked_delivers fits other _))

theorem exec_statusReceived (fits : payload.length = 8) : exec (.statusReceived sender payload) s =
    .next (takeStatus sender payload (validFrame s)) :=
  congrArg Host.Outcome.next ((whenLoaded_of s _ h).trans (receiveChecked_delivers fits other _))

end

/-- A RESERVE taken over a valid frame writes the Reservation List alone (R105). -/
theorem takeReserve_validFrame (r : Reservation) (s : State) : takeReserve r (validFrame s) =
    { validFrame s with
      reservations := (s.reservations.filter fun q => !(q.station = r.station && q.ty = r.ty)) ++ [r] } := by
  rw [takeReserve, validFrame_reservations]
  rfl

/-- A RELEASE taken over a valid frame writes the Reservation List alone (R106). -/
theorem takeRelease_validFrame (sender : Stn) (ty : ResType) (s : State) : takeRelease sender ty (validFrame s) =
    { validFrame s with reservations := s.reservations.filter fun q => !(q.station = sender && q.ty = ty) } := by
  rw [takeRelease, validFrame_reservations]
  rfl

end Sys2Proof.Machine

namespace Sys2Proof
open Machine

/-- Settles O43: the bytes spell the claim, the type and the draws, and the delivery over a valid frame is at the Peer Unit alone. -/
theorem peerFramesAreTaken : Obligations.PeerFramesAreTaken := by
  intro s sender r b0 b1 b2 b3 b4 b5 b6 b7 loaded other station ty cls chan amount hold
  have claim : r = reserveOf sender [b0, b1, b2] :=
    (eq_reserveOf_iff ..).mpr ⟨station, ty, cls, chan, amount, hold⟩
  refine ⟨_, exec_kind7FrameReceived loaded sender, ?reserve, ?release, ?status⟩
  case reserve => rw [exec_reserveReceived loaded other rfl, ← claim, takeReserve_validFrame, station]
  case release => rw [exec_releaseReceived loaded other rfl, releaseTypeOf_cons, ← ty, takeRelease_validFrame]
  case status => rw [exec_statusReceived loaded other rfl, takeStatus, statusDrawsOf_eq]

end Sys2Proof

/-! The FAULT pin (R160) through every step. What its condition reads (the new flags of the fault records, OVERLOAD, the clash flag)
and the pin itself stand through most of what the part does. Where one of them moves (a trip, the sharing of an excess, a clash, a
CLEAR, load end) the pin is taken from its condition right after. -/

namespace Sys2Proof.Machine

/-- A FAULT pin that shows its condition before an event shows it after the event (R160). -/
def State.KeepsFaultPin (s t : State) : Prop := s.FaultPinTrue → t.FaultPinTrue

/-! ### What the pin and its condition read -/

/-- The pin taken from its condition shows it, whatever it showed before (R160). -/
theorem refreshFault_faultPinTrue (s : State) : s.refreshFault.FaultPinTrue := rfl

section
variable {s t : State}

/-- The condition reads the new flags, OVERLOAD and the clash flag alone (R160). -/
theorem faultCondition_congr (new : ∀ c, (t.ch c).fault.isNew = (s.ch c).fault.isNew)
    (overload : t.budget.overload = s.budget.overload) (clash : t.diag.clashFlag = s.diag.clashFlag) :
    t.faultCondition = s.faultCondition := by
  simp only [State.faultCondition, State.anyNewFault, new, overload, clash]

/-- An event that leaves the pin and all that its condition reads alone. -/
theorem State.KeepsFaultPin.of_same (pin : t.diag.faultAsserted = s.diag.faultAsserted)
    (clash : t.diag.clashFlag = s.diag.clashFlag) (overload : t.budget.overload = s.budget.overload)
    (new : ∀ c, (t.ch c).fault.isNew = (s.ch c).fault.isNew) : s.KeepsFaultPin t := fun h => by
  rw [State.FaultPinTrue, faultCondition_congr new overload clash, pin]
  exact h

/-- An event that touches no channel. -/
theorem State.KeepsFaultPin.still (pin : t.diag.faultAsserted = s.diag.faultAsserted)
    (clash : t.diag.clashFlag = s.diag.clashFlag) (overload : t.budget.overload = s.budget.overload)
    (channels : t.channels = s.channels) : s.KeepsFaultPin t :=
  .of_same pin clash overload fun c => by rw [ch_congr channels]

/-- An event that ends by taking the pin from its condition (R160). -/
theorem State.KeepsFaultPin.refreshed (s t : State) : s.KeepsFaultPin t.refreshFault := fun _ => refreshFault_faultPinTrue t

theorem State.KeepsFaultPin.refl (s : State) : s.KeepsFaultPin s := id

theorem State.KeepsFaultPin.trans {u : State} (h : s.KeepsFaultPin t) (g : t.KeepsFaultPin u) : s.KeepsFaultPin u := g ∘ h

/-- An event of the channels that leaves the Responder and OVERLOAD alone keeps the pin where it leaves the new flags. -/
theorem State.KeptByParts.keepsFaultPin (kept : s.KeptByParts t) (new : ∀ c, (t.ch c).fault.isNew = (s.ch c).fault.isNew) :
    s.KeepsFaultPin t :=
  .of_same (by rw [kept.diag]) (by rw [kept.diag]) (by rw [kept.budget]) new

theorem ite_keepsFaultPin {p : Prop} [Decidable p] (h : s.KeepsFaultPin t) : s.KeepsFaultPin (if p then t else s) := by
  split
  · exact h
  · exact .refl s

theorem foldl_keepsFaultPin {α : Type} {f : State → α → State} (h : ∀ (s : State) a, s.KeepsFaultPin (f s a)) (l : List α)
    (s : State) : s.KeepsFaultPin (l.foldl f s) := fun hs =>
  List.foldlRecOn l (motive := State.FaultPinTrue) f hs fun t ht a _ => h t a ht

theorem forChans_keepsFaultPin {f : Chan → State → State} (h : ∀ c (s : State), s.KeepsFaultPin (f c s)) (s : State) :
    s.KeepsFaultPin (forChans f s) :=
  foldl_keepsFaultPin (fun s c => h c s) allChans s

end

/-! ### Writes to one block -/

section
variable (c : Chan) (s : State)

theorem setCauses_keepsFaultPin (x : CutCauses) : s.KeepsFaultPin (s.setCauses x) := .still rfl rfl rfl rfl

theorem atStep_keepsFaultPin (step : Nat) : s.KeepsFaultPin (s.atStep step) := .still rfl rfl rfl rfl

theorem setTimer_keepsFaultPin (x : EpochTimer) : s.KeepsFaultPin (s.setTimer x) := .still rfl rfl rfl rfl

theorem setSense_keepsFaultPin (x : SenseUnit) : s.KeepsFaultPin (s.setSense x) := .still rfl rfl rfl rfl

theorem setSignal_keepsFaultPin (x : SignalUnit) : s.KeepsFaultPin (s.setSignal x) := .still rfl rfl rfl rfl

theorem setLink_keepsFaultPin (x : LinkController) : s.KeepsFaultPin (s.setLink x) := .still rfl rfl rfl rfl

theorem setPins_keepsFaultPin (x : Pins) : s.KeepsFaultPin (s.setPins x) := .still rfl rfl rfl rfl

theorem mapPeers_keepsFaultPin (f : PeerEntry → PeerEntry) : s.KeepsFaultPin (s.mapPeers f) :=
  .still (by rw [State.mapPeers_diag]) (by rw [State.mapPeers_diag]) (by rw [State.mapPeers_budget]) (State.mapPeers_channels ..)

theorem updCh_keepsFaultPin {f : Channel → Channel} (h : (f (s.ch c)).fault.isNew = (s.ch c).fault.isNew) :
    s.KeepsFaultPin (s.updCh c f) :=
  .of_same rfl rfl rfl fun d => by
    rw [State.updCh_ch]
    split
    next e => rw [h, e]
    next => rfl

theorem mapCh_keepsFaultPin {f : Chan → Channel → Channel} (h : ∀ c x, (f c x).fault.isNew = x.fault.isNew) :
    s.KeepsFaultPin (s.mapCh f) :=
  .of_same (by rw [State.mapCh_diag]) (by rw [State.mapCh_diag]) (by rw [State.mapCh_budget]) fun d => by
    rw [State.mapCh_ch, h]

end

/-! ### The Channel Controller: no change of state, order or demand writes a fault record -/

section
variable (x : Channel) (k : ChannelConfig) (level : Nat)

theorem Channel.enter_fault (st : ChState) (r : ShedReason) (window : Nat) : (x.enter st r window).fault = x.fault := rfl

theorem Channel.wanted_fault : (x.wanted k).fault = x.fault := by
  unfold Channel.wanted
  split <;> rfl

/-- A fall of demand resets the attempt count, and the new flag stands (R55). -/
theorem Channel.delivered_isNew : (x.delivered k level).fault.isNew = x.fault.isNew := by
  unfold Channel.delivered
  extract_lets falls y z
  have kept : z.fault.isNew = x.fault.isNew := by
    unfold z
    split <;> rfl
  split
  · split
    · rw [Channel.wanted_fault, kept]
    · exact kept
  · exact kept
  · split
    · exact kept
    · exact kept

theorem Channel.resolvedTo_isNew : (x.resolvedTo k level).fault.isNew = x.fault.isNew := by
  unfold Channel.resolvedTo
  split
  · rfl
  · exact x.delivered_isNew k level

end

section
variable (c : Chan) (s : State)

theorem enter_keepsFaultPin (st : ChState) (r : ShedReason) : s.KeepsFaultPin (enter c st r s) :=
  (enter_kept c s st r).keepsFaultPin fun d => by
    rw [enter_ch]
    split
    next e => rw [Channel.enter_fault, e]
    next => rfl

theorem switchOn_keepsFaultPin : s.KeepsFaultPin (switchOn c s) := by
  unfold switchOn
  split
  · exact enter_keepsFaultPin c s _ _
  · exact enter_keepsFaultPin c s _ _

theorem resolve_keepsFaultPin (test : Chan → Bool) : s.KeepsFaultPin (resolve test s) :=
  (resolve_kept s test).keepsFaultPin fun d => by
    rw [resolve_ch]
    split
    · exact Channel.resolvedTo_isNew ..
    · rfl

theorem grant_keepsFaultPin : s.KeepsFaultPin (grant c s) := ite_keepsFaultPin (enter_keepsFaultPin c s _ _)

theorem retake_keepsFaultPin : s.KeepsFaultPin (retake c s) :=
  (enter_keepsFaultPin c s _ _).trans (ite_keepsFaultPin (switchOn_keepsFaultPin c _))

theorem shed_keepsFaultPin (r : ShedReason) : s.KeepsFaultPin (shed c r s) := ite_keepsFaultPin (enter_keepsFaultPin c s _ _)

theorem setCap_keepsFaultPin (n : Nat) : s.KeepsFaultPin (setCap c n s) := updCh_keepsFaultPin c s rfl

theorem throttle_keepsFaultPin (n : Nat) : s.KeepsFaultPin (throttle c n s) := by
  refine ite_keepsFaultPin ?_
  split
  · exact setCap_keepsFaultPin c s n
  · exact enter_keepsFaultPin c s _ _

theorem capRaise_keepsFaultPin (n : Nat) : s.KeepsFaultPin (capRaise c n s) := ite_keepsFaultPin (setCap_keepsFaultPin c s _)

theorem restore_keepsFaultPin : s.KeepsFaultPin (restore c s) := ite_keepsFaultPin (switchOn_keepsFaultPin c s)

/-- A change of the cut causes (R19, R20). -/
theorem changeCauses_keepsFaultPin (causes : CutCauses) : s.KeepsFaultPin (changeCauses causes s) := by
  have noted := setCauses_keepsFaultPin s causes
  simp only [changeCauses]
  split_ifs
  · exact noted.trans (forChans_keepsFaultPin (fun c s => enter_keepsFaultPin c s _ _) _)
  · exact noted.trans (forChans_keepsFaultPin (fun c s => ite_keepsFaultPin (retake_keepsFaultPin c s)) _)
  · exact noted

end

/-! ### The Sense Unit: a trip alone writes a record, and the pin follows it -/

section
variable (c : Chan) (s : State)

theorem trip_keepsFaultPin (kind : FaultKind) (current step : Nat) : s.KeepsFaultPin (trip c kind current step s) :=
  ite_keepsFaultPin (.refreshed s _)

theorem cutOff_keepsFaultPin : s.KeepsFaultPin (cutOff c s) := updCh_keepsFaultPin c s rfl

theorem overcurrent_keepsFaultPin (sample step : Nat) : s.KeepsFaultPin (overcurrent c sample step s) := by
  unfold overcurrent
  split_ifs
  · exact updCh_keepsFaultPin c s rfl
  · exact trip_keepsFaultPin c s _ _ _
  · exact updCh_keepsFaultPin c s rfl
  · exact .refl s

theorem Channel.sampled_fault (x : Channel) (sample threshold : Nat) : (x.sampled sample threshold).fault = x.fault := by
  obtain ⟨-, -, -, -, -, -, -, fault, -⟩ := sampled_measured x sample threshold
  exact fault

theorem takeSample_keepsFaultPin (current : Nat) : s.KeepsFaultPin (takeSample c current s) :=
  ite_keepsFaultPin (((atStep_keepsFaultPin s _).trans
    (updCh_keepsFaultPin c _ (by rw [Channel.sampled_fault]))).trans (overcurrent_keepsFaultPin c _ _ _))

/-- The comparator and the over-temperature report at an output that is on (R49, R50). -/
theorem switchedOff_keepsFaultPin (kind : FaultKind) (current step : Nat) :
    s.KeepsFaultPin (switchedOff c kind current step s) := by
  unfold switchedOff
  split
  · exact (atStep_keepsFaultPin s step).trans (trip_keepsFaultPin c _ _ _ _)
  · exact (atStep_keepsFaultPin s step).trans (cutOff_keepsFaultPin c _)

theorem comparatorFires_keepsFaultPin (step current : Nat) : s.KeepsFaultPin (comparatorFires c step current s) :=
  ite_keepsFaultPin (switchedOff_keepsFaultPin c s .short 640 step)

theorem thermalReport_keepsFaultPin (step : Nat) : s.KeepsFaultPin (thermalReport c step s) :=
  ite_keepsFaultPin (switchedOff_keepsFaultPin c s .thermal _ step)

theorem windowEnd_keepsFaultPin : s.KeepsFaultPin (windowEnd c s) := by
  refine ite_keepsFaultPin ?_
  split
  · split
    · exact trip_keepsFaultPin c s _ _ _
    · exact enter_keepsFaultPin c s _ _
  · exact enter_keepsFaultPin c s _ _

theorem retryDue_keepsFaultPin : s.KeepsFaultPin (retryDue c s) :=
  ite_keepsFaultPin ((updCh_keepsFaultPin c s rfl).trans (ite_keepsFaultPin (switchOn_keepsFaultPin c _)))

theorem attemptReset_keepsFaultPin : s.KeepsFaultPin (attemptReset c s) := ite_keepsFaultPin (updCh_keepsFaultPin c s rfl)

theorem addPending_keepsFaultPin : s.KeepsFaultPin (addPending s) := by
  simp only [addPending]
  refine (mapCh_keepsFaultPin s ?_).trans (setSense_keepsFaultPin _ _)
  exact fun _ _ => rfl

theorem dropPending_keepsFaultPin : s.KeepsFaultPin (dropPending s) := by
  simp only [dropPending]
  refine (mapCh_keepsFaultPin s ?_).trans (setSense_keepsFaultPin _ _)
  exact fun _ _ => rfl

theorem closeMeasurement_keepsFaultPin (n : Nat) : s.KeepsFaultPin (closeMeasurement n s) := by
  simp only [closeMeasurement]
  refine (mapCh_keepsFaultPin s ?_).trans (setSense_keepsFaultPin _ _)
  exact fun _ _ => rfl

theorem testSupply_keepsFaultPin (n : Nat) : s.KeepsFaultPin (testSupply n s) := by
  simp only [testSupply]
  exact (setSense_keepsFaultPin s _).trans (ite_keepsFaultPin (changeCauses_keepsFaultPin _ _))

theorem takeSupply_keepsFaultPin (voltage : Nat) : s.KeepsFaultPin (takeSupply voltage s) := by
  have sampled (x : SenseUnit) : s.KeepsFaultPin ((s.atStep 128).setSense x) :=
    (atStep_keepsFaultPin s 128).trans (setSense_keepsFaultPin _ x)
  simp only [takeSupply]
  split_ifs
  · exact sampled _
  · exact (sampled _).trans (setSense_keepsFaultPin _ _)
  · exact ((sampled _).trans (setSense_keepsFaultPin _ _)).trans (changeCauses_keepsFaultPin _ _)
  · exact (sampled _).trans (setSense_keepsFaultPin _ _)
  · exact .refl s

end

/-! ### The Budget Unit and the Turn-On Scheduler: OVERLOAD moves at the sharing of the excess alone, and the pin follows it -/

section
variable (s : State)

theorem orders_keep_faultPin : OrdersKeep State.KeepsFaultPin where
  refl := .refl
  trans := .trans
  shed c r s _ := shed_keepsFaultPin c s r
  throttle c n s _ := throttle_keepsFaultPin c s n
  capRaise c n s := capRaise_keepsFaultPin c s n
  restore c s := restore_keepsFaultPin c s

/-- The evaluation, whatever comes between its orders (R117, R127). -/
theorem evaluateAmid_keepsFaultPin {between : List (State → State)}
    (h : ∀ event ∈ between, ∀ s : State, s.KeepsFaultPin (event s)) : s.KeepsFaultPin (evaluateAmid between s) :=
  evaluateAmid_keeps orders_keep_faultPin (fun _ => .still rfl rfl rfl rfl) (fun s => .refreshed s _)
    (fun _ _ => .still rfl rfl rfl rfl) (fun _ _ => .still rfl rfl rfl rfl) h s

theorem evaluateBudget_keepsFaultPin : s.KeepsFaultPin (evaluateBudget s) := evaluateAmid_keepsFaultPin s (by simp)

theorem releaseClaim_keepsFaultPin (x : Claim) : s.KeepsFaultPin (releaseClaim x s) :=
  ite_keepsFaultPin (.still rfl rfl rfl rfl)

theorem admission_keeps_faultPin : AdmissionKeeps State.KeepsFaultPin where
  refl := .refl
  trans := .trans
  hold _ _ := .still rfl rfl rfl rfl
  grant c s := grant_keepsFaultPin c s
  refuse x s := (releaseClaim_keepsFaultPin s x).trans (.still rfl rfl rfl rfl)

theorem select_keepsFaultPin : s.KeepsFaultPin (select s) := by
  have rotated : s.KeepsFaultPin (if s.rotates then s.setRotation 0 else s) := ite_keepsFaultPin (.still rfl rfl rfl rfl)
  have claimed (u : State) (x : Claim) : u.KeepsFaultPin (u.setClaim (some x)) := .still rfl rfl rfl rfl
  have sent (u : State) (f : Frame) : u.KeepsFaultPin (u.handOver f) := setLink_keepsFaultPin u _
  refine ite_keepsFaultPin ?_
  split
  · exact (rotated.trans (claimed _ _)).trans (ite_keepsFaultPin (sent _ _))
  · exact .refl s

theorem budgetEvaluatedAmid_keepsFaultPin {between : List (State → State)}
    (h : ∀ event ∈ between, ∀ s : State, s.KeepsFaultPin (event s)) : s.KeepsFaultPin (budgetEvaluatedAmid between s) :=
  (decideAdmissionAmid_keeps admission_keeps_faultPin h s).trans (select_keepsFaultPin _)

theorem budgetEvaluated_keepsFaultPin : s.KeepsFaultPin (budgetEvaluated s) := budgetEvaluatedAmid_keepsFaultPin s (by simp)

end

/-! ### The Signal Unit and the Epoch Timer -/

section
variable (s : State)

theorem publish_keepsFaultPin : s.KeepsFaultPin (publish s) := (publish_kept s).keepsFaultPin fun c => by rw [publish_ch]

theorem periodicPublication_keepsFaultPin : s.KeepsFaultPin (periodicPublication s) :=
  ite_keepsFaultPin (publish_keepsFaultPin s)

theorem countPublication_keepsFaultPin : s.KeepsFaultPin (countPublication s) :=
  ite_keepsFaultPin (.still rfl rfl rfl rfl)

theorem readInputs_keepsFaultPin (din : DinLevels) : s.KeepsFaultPin (readInputs din s) := by
  simp only [readInputs]
  split
  · exact .refl s
  · exact ((setSignal_keepsFaultPin s _).trans (resolve_keepsFaultPin _ _)).trans (publish_keepsFaultPin _)

theorem resolveAll_keepsFaultPin : s.KeepsFaultPin (resolveAll s) := resolve_keepsFaultPin s _

theorem takeSignalFrame_keepsFaultPin (sender : Stn) (payload : List Byte) :
    s.KeepsFaultPin (takeSignalFrame sender payload s) := by
  simp only [takeSignalFrame]
  exact ite_keepsFaultPin ((setSignal_keepsFaultPin s _).trans (resolve_keepsFaultPin _ _))

theorem expireEntry_keepsFaultPin (source : Stn) (signal : Fin 64) : s.KeepsFaultPin (expireEntry source signal s) := by
  simp only [expireEntry]
  exact ite_keepsFaultPin ((setSignal_keepsFaultPin s _).trans (resolve_keepsFaultPin _ _))

theorem loadDuties_keepsFaultPin : s.KeepsFaultPin (loadDuties s) := mapCh_keepsFaultPin s fun _ _ => rfl

theorem peerPresence_keepsFaultPin : s.KeepsFaultPin (peerPresence s) := mapPeers_keepsFaultPin s _

theorem isolationDue_keepsFaultPin : s.KeepsFaultPin (isolationDue s) :=
  ite_keepsFaultPin (.still rfl rfl rfl rfl)

/-- One part of an epoch start (R32). -/
theorem runTask_keepsFaultPin (n : Nat) (din : DinLevels) (t : EpochTask) : s.KeepsFaultPin (runTask n din t s) := by
  cases t with
  | loadDuties => exact loadDuties_keepsFaultPin s
  | readInputs => exact readInputs_keepsFaultPin s din
  | closeMeasurement => exact closeMeasurement_keepsFaultPin s n
  | supplyTest => exact testSupply_keepsFaultPin s n
  | signals => exact resolveAll_keepsFaultPin s
  | budget => exact evaluateBudget_keepsFaultPin s
  | admission => exact budgetEvaluated_keepsFaultPin s
  | windowEnds => exact forChans_keepsFaultPin windowEnd_keepsFaultPin s
  | retries => exact forChans_keepsFaultPin retryDue_keepsFaultPin s
  | attemptResets => exact forChans_keepsFaultPin attemptReset_keepsFaultPin s
  | peerPresence => exact peerPresence_keepsFaultPin s
  | holdRemovals => exact .still rfl rfl rfl rfl
  | publication => exact periodicPublication_keepsFaultPin s
  | isolation => exact isolationDue_keepsFaultPin s

theorem runTasks_keepsFaultPin (n : Nat) (din : DinLevels) (tasks : List EpochTask) :
    s.KeepsFaultPin (runTasks n din tasks s) :=
  foldl_keepsFaultPin (fun s t => runTask_keepsFaultPin s n din t) tasks s

theorem epochTask_keepsFaultPin (n : Nat) (din : DinLevels) (o : EpochOrder) (t : EpochTask) :
    s.KeepsFaultPin (epochTask n din o t s) := by
  unfold epochTask
  split
  · refine evaluateAmid_keepsFaultPin s (List.forall_mem_map.mpr fun tasks _ u => ?_)
    exact runTasks_keepsFaultPin u n din tasks
  · refine budgetEvaluatedAmid_keepsFaultPin s (List.forall_mem_map.mpr fun t _ u => ?_)
    exact runTask_keepsFaultPin u n din t
  · exact runTask_keepsFaultPin s n din _

/-- The waits left to their own rows, taken before the next epoch start (log entry 5). -/
theorem settleWaits_keepsFaultPin : s.KeepsFaultPin (settleWaits s) := by
  have reset : s.KeepsFaultPin (attemptResets (retries (windowEnds s))) :=
    ((forChans_keepsFaultPin windowEnd_keepsFaultPin s).trans (forChans_keepsFaultPin retryDue_keepsFaultPin _)).trans
      (forChans_keepsFaultPin attemptReset_keepsFaultPin _)
  have removed (u : State) : u.KeepsFaultPin (removeRunOut u) := .still rfl rfl rfl rfl
  exact (((reset.trans (peerPresence_keepsFaultPin _)).trans (removed _)).trans
    (periodicPublication_keepsFaultPin _)).trans (isolationDue_keepsFaultPin _)

theorem countEpochs_keepsFaultPin (first : Bool) : s.KeepsFaultPin (countEpochs first s) := by
  have scheduled (u : State) : u.KeepsFaultPin (schedulerEpoch u) := .still rfl rfl rfl rfl
  have counted (u : State) : u.KeepsFaultPin (u.mapCh fun _ x => x.countEpoch) := mapCh_keepsFaultPin u fun _ _ => rfl
  have aged (u : State) : u.KeepsFaultPin (ageSignals (countSilence (lowerHolds u))) := .still rfl rfl rfl rfl
  refine .trans ?_ (((mapPeers_keepsFaultPin _ _).trans (aged _)).trans (countPublication_keepsFaultPin _))
  cases first with
  | false => exact (counted s).trans (scheduled _)
  | true => exact (scheduled s).trans (counted _)

/-- An epoch start (R32). -/
theorem epochStart_keepsFaultPin (n m : Nat) (inp : Inputs) (ord : EpochOrder) :
    s.KeepsFaultPin (epochStart n m inp ord s) := by
  simp only [epochStart]
  refine .trans ?_ (foldl_keepsFaultPin (fun u t => epochTask_keepsFaultPin u n inp.din ord t) _ _)
  exact (((settleWaits_keepsFaultPin s).trans (setPins_keepsFaultPin _ _)).trans (setTimer_keepsFaultPin _ _)).trans
    (countEpochs_keepsFaultPin _ _)

theorem queueMark_keepsFaultPin (m : Nat) : s.KeepsFaultPin (queueMark m s) := by
  unfold queueMark
  split
  · exact .refl s
  · exact .still rfl rfl rfl rfl

theorem ownExpiry_keepsFaultPin (inp : Inputs) (ord : EpochOrder) : s.KeepsFaultPin (ownExpiry inp ord s) :=
  (((addPending_keepsFaultPin s).trans (atStep_keepsFaultPin _ 0)).trans (queueMark_keepsFaultPin _ _)).trans
    (epochStart_keepsFaultPin _ _ _ _ _)

theorem periodCompleted_keepsFaultPin (inp : Inputs) (ord : EpochOrder) : s.KeepsFaultPin (periodCompleted inp ord s) := by
  simp only [periodCompleted]
  split
  · exact ((((addPending_keepsFaultPin s).trans (atStep_keepsFaultPin _ 0)).trans (setTimer_keepsFaultPin _ _)).trans
      (setPins_keepsFaultPin _ _)).trans (runTasks_keepsFaultPin _ _ _ _)
  · exact ownExpiry_keepsFaultPin s inp ord

theorem withdrawMark_keepsFaultPin : s.KeepsFaultPin (withdrawMark s) := by
  have withdrawn : s.KeepsFaultPin (s.withdraw .mark) := setLink_keepsFaultPin s _
  exact (ite_keepsFaultPin withdrawn).trans (setTimer_keepsFaultPin _ _)

theorem abandonPeriod_keepsFaultPin : s.KeepsFaultPin (abandonPeriod s) :=
  (dropPending_keepsFaultPin s).trans (atStep_keepsFaultPin _ 0)

theorem realignTask_keepsFaultPin (moved : Bool) (din : DinLevels) (t : EpochTask) :
    s.KeepsFaultPin (realignTask moved din t s) := by
  cases t with
  | loadDuties => exact loadDuties_keepsFaultPin s
  | readInputs => exact readInputs_keepsFaultPin s din
  | signals => exact ite_keepsFaultPin (resolve_keepsFaultPin s _)
  | _ => exact .refl s

theorem realign_keepsFaultPin (m : Nat) (inp : Inputs) (ord : EpochOrder) : s.KeepsFaultPin (realign m inp ord s) := by
  have abandoned := (withdrawMark_keepsFaultPin s).trans (abandonPeriod_keepsFaultPin _)
  simp only [realign]
  refine .trans ?_ (foldl_keepsFaultPin (fun u t => realignTask_keepsFaultPin u _ _ t) _ _)
  exact ((abandoned.trans (setTimer_keepsFaultPin _ _)).trans (setPins_keepsFaultPin _ _)).trans
    (ite_keepsFaultPin (setSignal_keepsFaultPin _ _))

/-- A MARK at the Epoch Timer (R34–R36). -/
theorem takeMark_keepsFaultPin (m : Nat) (inp : Inputs) (ord : EpochOrder) : s.KeepsFaultPin (takeMark m inp ord s) := by
  unfold takeMark
  split
  · exact ((withdrawMark_keepsFaultPin s).trans (abandonPeriod_keepsFaultPin _)).trans (epochStart_keepsFaultPin _ _ _ _ _)
  · exact ite_keepsFaultPin (realign_keepsFaultPin s m inp ord)

end

/-! ### The Link Controller -/

section
variable (s : State)

theorem announceAgain_keepsFaultPin : s.KeepsFaultPin (announceAgain s) := by
  refine ite_keepsFaultPin ?_
  split
  · exact .still rfl rfl rfl rfl
  · exact .refl s

theorem leaveMuted_keepsFaultPin : s.KeepsFaultPin (leaveMuted s) := by
  have noted (u : State) : u.KeepsFaultPin u.listenAgain.refreshInUse := .still rfl rfl rfl rfl
  simp only [leaveMuted]
  exact ((setLink_keepsFaultPin s _).trans (noted _)).trans (announceAgain_keepsFaultPin _)

theorem countGood_keepsFaultPin : s.KeepsFaultPin (countGood s) := by
  refine ite_keepsFaultPin ?_
  split
  · exact leaveMuted_keepsFaultPin s
  · exact setLink_keepsFaultPin s _

theorem validFrame_keepsFaultPin : s.KeepsFaultPin (validFrame s) := by
  have left (u : State) : u.KeepsFaultPin (leaveIsolated u) := .still rfl rfl rfl rfl
  simp only [validFrame]
  exact ((setLink_keepsFaultPin s _).trans (ite_keepsFaultPin (left _))).trans (countGood_keepsFaultPin _)

/-- A clash alone moves the clash flag (R97), and the pin follows it. -/
theorem receiveChecked_keepsFaultPin (length : Nat) (sender : Stn) (payload : List Byte) {delivery : State → State}
    (h : ∀ u : State, u.KeepsFaultPin (delivery u)) : s.KeepsFaultPin (receiveChecked length sender payload delivery s) := by
  simp only [receiveChecked]
  refine (validFrame_keepsFaultPin s).trans ?_
  split_ifs
  · exact setLink_keepsFaultPin _ _
  · exact .refreshed _ _
  · exact h _

theorem discardReception_keepsFaultPin : s.KeepsFaultPin (discardReception s) := by
  simp only [discardReception]
  split <;> exact .still rfl rfl rfl rfl

theorem offerFrame_keepsFaultPin (bits : List (Bool × Bool)) : s.KeepsFaultPin (offerFrame bits s) := by
  refine ite_keepsFaultPin ?_
  split
  · exact .refl s
  · exact .still rfl rfl rfl rfl

theorem contentionLost_keepsFaultPin (bit : Nat) : s.KeepsFaultPin (contentionLost bit s) := by
  unfold contentionLost
  split
  · exact ite_keepsFaultPin (.still rfl rfl rfl rfl)
  · exact .refl s

theorem abortFrame_keepsFaultPin (bit : Nat) : s.KeepsFaultPin (abortFrame bit s) := by
  have muted (u : State) : u.KeepsFaultPin (enterMuted u) := .still rfl rfl rfl rfl
  unfold abortFrame
  split
  · exact ite_keepsFaultPin ((setLink_keepsFaultPin s _).trans (ite_keepsFaultPin (muted _)))
  · exact .refl s

theorem reserveCompleted_keepsFaultPin (c : Chan) : s.KeepsFaultPin (reserveCompleted c s) := by
  unfold reserveCompleted
  split
  · exact .still rfl rfl rfl rfl
  · exact ite_keepsFaultPin (.still rfl rfl rfl rfl)

theorem reportCompletion_keepsFaultPin (f : Frame) : s.KeepsFaultPin (reportCompletion f s) := by
  cases f with
  | reserve ty =>
    have listed (u : State) (r : Reservation) : u.KeepsFaultPin (takeReserve r u) := .still rfl rfl rfl rfl
    simp only [reportCompletion]
    exact ((setLink_keepsFaultPin s _).trans (listed _ _)).trans (ite_keepsFaultPin (reserveCompleted_keepsFaultPin _ _))
  | _ => exact .still rfl rfl rfl rfl

theorem completeFrame_keepsFaultPin : s.KeepsFaultPin (completeFrame s) := by
  unfold completeFrame
  split
  · exact (setLink_keepsFaultPin s _).trans (reportCompletion_keepsFaultPin _ _)
  · exact .refl s

end

/-! ### The Diagnostic Responder: a CLEAR ends with the pin -/

section
variable (s : State)

theorem itemAction_keepsFaultPin (item : Item) (arg : Byte) : s.KeepsFaultPin (itemAction item arg s) := by
  cases item with
  | clear => exact .refreshed s _
  | clearAll => exact .refreshed s _
  | _ => exact .refl s

theorem sendReport_keepsFaultPin (item : Item) (arg : Byte) : s.KeepsFaultPin (sendReport item arg s) := by
  unfold sendReport
  split
  · exact .refl s
  · exact .still rfl rfl rfl rfl

theorem takeItem_keepsFaultPin (item : Item) (arg : Byte) : s.KeepsFaultPin (takeItem item arg s) := by
  unfold takeItem
  split
  · exact .still rfl rfl rfl rfl
  · exact (itemAction_keepsFaultPin s item arg).trans (sendReport_keepsFaultPin _ _ _)

/-- A QUERY at the Responder (R155). -/
theorem takeQuery_keepsFaultPin (b0 arg : Byte) : s.KeepsFaultPin (takeQuery b0 arg s) := by
  unfold takeQuery
  split
  · exact .refl s
  · split
    · exact .refl s
    · split
      · exact .refl s
      · exact takeItem_keepsFaultPin s _ _

theorem receiveQuery_keepsFaultPin (b0 arg : Byte) : s.KeepsFaultPin (receiveQuery b0 arg s) :=
  (validFrame_keepsFaultPin s).trans (takeQuery_keepsFaultPin _ b0 arg)

end

/-! ### Reset, load and ISOLATE -/

section
variable (s : State)

/-- At reset no record is new, no flag is set and the pin is not asserted (R3, R53, R116, R154). -/
theorem resetPart_faultPinTrue : (resetPart s).FaultPinTrue := by
  have reset : State.reset.FaultPinTrue := by decide
  exact reset

theorem beginLoad_keepsFaultPin (straps : Straps) : s.KeepsFaultPin (beginLoad straps s) :=
  ite_keepsFaultPin (.still rfl rfl rfl rfl)

/-- Load end takes the pin from its condition last (R169). -/
theorem finishRead_keepsFaultPin (memory : List Byte) (din : DinLevels) : s.KeepsFaultPin (finishRead memory din s) :=
  ite_keepsFaultPin (.refreshed s _)

theorem isolateChanged_keepsFaultPin (high : Bool) : s.KeepsFaultPin (isolateChanged high s) :=
  (setPins_keepsFaultPin s _).trans (ite_keepsFaultPin (changeCauses_keepsFaultPin _ _))

end

/-! ### Every step -/

theorem tick_keepsFaultPin (s : State) : s.KeepsFaultPin (tick s) := ite_keepsFaultPin (atStep_keepsFaultPin s _)

theorem whenLoaded_keepsFaultPin {f : State → State} {s : State} (h : s.KeepsFaultPin (f s)) :
    s.KeepsFaultPin (whenLoaded f s) := ite_keepsFaultPin h

/-- Every command keeps the pin true, before load end and after it. -/
theorem exec_keepsFaultPin (i : Instr) (s : State) : ∃ t, exec i s = .next t ∧ s.KeepsFaultPin t := by
  cases i with
  | reset => exact ⟨_, rfl, fun _ => resetPart_faultPinTrue s⟩
  | holdEnds straps => exact ⟨_, rfl, beginLoad_keepsFaultPin s straps⟩
  | readStops memory din => exact ⟨_, rfl, finishRead_keepsFaultPin s memory din⟩
  | isolateChange high => exact ⟨_, rfl, isolateChanged_keepsFaultPin s high⟩
  | periodCompleted inp ord => exact ⟨_, rfl, whenLoaded_keepsFaultPin (periodCompleted_keepsFaultPin s inp ord)⟩
  | ownExpiry inp ord => exact ⟨_, rfl, whenLoaded_keepsFaultPin (ite_keepsFaultPin (ownExpiry_keepsFaultPin s inp ord))⟩
  | signalExpiry source signal => exact ⟨_, rfl, whenLoaded_keepsFaultPin (expireEntry_keepsFaultPin s source signal)⟩
  | inrushWindowEnd c => exact ⟨_, rfl, whenLoaded_keepsFaultPin (windowEnd_keepsFaultPin c s)⟩
  | retryDue c => exact ⟨_, rfl, whenLoaded_keepsFaultPin (retryDue_keepsFaultPin c s)⟩
  | attemptReset c => exact ⟨_, rfl, whenLoaded_keepsFaultPin (attemptReset_keepsFaultPin c s)⟩
  | periodicPublication => exact ⟨_, rfl, whenLoaded_keepsFaultPin (periodicPublication_keepsFaultPin s)⟩
  | isolatedEntry => exact ⟨_, rfl, whenLoaded_keepsFaultPin (isolationDue_keepsFaultPin s)⟩
  | currentSample c current => exact ⟨_, rfl, whenLoaded_keepsFaultPin (takeSample_keepsFaultPin c s current)⟩
  | supplySample voltage => exact ⟨_, rfl, whenLoaded_keepsFaultPin (takeSupply_keepsFaultPin s voltage)⟩
  | short c step current => exact ⟨_, rfl, whenLoaded_keepsFaultPin (comparatorFires_keepsFaultPin c s step current)⟩
  | thermal c step => exact ⟨_, rfl, whenLoaded_keepsFaultPin (thermalReport_keepsFaultPin c s step)⟩
  | lineIdle bits => exact ⟨_, rfl, whenLoaded_keepsFaultPin (offerFrame_keepsFaultPin s bits)⟩
  | contentionLost bit => exact ⟨_, rfl, whenLoaded_keepsFaultPin (contentionLost_keepsFaultPin s bit)⟩
  | abort bit => exact ⟨_, rfl, whenLoaded_keepsFaultPin (abortFrame_keepsFaultPin s bit)⟩
  | transmitCompletion => exact ⟨_, rfl, whenLoaded_keepsFaultPin (completeFrame_keepsFaultPin s)⟩
  | discardedReception =>
    exact ⟨_, rfl, whenLoaded_keepsFaultPin (ite_keepsFaultPin (discardReception_keepsFaultPin s))⟩
  | markReceived sender payload inp ord =>
    exact ⟨_, rfl, whenLoaded_keepsFaultPin (receiveChecked_keepsFaultPin s _ _ _ fun u => takeMark_keepsFaultPin u _ inp ord)⟩
  | reserveReceived | releaseReceived | statusReceived =>
    exact ⟨_, rfl, whenLoaded_keepsFaultPin (receiveChecked_keepsFaultPin s _ _ _ fun _ => .still rfl rfl rfl rfl)⟩
  | signalReceived sender payload =>
    exact ⟨_, rfl, whenLoaded_keepsFaultPin
      ((validFrame_keepsFaultPin s).trans (takeSignalFrame_keepsFaultPin _ sender payload))⟩
  | reportFrameReceived | kind7FrameReceived => exact ⟨_, rfl, whenLoaded_keepsFaultPin (validFrame_keepsFaultPin s)⟩
  | payloadLengthDiscard =>
    exact ⟨_, rfl, whenLoaded_keepsFaultPin
      (ite_keepsFaultPin ((validFrame_keepsFaultPin s).trans (.still rfl rfl rfl rfl)))⟩
  | summary | channel | peer | link | clear | clearAll | record | queryIgnored =>
    exact ⟨_, rfl, whenLoaded_keepsFaultPin (receiveQuery_keepsFaultPin s _ _)⟩
  | peerStale | peerAbsent | holdRunsOut => exact ⟨_, rfl, whenLoaded_keepsFaultPin (.still rfl rfl rfl rfl)⟩

end Sys2Proof.Machine

namespace Sys2Proof
open Machine

/-- Settles O52: the part moves what the pin reads only where it takes the pin from its condition next. -/
theorem stepsKeepTheFaultPinTrue : Obligations.StepsKeepTheFaultPinTrue := by
  intro s t pin stepped
  unfold step at stepped
  split at stepped
  next =>
    cases stepped
    exact tick_keepsFaultPin s pin
  next i rest _ =>
    obtain ⟨u, taken, kept⟩ := exec_keepsFaultPin i { s with pending := rest }
    cases taken.symm.trans stepped
    exact kept pin

end Sys2Proof


/-! The rules of one channel through every step (R2–R7, R13, R54): each move of Laws/Moves.lean keeps them, and so does whatever
brings the channels by moves. RESET and load end come to channels at their reset values. -/

namespace Sys2Proof.Machine

/-! ### Every step, as far as the channels go -/

/-- At reset every channel is OFF, without demand (R3). -/
theorem reset_ch (c : Chan) : State.reset.ch c = Channel.reset := by
  simp [State.ch, State.reset]

theorem resetPart_ch (s : State) (c : Chan) : (resetPart s).ch c = Channel.reset := by
  rw [← reset_ch c]
  rfl

/-- The image handed out touches no channel (R169). -/
theorem handOut_ch (buffer : List Byte) (s : State) (c : Chan) : (handOut buffer s).ch c = s.ch c := by
  simp [handOut]

/-- Before load end every channel stands at its reset values. -/
theorem State.HeldAtReset.ch {s : State} (held : s.HeldAtReset) (h : s.isLoaded = false) (c : Chan) :
    s.ch c = Channel.reset := by
  rw [← reset_ch c]
  exact ch_congr (congrArg State.channels (held h)) c

/-- The read stops in the READING phase alone, before load end (R161). -/
theorem not_isLoaded_of_reading {s : State} (h : s.loader.phase = .reading) : s.isLoaded = false := by
  simp [State.isLoaded, h]

/-- What a step comes to: one modulation step, RESET, the end of the load, or moves of the channels. -/
theorem step_cases {s t : State} (h : step s = .next t) :
    (s.pending = [] ∧ t = tick s) ∨
    ∃ i rest, s.pending = i :: rest ∧ exec i { s with pending := rest } = .next t := by
  unfold step at h
  split at h
  next none => exact .inl ⟨none, (Host.Outcome.next.inj h).symm⟩
  next i rest some => exact .inr ⟨i, rest, some, h⟩

/-- A rule that every move keeps, and that reset values meet under every configuration, every step keeps. Load end puts a new
configuration in force, so it asks for the channels to stand at their reset values until then, unless the rule does not read the
configuration. -/
theorem step_keeps_channels {P : ChannelConfig → Channel → Prop} (moves : ∀ k x y, P k x → Move k x y → P k y)
    (reset : ∀ k, P k Channel.reset) {s t : State}
    (load : s.isLoaded = false → ∀ k c, P (s.cfg c) (s.ch c) → P k (s.ch c))
    (hs : ∀ c, P (s.cfg c) (s.ch c)) (h : step s = .next t) (c : Chan) : P (t.cfg c) (t.ch c) := by
  rcases step_cases h with ⟨-, rfl⟩ | ⟨i, rest, -, taken⟩
  · refine Evolves.keeps (s := s) ?_ moves hs c
    unfold tick
    split
    · exact .still rfl fun _ => rfl
    · exact .refl s
  · by_cases hr : i = .reset
    · subst hr
      cases taken
      rw [resetPart_ch]
      exact reset _
    by_cases hl : ∃ memory din, i = .readStops memory din
    · obtain ⟨memory, din, rfl⟩ := hl
      cases taken
      unfold finishRead
      split
      next reading =>
        refine Evolves.keeps (loadEnd_evolves _ _ _) moves (fun d => ?_) c
        rw [handOut_ch]
        exact load (not_isLoaded_of_reading reading) _ d (hs d)
      next => exact hs c
    · exact Evolves.keeps (exec_evolves _ i t taken hr fun memory din e => hl ⟨memory, din, e⟩) moves hs c

/-! ### Effective duty, cap, shed reason and inrush remaining (R3–R5) -/

/-- Entering a state sets everything the rules speak of. -/
theorem Channel.enter_ruled (x : Channel) {st : ChState} {r : ShedReason} (h : r = .none ↔ st ≠ .shed) (window : Nat) :
    (x.enter st r window).Ruled := by
  refine ⟨rfl, rfl, fun _ => rfl, le_refl 255, h, fun g => ?_⟩
  exact if_neg g

theorem Channel.wanted_ruled (x : Channel) (k : ChannelConfig) : (x.wanted k).Ruled := by
  unfold Channel.wanted
  split <;> exact x.enter_ruled (by simp) _

theorem Channel.retaken_ruled (x : Channel) (k : ChannelConfig) : (x.retaken k).Ruled := by
  unfold Channel.retaken
  split
  · exact Channel.wanted_ruled _ k
  · exact x.enter_ruled (by simp) _

/-- A duty computed again over a channel that keeps the other rules. -/
theorem Channel.Ruled.recompute {x y : Channel} (h : x.Ruled) (state : y.state = x.state) (cap : y.cap = x.cap)
    (reason : y.shedReason = x.shedReason) (window : y.inrushRemaining = x.inrushRemaining) : y.recompute.Ruled := by
  obtain ⟨-, -, full, bound, shed, idle⟩ := h
  rw [← state] at full shed idle
  rw [← cap] at full bound
  rw [← reason] at shed
  rw [← window] at idle
  exact ⟨rfl, rfl, full, bound, shed, idle⟩

theorem Channel.Ruled.delivered {x : Channel} (h : x.Ruled) (k : ChannelConfig) (level : Nat) : (x.delivered k level).Ruled := by
  unfold Channel.delivered
  extract_lets falls y z
  have again : z.recompute.Ruled := h.recompute (by unfold z; split <;> rfl) (by unfold z; split <;> rfl)
    (by unfold z; split <;> rfl) (by unfold z; split <;> rfl)
  split
  · split
    · exact z.wanted_ruled k
    · exact again
  · exact again
  · split
    · exact z.enter_ruled (by simp) _
    · exact again

theorem Channel.Ruled.measured {x y : Channel} (h : x.Ruled) (m : x.measuredAs y) : y.Ruled := by
  obtain ⟨state, -, duty, cap, effective, reason, shadow, -, -, window, -⟩ := m
  obtain ⟨computed, handed, full, bound, shed, idle⟩ := h
  rw [Channel.Ruled, state, duty, cap, effective, reason, shadow]
  exact ⟨computed, handed, full, bound, shed, fun g => window.elim (fun e => e.trans (idle g)) fun e => absurd e g⟩

/-- The rules through each move. -/
theorem Channel.Ruled.move {k : ChannelConfig} {x y : Channel} (h : x.Ruled) (m : Move k x y) : y.Ruled := by
  cases m with
  | measured m => exact h.measured m
  | demand level => exact h.delivered k level
  | granted | cut | passed => exact x.enter_ruled (by simp) _
  | retried =>
    split
    · exact Channel.wanted_ruled _ k
    · exact h
  | freed => exact x.retaken_ruled k
  | shed r _ _ named => exact x.enter_ruled (by simp [named]) _
  | capped n on _ bound =>
    obtain ⟨computed, -, -, held, shed, idle⟩ := h
    have : n ≤ 255 := by
      rcases bound with bound | bound
      · exact bound
      · rw [computed, on] at bound
        exact bound.trans ((Nat.min_le_right _ _).trans held)
    exact ⟨rfl, rfl, fun off => absurd on off, this, shed, idle⟩
  | restored => exact x.wanted_ruled k
  | tripped =>
    rw [Channel.trips_eq]
    refine Channel.enter_ruled _ ?_ _
    unfold Channel.tripState
    split <;> simp
  | attempts | cleared => exact h

/-! ### Retry timers, disabled channels and demand (R2, R6, R7, R13, R54) -/

/-- The rules of one channel under its record that `RetriesRuled`, `DisabledIdle` and `DemandRuled` say of all. -/
structure Channel.DemandSound (k : ChannelConfig) (x : Channel) : Prop where
  timer : x.retryTimer.isSome = true → x.state = .tripped
  latched : x.state = .latched → k.limitAction = .latch
  disabled : k.enabled = false → (x.state = .off ∨ x.state = .cut) ∧ x.demandLevel = 0 ∧ x.demandDuty = 0 ∧
    x.effectiveDuty = 0 ∧ x.shadowDuty = 0 ∧ x.activeDuty = 0
  idle : x.state = .off → k.enabled = true → demandOn k.mode x.demandLevel = false
  wants : x.state ≠ .off → x.state ≠ .cut → demandOn k.mode x.demandLevel = true
  duty : x.demandDuty = demandDutyOf k.mode x.demandLevel

theorem demandOn_zero (m : Mode) : demandOn m 0 = false := by cases m <;> rfl

theorem demandDutyOf_zero (m : Mode) : demandDutyOf m 0 = 0 := by cases m <;> rfl

theorem demandSound_reset (k : ChannelConfig) : Channel.DemandSound k Channel.reset where
  timer h := nomatch h
  latched h := nomatch h
  disabled _ := ⟨.inl rfl, rfl, rfl, rfl, rfl, rfl⟩
  idle _ _ := demandOn_zero _
  wants h := absurd rfl h
  duty := (demandDutyOf_zero _).symm

section
variable {k : ChannelConfig} {x y : Channel}

/-- A channel that is neither OFF nor CUT is enabled (R2). -/
theorem Channel.DemandSound.enabled (h : x.DemandSound k) (off : x.state ≠ .off) (cut : x.state ≠ .cut) : k.enabled = true := by
  by_contra disabled
  exact (h.disabled (by simpa using disabled)).1.elim off cut

/-- An enabled channel that enters a state in which the demand it holds may stand, its timer stopped unless it trips. -/
theorem Channel.demandSound_enter (hk : k.enabled = true) (duty : x.demandDuty = demandDutyOf k.mode x.demandLevel)
    {st : ChState} {r : ShedReason} {window : Nat} (idle : st = .off → demandOn k.mode x.demandLevel = false)
    (wants : st ≠ .off → st ≠ .cut → demandOn k.mode x.demandLevel = true)
    (latched : st = .latched → k.limitAction = .latch)
    (timer : (x.enter st r window).retryTimer.isSome = true → st = .tripped) : (x.enter st r window).DemandSound k where
  timer := timer
  latched := latched
  disabled h := absurd (hk.symm.trans h) (by simp)
  idle g _ := idle g
  wants := wants
  duty := duty

/-- The timer of a channel that enters another state stands, but for one that leaves TRIPPED for OFF or is cut (R54). -/
theorem Channel.enter_retryTimer (x : Channel) (st : ChState) (r : ShedReason) (window : Nat) :
    (x.enter st r window).retryTimer =
      if st = .cut || (x.state = .tripped && st = .off) then none else x.retryTimer := rfl

/-- An enabled channel with its timer stopped that is switched on. -/
theorem Channel.demandSound_wanted (hk : k.enabled = true) (duty : x.demandDuty = demandDutyOf k.mode x.demandLevel)
    (on : demandOn k.mode x.demandLevel = true) (timer : x.retryTimer = none) : (x.wanted k).DemandSound k := by
  unfold Channel.wanted
  split <;>
    refine Channel.demandSound_enter hk duty (by simp) (fun _ _ => on) (by simp) fun h => ?_ <;>
    simp [Channel.enter_retryTimer, timer] at h


theorem Channel.DemandSound.noTimer (h : x.DemandSound k) (trip : x.state ≠ .tripped) : x.retryTimer = none :=
  Option.not_isSome_iff_eq_none.mp (mt h.timer trip)

/-- A change that the rules do not read, but for a timer stopped and a duty off or loaded anew. -/
theorem Channel.DemandSound.congr (h : x.DemandSound k) (state : y.state = x.state) (level : y.demandLevel = x.demandLevel)
    (duty : y.demandDuty = x.demandDuty) (effective : y.effectiveDuty = x.effectiveDuty)
    (shadow : y.shadowDuty = x.shadowDuty)
    (active : y.activeDuty = x.activeDuty ∨ y.activeDuty = x.shadowDuty ∨ y.activeDuty = 0)
    (timer : y.retryTimer.isSome = true → x.retryTimer.isSome = true) : y.DemandSound k where
  timer g := state ▸ h.timer (timer g)
  latched g := h.latched (state ▸ g)
  disabled g := by
    obtain ⟨off, none, still, low, shut, dark⟩ := h.disabled g
    rw [state, level, duty, effective, shadow]
    exact ⟨off, none, still, low, shut, by omega⟩
  idle g := by
    rw [level]
    exact h.idle (state ▸ g)
  wants := by
    rw [state, level]
    exact h.wants
  duty := by rw [level, duty, h.duty]

/-- A duty computed again for an enabled channel whose demand may stand in its state. -/
theorem Channel.demandSound_recompute (hk : k.enabled = true) (duty : x.demandDuty = demandDutyOf k.mode x.demandLevel)
    (idle : x.state = .off → demandOn k.mode x.demandLevel = false)
    (wants : x.state ≠ .off → x.state ≠ .cut → demandOn k.mode x.demandLevel = true)
    (latched : x.state = .latched → k.limitAction = .latch) (timer : x.retryTimer.isSome = true → x.state = .tripped) :
    x.recompute.DemandSound k where
  timer := timer
  latched := latched
  disabled h := absurd (hk.symm.trans h) (by simp)
  idle g _ := idle g
  wants := wants
  duty := duty

/-- A demand level delivered to an enabled channel (R7). -/
theorem Channel.DemandSound.delivered (h : x.DemandSound k) (hk : k.enabled = true) (level : Nat) :
    (x.delivered k level).DemandSound k := by
  unfold Channel.delivered
  extract_lets falls y z
  have state : z.state = x.state := by unfold z; split <;> rfl
  have held : z.demandLevel = level := by unfold z; split <;> rfl
  have duty : z.demandDuty = demandDutyOf k.mode z.demandLevel := by unfold z; split <;> rfl
  have timer : z.retryTimer = x.retryTimer := by unfold z; split <;> rfl
  have latched : z.state = .latched → k.limitAction = .latch := state ▸ h.latched
  have runs : z.retryTimer.isSome = true → z.state = .tripped := by
    rw [timer, state]
    exact h.timer
  split
  next off =>
    have was := h.idle off hk
    split
    next rises =>
      simp only [Bool.and_eq_true] at rises
      exact Channel.demandSound_wanted hk duty (held ▸ rises.2) (timer ▸ h.noTimer (by simp [off]))
    next stays =>
      have still : demandOn k.mode level = false := by simpa [was] using stays
      exact Channel.demandSound_recompute hk duty (fun _ => held ▸ still) (fun g => absurd (state.trans off) g) latched runs
  next cut =>
    exact Channel.demandSound_recompute hk duty (fun g => by simp [state, cut] at g)
      (fun _ g => absurd (state.trans cut) g) latched runs
  next off cut =>
    have was : demandOn k.mode x.demandLevel = true := h.wants off cut
    split
    next drops =>
      simp only [falls, Bool.and_eq_true, Bool.not_eq_true'] at drops
      refine Channel.demandSound_enter hk duty (fun _ => held ▸ drops.2) (by simp) (by simp) fun g => ?_
      rw [Channel.enter_retryTimer] at g
      by_cases e : z.state = .tripped
      · simp [e] at g
      · simp [e] at g
        exact absurd (runs g) e
    next stays =>
      have on : demandOn k.mode level = true := by simpa [falls, was] using stays
      exact Channel.demandSound_recompute hk duty (fun g => absurd (state ▸ g) off) (fun _ _ => held ▸ on) latched runs

/-- A channel freed from LATCHED or CUT (R15, R20). -/
theorem Channel.DemandSound.retaken (h : x.DemandSound k) (free : x.state = .latched ∨ x.state = .cut) :
    (x.retaken k).DemandSound k := by
  have stopped : x.retryTimer = none := h.noTimer (by rcases free with e | e <;> simp [e])
  have timer : (x.enter .off .none k.window).retryTimer = none := by simp [Channel.enter_retryTimer, stopped]
  unfold Channel.retaken
  extract_lets y
  split
  next wants =>
    simp only [Bool.and_eq_true] at wants
    exact Channel.demandSound_wanted wants.1 h.duty wants.2 timer
  next stays =>
    refine ⟨fun g => by simp [y, timer] at g, by simp [y, Channel.enter, Channel.recompute], fun g => ?_, fun _ hk => ?_,
      fun g => absurd rfl g, h.duty⟩
    · obtain ⟨-, none, still, -, -, dark⟩ := h.disabled g
      exact ⟨.inl rfl, none, still, rfl, rfl, dark⟩
    · have low : demandOn k.mode x.demandLevel = false := by simpa [hk] using stays
      exact low

/-- A trip (R13, R52, R54). -/
theorem Channel.DemandSound.trips (h : x.DemandSound k) (live : x.state.live = true) (kind : FaultKind)
    (current epoch step : Nat) : (x.trips k kind current epoch step).DemandSound k := by
  have state : x.state ≠ .off ∧ x.state ≠ .cut ∧ x.state ≠ .tripped := by
    rcases (ChState.live_iff _).mp live with e | e <;> simp [e]
  obtain ⟨off, cut, trip⟩ := state
  have stopped := h.noTimer trip
  have timer := x.trips_retryTimer k kind current epoch step
  rw [stopped] at timer
  rw [Channel.trips_eq] at timer ⊢
  have after := x.tripState_immediateOff k
  refine Channel.demandSound_enter (x := x.tripped kind current epoch step (retryDecision k x.fault.attempts)) (h.enabled off cut)
    h.duty (fun e => ?_) (fun _ _ => h.wants off cut) (fun e => ?_)
    fun e => ?_
  · rw [e] at after
    exact absurd after (by decide)
  · unfold Channel.tripState at e
    split at e
    · cases e
    next retries => cases ha : k.limitAction <;> simp_all
  · rw [timer] at e
    unfold Channel.tripState
    split_ifs at e ⊢ <;> simp_all

/-- The rules through each move. -/
theorem Channel.DemandSound.move (h : x.DemandSound k) (m : Move k x y) : y.DemandSound k := by
  cases m with
  | measured m =>
    obtain ⟨state, level, duty, -, effective, -, shadow, -, active, -, timer⟩ := m
    exact h.congr state level duty effective shadow active fun g => timer ▸ g
  | demand level hk => exact h.delivered hk level
  | granted state =>
    have hk := h.enabled (by simp [state]) (by simp [state])
    exact Channel.demandSound_enter hk h.duty (by simp) (fun _ _ => h.wants (by simp [state]) (by simp [state])) (by simp)
      fun g => by simp [Channel.enter_retryTimer, h.noTimer (by simp [state])] at g
  | retried due =>
    have state : x.state = .tripped := h.timer (by simp [due])
    have hk := h.enabled (by simp [state]) (by simp [state])
    have on := h.wants (by simp [state]) (by simp [state])
    rw [if_pos (by simp [state, on])]
    exact Channel.demandSound_wanted hk h.duty on rfl
  | freed free => exact h.retaken free
  | shed r state =>
    have hk := h.enabled (by simp [state]) (by simp [state])
    exact Channel.demandSound_enter hk h.duty (by simp) (fun _ _ => h.wants (by simp [state]) (by simp [state])) (by simp)
      fun g => by simp [Channel.enter_retryTimer, h.noTimer (by simp [state])] at g
  | capped n state =>
    have hk := h.enabled (by simp [state]) (by simp [state])
    exact Channel.demandSound_recompute hk h.duty (fun g => by simp [state] at g)
      (fun _ _ => h.wants (by simp [state]) (by simp [state])) h.latched h.timer
  | restored state =>
    have hk := h.enabled (by simp [state]) (by simp [state])
    exact Channel.demandSound_wanted hk h.duty (h.wants (by simp [state]) (by simp [state])) (h.noTimer (by simp [state]))
  | cut =>
    refine ⟨fun g => by simp [Channel.enter_retryTimer] at g, by simp [Channel.enter, Channel.recompute], fun g => ?_,
      by simp [Channel.enter, Channel.recompute], fun _ g => absurd rfl g, h.duty⟩
    obtain ⟨-, none, still, -⟩ := h.disabled g
    exact ⟨.inr rfl, none, still, rfl, rfl, rfl⟩
  | tripped kind current epoch step live => exact h.trips live kind current epoch step
  | passed state =>
    have hk := h.enabled (by simp [state]) (by simp [state])
    exact Channel.demandSound_enter hk h.duty (by simp) (fun _ _ => h.wants (by simp [state]) (by simp [state])) (by simp)
      fun g => by simp [Channel.enter_retryTimer, h.noTimer (by simp [state])] at g
  | attempts | cleared => exact h.congr rfl rfl rfl rfl rfl (.inl rfl) id

end

/-- The rules of all channels, one by one. -/
theorem demandSound_iff (s : State) :
    (∀ c, (s.ch c).DemandSound (s.cfg c)) ↔ s.RetriesRuled ∧ s.DisabledIdle ∧ s.DemandRuled :=
  ⟨fun h => ⟨fun c => ⟨(h c).timer, (h c).latched⟩, fun c => (h c).disabled, fun c => ⟨(h c).idle, (h c).wants, (h c).duty⟩⟩,
    fun ⟨retries, disabled, demand⟩ c =>
      have ⟨timer, latched⟩ := retries c
      have ⟨idle, wants, duty⟩ := demand c
      ⟨timer, latched, disabled c, idle, wants, duty⟩⟩

end Sys2Proof.Machine

namespace Sys2Proof
open Machine

/-- Settles O50: each move keeps the rules of its channel, which do not read the configuration. -/
theorem stepsKeepTheChannelRules : Obligations.StepsKeepTheChannelRules := by
  intro s t ruled stepped c
  exact step_keeps_channels (P := fun _ x => x.Ruled) (fun _ _ _ h m => h.move m)
    (fun _ => ⟨rfl, rfl, fun _ => rfl, le_refl 255, by simp [Channel.reset], fun _ => rfl⟩) (fun _ _ _ h => h) ruled stepped c

/-- Settles O51: each move keeps the rules of its channel, and load end finds the channels at their reset values. -/
theorem stepsKeepDemandAndRetryRules : Obligations.StepsKeepDemandAndRetryRules := by
  intro s t held retries disabled demand stepped
  refine (demandSound_iff t).mp fun c => ?_
  refine step_keeps_channels (P := Channel.DemandSound) (fun _ _ _ h m => h.move m) demandSound_reset
    (fun before k d _ => ?_) ((demandSound_iff s).mpr ⟨retries, disabled, demand⟩) stepped c
  rw [held.ch before d]
  exact demandSound_reset k

end Sys2Proof


/-! What a step of the loaded part is made of: `Runs` lists the operations of the blocks with their guards, and every command but
RESET, the load's and an ABORT that mutes is a run of them. A rule about the part follows from its being kept by each operation. -/

namespace Sys2Proof.Machine

/-- The counters beside the channels and the Turn-On Scheduler stand inside their ranges (R23, R30, R41, R65, R78, R99, R116, R154). -/
structure State.BlocksInRange (s : State) : Prop where
  lowSamples : s.sense.lowSamples ≤ 1
  ages : ∀ p, (s.peer p).age ≤ 255
  store : ∀ e ∈ s.signal.store, e.age ≤ 255
  pubCount : s.signal.pubCount ≤ 8
  step : s.modulator.step ≤ 254
  number : s.timer.number ≤ 255
  completed : s.timer.completed ≤ 3
  rxErr : s.link.rxErr ≤ 255
  silence : s.link.silence ≤ 10
  good : s.link.good ≤ 99
  clash : s.link.clash ≤ 255
  settle : s.budget.settle ≤ 2
  overruns : s.diag.overruns ≤ 255

/-- The keys of the Store, in order (R65). -/
abbrev State.keys (s : State) : List (Stn × Fin 64) := s.signal.store.map fun e => (e.source, e.signal)

/-- An operation beside the channels, the Scheduler and the frames: the items of the other blocks move, each inside its own rule. -/
structure State.Beside (s t : State) : Prop where
  channels : t.channels = s.channels := by rfl
  cuts : t.cuts = s.cuts := by rfl
  sched : t.sched = s.sched := by rfl
  loader : t.loader = s.loader := by rfl
  pending : t.pending = s.pending := by rfl
  link : t.link = { s.link with rxErr := t.link.rxErr, isolated := t.link.isolated, silence := t.link.silence
                                good := t.link.good, clash := t.link.clash } := by rfl
  markPending : t.timer.markPending = true → s.timer.markPending = true := by exact id
  reportPending : t.diag.reportPending = s.diag.reportPending := by rfl
  supply : t.sense.supply = .cut ↔ s.sense.supply = .cut := by rfl
  isolate : t.pins.isolate = s.pins.isolate := by rfl
  bindings : t.signal.bindings = s.signal.bindings := by rfl
  keys : t.keys = s.keys := by rfl
  peers : s.PeersRuled → t.PeersRuled := by exact id
  claimants : s.OnePerClaimant → t.OnePerClaimant := by exact id
  ranges : s.BlocksInRange → t.BlocksInRange := by exact fun h => { h with }

/-- Samples, counts, duties, demand levels and records of the channels move, and no channel changes its state. -/
structure State.Tallies (s t : State) : Prop where
  same : t = { s with channels := t.channels }
  state : ∀ c, (t.ch c).state = (s.ch c).state
  counts : ∀ c, (s.cfg c).retryLimit ≤ 7 → (s.ch c).CountsInRange → (t.ch c).CountsInRange

/-- A change of state that is neither a grant nor a cut (R3, R7, R10, R12–R16, R18). -/
def ChState.Goes (cls : Cls) (old : ChState) : ChState → Prop
  | .off => old ≠ .off ∧ old ≠ .cut
  | .inrush => cls = 0 ∧ (old = .off ∨ old = .tripped ∨ old = .shed)
  | .requested => cls ≠ 0 ∧ (old = .off ∨ old = .tripped ∨ old = .shed)
  | .on => old = .inrush
  | .shed => cls ≠ 0 ∧ old = .on
  | .tripped => old = .inrush ∨ old = .on
  | .latched => old = .inrush ∨ old = .on
  | .cut => False

/-- The set of cut causes becomes `x` as the supply condition or the ISOLATE input moves (R19, R21, R62). -/
structure State.Recuts (s u : State) (x : CutCauses) : Prop where
  same : u = { s with sense := u.sense, pins := u.pins, modulator := u.modulator }
  supply : (s.cuts.supply = true ↔ s.sense.supply = .cut) → (x.supply = true ↔ u.sense.supply = .cut)
  isolate : s.cuts.isolate = s.pins.isolate → x.isolate = u.pins.isolate
  ranges : s.BlocksInRange → u.BlocksInRange

/-- A run of the operations of the part. What comes between a grant and its arrival is a run of its own, which leaves the claim to
a channel that stays in REQUESTED (R9, R145). -/
inductive Runs : State → State → Prop
  | refl (s) : Runs s s
  | trans {s t u} (h : Runs s t) (g : Runs t u) : Runs s u
  | beside {s t} (h : s.Beside t) : Runs s t
  | tally {s t} (h : s.Tallies t) : Runs s t
  | goes {s} (c : Chan) (st : ChState) (r : ShedReason) (h : ChState.Goes (s.cfg c).cls (s.ch c).state st) :
      Runs s (enter c st r s)
  | recut {s u} {x : CutCauses} (h : s.Recuts u x) : Runs s (changeCauses x u)
  | handsOver {s} (f : Frame) (hm : f.slot ≠ .mark) (hr : f.slot ≠ .report) : Runs s (s.handOver f)
  | queuesMark {s} (number : Nat) : Runs s (queueMark number s)
  | withdrawsMark {s} : Runs s (withdrawMark s)
  | reports {s} (item : Item) (arg : Byte) (h : s.diag.reportPending = false) : Runs s (sendReport item arg s)
  | leavesMuted {s} (h : s.link.muted = true) : Runs s (leaveMuted s)
  | offers {s} (h : s.link.onLine = none) : Runs s (s.setLink { s.link with onLine := s.link.offer })
  | loses {s} (n : Nat) (h : s.link.onLine.isSome = true) (hn : n = s.link.txErr ∨ n ≤ 127) :
      Runs s (s.setLink { s.link.attemptLost with txErr := n })
  | completes {s} : Runs s (completeFrame s)
  | listens {s} : Runs s s.listenAgain
  | counts {s} : Runs s (schedulerEpoch s)
  | selects {s} : Runs s (select s)
  | refuses {s} (x : Claim) (hx : s.sched.ordinary = some x) (hp : x.phase = .settling) : Runs s (refuse x s)
  | admits {s u} (x : Claim) (hx : s.sched.ordinary = some x) (hp : x.phase = .settling) (h : Runs (holdClaim x s) u)
      (span : (u.ch x.chan).state = .requested → u.sched.ordinary = some { x with phase := .held }) :
      Runs s (grant x.chan u)

section
variable {s t u : State}

theorem State.Beside.runs (h : s.Beside t) : Runs s t := .beside h

theorem ite_runs {p : Prop} [Decidable p] (h : p → Runs s t) : Runs s (if p then t else s) := by
  split
  next hp => exact h hp
  next => exact .refl s

theorem foldl_runs {α : Type} {f : State → α → State} (h : ∀ s a, Runs s (f s a)) (l : List α) (s : State) :
    Runs s (l.foldl f s) := by
  induction l generalizing s with
  | nil => exact .refl s
  | cons a rest ih => exact (h s a).trans (ih _)

theorem forChans_runs {f : Chan → State → State} (h : ∀ c s, Runs s (f c s)) (s : State) : Runs s (forChans f s) :=
  foldl_runs (fun s c => h c s) allChans s

/-! ### Operations beside the channels -/

theorem atStep_runs (s : State) {n : Nat} (h : n ≤ 254) : Runs s (s.atStep n) :=
  .beside { ranges := fun g => { g with step := h } }

theorem refreshFault_runs (s : State) : Runs s s.refreshFault := .beside {}

theorem refreshInUse_runs (s : State) : Runs s s.refreshInUse := .beside {}

theorem setCharge_runs (s : State) (charge : Bool) : Runs s (s.setPins { s.pins with charge := charge }) := .beside {}

theorem settleTo_runs (s : State) {n : Nat} (h : n ≤ 2 ∨ n ≤ s.budget.settle) : Runs s (settleTo n s) :=
  .beside { ranges := fun g => { g with settle := h.elim id fun le => le.trans g.settle } }

theorem formFigures_runs (s : State) : Runs s (formFigures s) := .beside {}

theorem shareExcess_runs (s : State) : Runs s (shareExcess s) := .beside {}

theorem takePhase_runs (s : State) : Runs s (takePhase s) := .beside {}

/-- The Sense Unit's items move, and the supply condition neither to CUT nor from it. -/
theorem setSense_runs (s : State) {x : SenseUnit} (supply : x.supply = .cut ↔ s.sense.supply = .cut)
    (low : s.sense.lowSamples ≤ 1 → x.lowSamples ≤ 1) : Runs s (s.setSense x) :=
  .beside { supply := supply, ranges := fun g => { g with lowSamples := low g.lowSamples } }

end

/-! ### Operations at one channel -/

/-- One channel's items move, and not its state. -/
theorem updCh_runs (c : Chan) (s : State) {f : Channel → Channel} (state : (f (s.ch c)).state = (s.ch c).state)
    (counts : (s.cfg c).retryLimit ≤ 7 → (s.ch c).CountsInRange → (f (s.ch c)).CountsInRange) : Runs s (s.updCh c f) := by
  refine .tally ⟨rfl, fun d => ?_, fun d => ?_⟩ <;> rw [State.updCh_ch] <;> split
  next e => exact e ▸ state
  next => rfl
  next e => exact e ▸ counts
  next => exact fun _ => id

/-- Every channel's items move, and no state. -/
theorem mapCh_runs (s : State) {f : Chan → Channel → Channel} (state : ∀ c x, (f c x).state = x.state)
    (counts : ∀ c (x : Channel), x.CountsInRange → (f c x).CountsInRange) : Runs s (s.mapCh f) :=
  .tally ⟨by simp only [State.mapCh], fun c => by rw [State.mapCh_ch, state], fun c _ g => by
    rw [State.mapCh_ch]
    exact counts c _ g⟩

section
variable {k : ChannelConfig} {x : Channel} (h : x.CountsInRange)
include h

/-- A record without attempts keeps the counts in range. -/
theorem Channel.CountsInRange.fault {f : FaultRecord} (hf : f.attempts = 0) : Channel.CountsInRange { x with fault := f } := by
  obtain ⟨window, count, opens, epochs, timer, -⟩ := h
  exact ⟨window, count, opens, epochs, timer, by simp [hf]⟩

/-- A trip counts no attempt past the retry limit in force, and starts a timer of at most 255 (R52, R54). -/
theorem Channel.CountsInRange.tripped (hk : k.retryLimit ≤ 7) (kind : FaultKind) (current epoch step : Nat) :
    (x.tripped kind current epoch step (retryDecision k x.fault.attempts)).CountsInRange := by
  obtain ⟨window, count, opens, epochs, timer, attempts⟩ := h
  refine ⟨window, count, opens, epochs, fun n e => ?_, ?_⟩
  · simp only [Channel.tripped, retryDecision_delay] at e
    split_ifs at e <;> simp_all
    omega
  · simp only [Channel.tripped, retryDecision_attempts]
    split <;> omega

theorem Channel.CountsInRange.sampled (sample threshold : Nat) : (x.sampled sample threshold).CountsInRange := by
  obtain ⟨window, count, opens, epochs, timer, attempts⟩ := h
  have opened (y : Channel) (g : y.CountsInRange) : (y.openLoad threshold sample).CountsInRange := by
    obtain ⟨window, count, opens, epochs, timer, attempts⟩ := g
    unfold Channel.openLoad
    split_ifs
    · exact ⟨window, count, opens, epochs, timer, attempts⟩
    all_goals exact ⟨window, count, by simp only; omega, epochs, timer, attempts⟩
  simp only [Channel.sampled]
  split
  · exact opened _ ⟨window, count, opens, epochs, timer, attempts⟩
  · exact ⟨window, count, opens, epochs, timer, attempts⟩

theorem Channel.CountsInRange.countEpoch : x.countEpoch.CountsInRange := by
  obtain ⟨window, count, opens, epochs, timer, attempts⟩ := h
  refine ⟨?_, count, opens, ?_, fun n e => ?_, attempts⟩
  · simp only [Channel.countEpoch]
    split <;> omega
  · simp only [Channel.countEpoch]
    split <;> omega
  · obtain ⟨m, hm, rfl⟩ := Option.map_eq_some_iff.mp e
    have := timer m hm
    omega

end

theorem Channel.sampled_state (x : Channel) (sample threshold : Nat) : (x.sampled sample threshold).state = x.state :=
  (sampled_measured x sample threshold).1

section
variable (c : Chan) (s : State)

theorem resetAttempts_runs : Runs s (s.updCh c Channel.resetAttempts) := updCh_runs c s rfl fun _ h => h.fault rfl

theorem clearRecord_runs : Runs s (clearRecord c s) := updCh_runs c s rfl fun _ h => h.fault rfl

theorem cutOff_runs : Runs s (cutOff c s) := updCh_runs c s rfl fun _ h => h

theorem setCap_runs (n : Nat) : Runs s (setCap c n s) := updCh_runs c s rfl fun _ h => h

/-- A channel that leaves a state which wants no power is switched on (R10). -/
theorem switchOn_runs (h : (s.ch c).state = .off ∨ (s.ch c).state = .tripped ∨ (s.ch c).state = .shed) :
    Runs s (switchOn c s) := by
  unfold switchOn
  split
  next zero => exact .goes c .inrush _ ⟨zero, h⟩
  next other => exact .goes c .requested _ ⟨other, h⟩

/-- A demand level delivered (R7): the level, then the record, then the state. -/
theorem deliver_runs (level : Nat) : Runs s (deliver c level s) := by
  unfold deliver
  extract_lets mode was is s1 s2 kept
  have begun : Runs s s2 := by
    refine .trans (t := s1) (updCh_runs c s rfl fun _ h => h) ?_
    exact ite_runs fun _ => resetAttempts_runs c s1
  have state : (s2.ch c).state = (s.ch c).state := by
    unfold s2 s1
    split <;> simp [Channel.resetAttempts]
  have again : Runs s kept := begun.trans (updCh_runs c s2 rfl fun _ h => h)
  split
  next off =>
    split
    · exact begun.trans (switchOn_runs c s2 (.inl (state.trans off)))
    · exact again
  next => exact again
  next other uncut =>
    split
    · exact begun.trans (.goes c .off _ (state ▸ ⟨other, uncut⟩))
    · exact again

theorem retryDue_runs : Runs s (retryDue c s) := by
  unfold retryDue
  refine ite_runs fun _ => .trans (t := s.updCh c fun x => { x with retryTimer := none }) (updCh_runs c s rfl ?_) ?_
  · rintro - ⟨window, count, opens, epochs, -, attempts⟩
    exact ⟨window, count, opens, epochs, nofun, attempts⟩
  · unfold retryAtChannel
    refine ite_runs fun g => switchOn_runs c _ (.inr (.inl ?_))
    simp only [Bool.and_eq_true, decide_eq_true_eq] at g
    exact g.1

theorem releaseLatch_runs : Runs s (releaseLatch c s) := by
  unfold releaseLatch
  refine ite_runs fun latched => ?_
  have freed : Runs s (enter c .off .none s) := .goes c .off _ (by simp [ChState.Goes, latched])
  exact freed.trans (ite_runs fun _ => switchOn_runs c _ (.inl (by simp [Channel.enter, Channel.recompute])))

theorem clearChannel_runs : Runs s (clearChannel c s) := (clearRecord_runs c s).trans (releaseLatch_runs c _)

theorem shed_runs (r : ShedReason) : Runs s (shed c r s) :=
  ite_runs fun h => .goes c .shed r ((orderable_iff c s).mp h).symm

theorem throttle_runs (n : Nat) : Runs s (throttle c n s) := by
  unfold throttle
  refine ite_runs fun h => ?_
  simp only [Bool.and_eq_true] at h
  split
  · exact setCap_runs c s n
  · exact .goes c .shed _ ((orderable_iff c s).mp h.1).symm

theorem capRaise_runs (n : Nat) : Runs s (capRaise c n s) := ite_runs fun _ => setCap_runs c s _

theorem restore_runs : Runs s (restore c s) := ite_runs fun h => switchOn_runs c s (.inr (.inr h))

theorem trip_runs (kind : FaultKind) (current step : Nat) : Runs s (trip c kind current step s) := by
  unfold trip
  refine ite_runs fun live => ?_
  extract_lets d s1
  have recorded : Runs s s1 := updCh_runs c s rfl fun hk h => h.tripped hk kind current _ step
  have live : (s1.ch c).state = .inrush ∨ (s1.ch c).state = .on := by
    simpa [s1, Channel.tripped] using (ChState.live_iff _).mp live
  refine (recorded.trans (.goes c _ _ ?_)).trans (refreshFault_runs _)
  cases d.delay <;> exact live

theorem overcurrent_runs (sample step : Nat) : Runs s (overcurrent c sample step s) := by
  have counted (n : Nat) (hn : n ≤ 1) : Runs s (s.updCh c fun x => { x with overCount := n }) :=
    updCh_runs c s rfl fun _ ⟨window, _, rest⟩ => ⟨window, hn, rest⟩
  unfold overcurrent
  refine ite_runs fun _ => ?_
  split_ifs
  · exact counted 1 (le_refl 1)
  · exact trip_runs c s _ _ _
  · exact counted 0 (Nat.zero_le 1)

theorem sampleStep_le (own : Stn) (d : Nat) : sampleStep own c d ≤ 254 :=
  Nat.le_of_lt_succ (Nat.mod_lt _ (by decide))

theorem takeSample_runs (current : Nat) : Runs s (takeSample c current s) := by
  unfold takeSample
  refine ite_runs fun _ => .trans ?_ (overcurrent_runs c _ _ _)
  exact (atStep_runs s (sampleStep_le c _ _)).trans (updCh_runs c _ (Channel.sampled_state _ _ _) fun _ h => h.sampled _ _)

theorem comparatorFires_runs (step current : Nat) : Runs s (comparatorFires c step current s) := by
  unfold comparatorFires
  refine ite_runs fun h => ?_
  simp only [Bool.and_eq_true, decide_eq_true_eq] at h
  refine (atStep_runs s h.1).trans ?_
  split
  · exact trip_runs c _ _ _ _
  · exact cutOff_runs c _

theorem thermalReport_runs (step : Nat) : Runs s (thermalReport c step s) := by
  unfold thermalReport
  refine ite_runs fun h => ?_
  simp only [Bool.and_eq_true, decide_eq_true_eq] at h
  refine (atStep_runs s h.1).trans ?_
  split
  · exact trip_runs c _ _ _ _
  · exact cutOff_runs c _

theorem windowEnd_runs : Runs s (windowEnd c s) := by
  unfold windowEnd
  refine ite_runs fun h => ?_
  simp only [Bool.and_eq_true, decide_eq_true_eq] at h
  have passed : Runs s (enter c .on .none s) := .goes c .on _ h.1
  split
  · split
    · exact trip_runs c s _ _ _
    · exact passed
  · exact passed

theorem attemptReset_runs : Runs s (attemptReset c s) := ite_runs fun _ => resetAttempts_runs c s

end

/-! ### Supply and measurement -/

section
variable (s : State)

theorem addPending_runs : Runs s (addPending s) := by
  unfold addPending
  extract_lets s1
  have moved : Runs s s1 := mapCh_runs s (fun _ _ => rfl) fun _ _ h => h
  exact moved.trans (setSense_runs _ Iff.rfl id)

theorem dropPending_runs : Runs s (dropPending s) := by
  unfold dropPending
  extract_lets s1
  have moved : Runs s s1 := mapCh_runs s (fun _ _ => rfl) fun _ _ h => h
  exact moved.trans (setSense_runs _ Iff.rfl id)

theorem closeMeasurement_runs (n : Nat) : Runs s (closeMeasurement n s) := by
  unfold closeMeasurement
  extract_lets s1
  have moved : Runs s s1 := mapCh_runs s (fun _ _ => rfl) fun _ _ h => h
  exact moved.trans (setSense_runs _ Iff.rfl id)

theorem loadDuties_runs : Runs s (loadDuties s) := mapCh_runs s (fun _ _ => rfl) fun _ _ h => h

/-- The condition leaves CUT only for LOW (R61), and comes to CUT by no epoch mean (R59). -/
theorem supplyAfterMean_cut (cond : Supply) (mean vLow vCut : Nat) (h : cond ≠ .cut) :
    supplyAfterMean cond mean vLow vCut ≠ .cut := by
  cases cond with
  | normal | low =>
    simp only [supplyAfterMean]
    split <;> simp
  | cut => exact absurd rfl h

theorem testSupply_runs (n : Nat) : Runs s (testSupply n s) := by
  unfold testSupply
  extract_lets after _ s1
  split
  next left =>
    simp only [Bool.and_eq_true, decide_eq_true_eq] at left
    refine .recut ⟨rfl, fun _ => ?_, id, fun g => { g with }⟩
    simpa [s1] using left.2
  next stays =>
    refine .beside { supply := ?_ }
    have := supplyAfterMean_cut s.sense.supply (s.sense.supplySum / n) s.params.vLow s.params.vCut
    show after = .cut ↔ _
    simp only [Bool.and_eq_true, decide_eq_true_eq, not_and, not_not] at stays
    tauto

theorem takeSupply_runs (voltage : Nat) : Runs s (takeSupply voltage s) := by
  unfold takeSupply
  refine ite_runs fun _ => ?_
  extract_lets v _ s1
  have stepped : Runs s (s.atStep 128) := atStep_runs s (by decide)
  have sampled : Runs s s1 := stepped.trans (setSense_runs _ Iff.rfl id)
  split
  next => exact sampled
  split
  next =>
    split
    next => exact sampled.trans (setSense_runs _ Iff.rfl fun _ => le_refl 1)
    next =>
      exact .recut ⟨rfl, fun _ => by simp, id, fun g => { g with lowSamples := Nat.zero_le 1, step := show 128 ≤ 254 by decide }⟩
  next => exact sampled.trans (setSense_runs _ Iff.rfl fun _ => Nat.zero_le 1)

/-! ### Signals -/

theorem resolve_runs (test : Chan → Bool) : Runs s (resolve test s) :=
  forChans_runs (fun c u => ite_runs fun _ => by
    unfold resolveOne
    split
    · exact .refl u
    · exact deliver_runs c u _) s

theorem publish_runs : Runs s (publish s) :=
  ite_runs fun _ => .trans (.handsOver (.signal s.signal.inputs) (by simp [Frame.slot]) (by simp [Frame.slot]))
    (.beside { ranges := fun g => { g with pubCount := Nat.zero_le 8 } })

theorem periodicPublication_runs : Runs s (periodicPublication s) := ite_runs fun _ => publish_runs s

theorem countPublication_runs : Runs s (countPublication s) :=
  ite_runs fun _ => .beside { ranges := fun g => { g with pubCount := Nat.min_le_left _ _ } }

theorem setInputs_runs (din : DinLevels) : Runs s (s.setSignal { s.signal with inputs := din }) := .beside {}

theorem readInputs_runs (din : DinLevels) : Runs s (readInputs din s) := by
  unfold readInputs
  split
  · exact .refl s
  · exact ((setInputs_runs s din).trans (resolve_runs _ _)).trans (publish_runs _)

/-- The Store moves under its keys, its ages at most 255. -/
theorem setStore_runs {store : List StoreEntry} (keys : store.map (fun e => (e.source, e.signal)) = s.keys)
    (ages : (∀ e ∈ s.signal.store, e.age ≤ 255) → ∀ e ∈ store, e.age ≤ 255) : Runs s (s.setStore store) :=
  .beside { keys := keys, ranges := fun g => { g with store := ages g.store } }

/-- The same for a Store whose entries move one by one. -/
theorem mapStore_runs {f : StoreEntry → StoreEntry} (key : ∀ e, ((f e).source, (f e).signal) = (e.source, e.signal))
    (age : ∀ e, e.age ≤ 255 → (f e).age ≤ 255) : Runs s (s.setStore (s.signal.store.map f)) := by
  refine setStore_runs s ?_ fun h e he => ?_
  · rw [List.map_map]
    exact List.map_congr_left fun e _ => key e
  · obtain ⟨e, held, rfl⟩ := List.mem_map.mp he
    exact age e (h e held)

theorem StoreEntry.expire_key (e : StoreEntry) (n : Nat) :
    (e.expire n).source = e.source ∧ (e.expire n).signal = e.signal ∧ (e.expire n).age = e.age := by
  unfold StoreEntry.expire
  split <;> exact ⟨rfl, rfl, rfl⟩

theorem ageSignals_runs : Runs s (ageSignals s) := by
  refine .trans (mapStore_runs s (fun e => ?_) fun e _ => ?_) (takePhase_runs _)
  · obtain ⟨source, signal, -⟩ := StoreEntry.expire_key { e with age := min 255 (e.age + 1) } s.params.lifetime
    exact Prod.ext source signal
  · exact (StoreEntry.expire_key _ _).2.2.trans_le (Nat.min_le_left _ _)

theorem writePair_keeps (sender : Stn) (store : List StoreEntry) (p : Nat × Nat) :
    (writePair sender store p).map (fun e => (e.source, e.signal)) = store.map (fun e => (e.source, e.signal)) ∧
      ((∀ e ∈ store, e.age ≤ 255) → ∀ e ∈ writePair sender store p, e.age ≤ 255) := by
  unfold writePair
  refine ⟨?_, fun h e he => ?_⟩
  · rw [List.map_map]
    exact List.map_congr_left fun e _ => by simp only [Function.comp]; split <;> rfl
  · obtain ⟨e, held, rfl⟩ := List.mem_map.mp he
    split
    · exact Nat.zero_le 255
    · exact h e held

theorem writePairs_keep (sender : Stn) (pairs : List (Nat × Nat)) (store : List StoreEntry) :
    (pairs.foldl (writePair sender) store).map (fun e => (e.source, e.signal)) = store.map (fun e => (e.source, e.signal)) ∧
      ((∀ e ∈ store, e.age ≤ 255) → ∀ e ∈ pairs.foldl (writePair sender) store, e.age ≤ 255) := by
  induction pairs generalizing store with
  | nil => exact ⟨rfl, id⟩
  | cons p rest ih =>
    obtain ⟨keys, ages⟩ := ih (writePair sender store p)
    obtain ⟨key, age⟩ := writePair_keeps sender store p
    exact ⟨keys.trans key, ages ∘ age⟩

theorem takeSignalFrame_runs (sender : Stn) (payload : List Byte) : Runs s (takeSignalFrame sender payload s) := by
  obtain ⟨keys, ages⟩ := writePairs_keep sender (signalPairs payload) s.signal.store
  exact ite_runs fun _ => .trans (setStore_runs s keys ages) (resolve_runs _ _)

theorem expireEntry_runs (source : Stn) (signal : Fin 64) : Runs s (expireEntry source signal s) := by
  unfold expireEntry
  refine ite_runs fun _ => .trans (mapStore_runs s (fun e => ?_) fun e h => ?_) (resolve_runs _ _)
  · obtain ⟨source, signal, -⟩ := StoreEntry.expire_key e s.params.lifetime
    split
    · exact Prod.ext source signal
    · rfl
  · split
    · exact (StoreEntry.expire_key _ _).2.2.trans_le h
    · exact h

end

end Sys2Proof.Machine


namespace Sys2Proof.Machine

/-! ### The budget evaluation -/

/-- The orders of the Budget Unit (R16–R18). -/
theorem orders_keep_runs : OrdersKeep Runs where
  refl := .refl
  trans := .trans
  shed c r s _ := shed_runs c s r
  throttle c n s _ := throttle_runs c s n
  capRaise c n s := capRaise_runs c s n
  restore c s := restore_runs c s

/-- A restore step and the settle count, which goes to 2 or falls (R128–R130). -/
theorem restorePart_runs (x : Course) : x.Leads Runs (restorePart x) := by
  have settled (y : Course) {n : Nat} (h : n ≤ 2 ∨ n ≤ y.now.budget.settle) : y.Leads Runs { y with now := settleTo n y.now } :=
    fun safe => ⟨settleTo_runs _ h, safe⟩
  have read := readForRestore_leads orders_keep_runs x
  simp only [restorePart]
  split
  · exact (read.trans orders_keep_runs (restoreStepAmid_leads orders_keep_runs _ _)).trans orders_keep_runs
      (settled _ (.inl (le_refl 2)))
  · refine read.trans orders_keep_runs (settled _ ?_)
    unfold settleAfter
    split
    · exact .inl (le_refl 2)
    · exact .inr (Nat.sub_le _ 1)

/-- The evaluation, whatever comes between its parts (R117, R127). -/
theorem evaluateAmid_runs {between : List (State → State)} (h : ∀ event ∈ between, ∀ s, Runs s (event s)) (s : State) :
    Runs s (evaluateAmid between s) := by
  have shared (y : Course) : y.Leads Runs { y with now := shareExcess y.now } := fun safe => ⟨shareExcess_runs _, safe⟩
  obtain ⟨run, safe⟩ := (((shedForSupplyAmid_leads orders_keep_runs { between := between, now := formFigures s }).trans
    orders_keep_runs (shared _)).trans orders_keep_runs (cutPart_leads orders_keep_runs _)).trans orders_keep_runs
    (restorePart_runs _) h
  exact (((formFigures_runs s).trans run).trans (Course.finish_keeps orders_keep_runs safe)).trans
    (.handsOver _ (by simp [Frame.slot]) (by simp [Frame.slot]))

theorem evaluateBudget_runs (s : State) : Runs s (evaluateBudget s) := evaluateAmid_runs (by simp) s

/-! ### What comes between a grant and its arrival -/

/-- Neither the state of channel `c` nor a claim that names it moves. -/
structure State.Apart (c : Chan) (s t : State) : Prop where
  state : (t.ch c).state = (s.ch c).state
  claim : ∀ x, s.sched.ordinary = some x → x.chan = c → t.sched.ordinary = some x

/-- A claim that names channel `c` stands where the channel comes to be in REQUESTED. -/
def State.SpanKept (c : Chan) (s t : State) : Prop :=
  (t.ch c).state = .requested → ∀ x, s.sched.ordinary = some x → x.chan = c → t.sched.ordinary = some x

section
variable {c : Chan} {s t u : State}

theorem State.Apart.refl (c : Chan) (s : State) : s.Apart c s := ⟨rfl, fun _ h _ => h⟩

theorem State.Apart.trans (h : s.Apart c t) (g : t.Apart c u) : s.Apart c u :=
  ⟨g.state.trans h.state, fun x hx hc => g.claim x (h.claim x hx hc) hc⟩

theorem State.Apart.spanKept (h : s.Apart c t) : s.SpanKept c t := fun _ => h.claim

theorem State.SpanKept.after (g : t.SpanKept c u) (h : s.Apart c t) : s.SpanKept c u := fun hu x hx hc =>
  g hu x (h.claim x hx hc) hc

theorem State.SpanKept.andThen (h : s.SpanKept c t) (g : t.Apart c u) : s.SpanKept c u := fun hu x hx hc =>
  g.claim x (h (g.state ▸ hu) x hx hc) hc

theorem ite_apart {p : Prop} [Decidable p] (h : p → s.Apart c t) : s.Apart c (if p then t else s) := by
  split
  next hp => exact h hp
  next => exact .refl c s

/-- Where the channel's state and the Scheduler stand. -/
theorem State.Apart.still (state : (t.ch c).state = (s.ch c).state) (sched : t.sched = s.sched) : s.Apart c t :=
  ⟨state, fun _ h _ => by rw [sched, h]⟩

theorem foldl_apart {f : State → Chan → State} {l : List Chan} (h : ∀ d ∈ l, ∀ s : State, s.Apart c (f s d)) (s : State) :
    s.Apart c (l.foldl f s) := by
  induction l generalizing s with
  | nil => exact .refl c s
  | cons d rest ih => exact (h d (by simp) s).trans (ih (fun e he => h e (List.mem_cons_of_mem _ he)) _)

theorem mem_allChans (c : Chan) : c ∈ allChans := List.mem_finRange c

theorem allChans_nodup : allChans.Nodup := List.nodup_finRange 16

/-- An event at each channel in turn comes to channel `c` once. -/
theorem forChans_spanKept {f : Chan → State → State} (other : ∀ d, d ≠ c → ∀ s : State, s.Apart c (f d s))
    (own : ∀ s : State, s.SpanKept c (f c s)) (s : State) : s.SpanKept c (forChans f s) := by
  obtain ⟨pre, post, split⟩ := List.append_of_mem (mem_allChans c)
  have once : (pre ++ c :: post).Nodup := split ▸ allChans_nodup
  obtain ⟨-, tail, apart⟩ := List.nodup_append.mp once
  unfold forChans
  rw [split, List.foldl_append, List.foldl_cons]
  refine ((own _).after (foldl_apart (fun d hd => other d fun e => ?_) s)).andThen (foldl_apart (fun d hd => other d fun e => ?_) _)
  · exact apart d hd c (by simp) e
  · exact (List.nodup_cons.mp tail).1 (e ▸ hd)

/-- A change of state at another channel. -/
theorem enter_apart {d : Chan} (h : d ≠ c) (st : ChState) (r : ShedReason) (s : State) : s.Apart c (enter d st r s) := by
  refine ⟨by rw [enter_ch_ne d c s st r (Ne.symm h)], fun x hx hc => ?_⟩
  rw [enter, notices_ordinary, State.setCh_sched, hx, Option.filter_some, if_pos]
  simp [endsClaim, hc, Ne.symm h]

theorem switchOn_apart {d : Chan} (h : d ≠ c) (s : State) : s.Apart c (switchOn d s) := by
  unfold switchOn
  split <;> exact enter_apart h _ _ s

theorem updCh_apart {d : Chan} (h : d ≠ c) (f : Channel → Channel) (s : State) : s.Apart c (s.updCh d f) :=
  .still (by rw [State.updCh_ch_ne s d f (Ne.symm h)]) rfl

/-- Wanting power ends no claim of a channel that is neither in REQUESTED nor in INRUSH. -/
theorem switchOn_spanKept (h : (s.ch c).state = .off ∨ (s.ch c).state = .tripped) : s.SpanKept c (switchOn c s) := by
  have kept (st : ChState) : s.SpanKept c (enter c st .none s) := fun _ x hx hc => by
    rw [enter, notices_ordinary, State.setCh_sched, hx, Option.filter_some, if_pos]
    rcases h with h | h <;> simp [endsClaim, h]
  unfold switchOn
  split <;> exact kept _

theorem deliver_apart {d : Chan} (h : d ≠ c) (level : Nat) (s : State) : s.Apart c (deliver d level s) := by
  unfold deliver
  extract_lets mode was is s1 s2 kept
  have begun : s.Apart c s2 := .trans (t := s1) (updCh_apart h _ s) (ite_apart fun _ => updCh_apart h _ s1)
  have again : s.Apart c kept := begun.trans (updCh_apart h _ s2)
  split
  next =>
    split
    · exact begun.trans (switchOn_apart h s2)
    · exact again
  next => exact again
  next =>
    split
    · exact begun.trans (enter_apart h _ _ s2)
    · exact again

theorem deliver_spanKept (level : Nat) (s : State) : s.SpanKept c (deliver c level s) := by
  unfold deliver
  extract_lets mode was is s1 s2 kept
  have state : (s2.ch c).state = (s.ch c).state := by
    unfold s2 s1
    split <;> simp [Channel.resetAttempts]
  have sched : s2.sched = s.sched := by
    unfold s2 s1
    split <;> rfl
  have begun : s.Apart c s2 := .still state sched
  have again : s.Apart c kept := begun.trans (.still (by simp [kept, Channel.recompute]) rfl)
  split
  next off =>
    split
    · exact (switchOn_spanKept (.inl (state.trans off))).after begun
    · exact again.spanKept
  next => exact again.spanKept
  next =>
    split
    · intro waits
      simp [Channel.enter, Channel.recompute] at waits
    · exact again.spanKept

theorem resolve_spanKept (test : Chan → Bool) (s : State) : s.SpanKept c (resolve test s) := by
  refine forChans_spanKept (fun d hd u => ite_apart fun _ => ?_) (fun u => ?_) s
  · unfold resolveOne
    split
    · exact .refl c u
    · exact deliver_apart hd _ u
  · unfold resolveOne
    split_ifs
    · exact (State.Apart.refl c u).spanKept
    · exact deliver_spanKept _ u
    · exact (State.Apart.refl c u).spanKept

theorem publish_apart (s : State) : s.Apart c (publish s) := by
  unfold publish
  exact ite_apart fun _ => .still rfl rfl

theorem readInputs_spanKept (din : DinLevels) (s : State) : s.SpanKept c (readInputs din s) := by
  unfold readInputs
  split
  · exact (State.Apart.refl c s).spanKept
  · have read : s.Apart c (s.setSignal { s.signal with inputs := din }) := .still rfl rfl
    exact ((resolve_spanKept _ _).after read).andThen (publish_apart _)

theorem trip_apart {d : Chan} (h : d ≠ c) (kind : FaultKind) (current step : Nat) (s : State) :
    s.Apart c (trip d kind current step s) := by
  unfold trip
  refine ite_apart fun _ => ?_
  extract_lets decision s1
  exact .trans (t := enter d _ _ s1) (.trans (t := s1) (updCh_apart h _ s) (enter_apart h _ _ s1)) (.still rfl rfl)

theorem windowEnd_apart {d : Chan} (h : d ≠ c) (s : State) : s.Apart c (windowEnd d s) := by
  unfold windowEnd
  refine ite_apart fun _ => ?_
  split
  · split
    · exact trip_apart h _ _ _ s
    · exact enter_apart h _ _ s
  · exact enter_apart h _ _ s

/-- The end of a window takes no channel to REQUESTED. -/
theorem windowEnd_spanKept (s : State) : s.SpanKept c (windowEnd c s) := by
  intro waits
  unfold windowEnd at waits ⊢
  split at waits
  next ended =>
    exfalso
    have state : (s.ch c).state = .inrush := by simp_all
    have passed : ((enter c .on .none s).ch c).state ≠ .requested := by simp [Channel.enter, Channel.recompute]
    split at waits
    · split at waits
      · rw [trip_ch_self (by simp [state, ChState.live]), Channel.trips_state] at waits
        unfold Channel.tripState at waits
        split at waits <;> cases waits
      · exact passed waits
    · exact passed waits
  next still =>
    rw [if_neg still]
    exact fun _ h _ => h

theorem retryDue_apart {d : Chan} (h : d ≠ c) (s : State) : s.Apart c (retryDue d s) := by
  unfold retryDue retryAtChannel
  exact ite_apart fun _ => (updCh_apart h _ s).trans (ite_apart fun _ => switchOn_apart h _)

theorem retryDue_spanKept (s : State) : s.SpanKept c (retryDue c s) := by
  have stopped : s.Apart c (s.updCh c fun x => { x with retryTimer := none }) := .still (by simp) rfl
  unfold retryDue retryAtChannel
  split_ifs with due tripped
  · simp only [Bool.and_eq_true, decide_eq_true_eq] at tripped
    exact (switchOn_spanKept (.inr tripped.1)).after stopped
  · exact stopped.spanKept
  · exact (State.Apart.refl c s).spanKept

theorem attemptReset_apart (d : Chan) (s : State) : s.Apart c (attemptReset d s) :=
  ite_apart fun _ => .still (by rw [State.updCh_ch]; split <;> simp_all [Channel.resetAttempts]) rfl

/-- A part that the channels take leaves a claim to a channel in REQUESTED (R9, R145). -/
theorem runTask_spanKept {task : EpochTask} (h : task.atChannels = true) (n : Nat) (din : DinLevels) (s : State) :
    s.SpanKept c (runTask n din task s) := by
  cases task with
  | loadDuties => exact (State.Apart.still (by simp [runTask, loadDuties]) (by simp [runTask, loadDuties])).spanKept
  | readInputs => exact readInputs_spanKept din s
  | signals =>
    simp only [runTask, resolveAll]
    exact resolve_spanKept _ s
  | windowEnds => exact forChans_spanKept (fun d hd u => windowEnd_apart hd u) windowEnd_spanKept s
  | retries => exact forChans_spanKept (fun d hd u => retryDue_apart hd u) retryDue_spanKept s
  | attemptResets =>
    exact forChans_spanKept (fun d _ u => attemptReset_apart d u) (fun u => (attemptReset_apart c u).spanKept) s
  | closeMeasurement | supplyTest | budget | admission | peerPresence | holdRemovals | publication | isolation => cases h

end

end Sys2Proof.Machine


namespace Sys2Proof.Machine

/-! ### Admission and selection -/

/-- A grant after what comes before its arrival: the claim stays with a channel that waits (R9, R145). -/
theorem grantAfter_runs {s : State} {x : Claim} (hx : s.sched.ordinary = some x) (hp : x.phase = .settling)
    {events : List (State → State)} (run : ∀ event ∈ events, ∀ u, Runs u (event u))
    (span : ∀ event ∈ events, ∀ u : State, u.SpanKept x.chan (event u)) {u : State} (held : Runs (holdClaim x s) u)
    (claim : u.sched.ordinary = some { x with phase := .held }) : Runs s (grantAfter x.chan events u) := by
  induction events generalizing u with
  | nil => exact .admits x hx hp held fun _ => claim
  | cons event rest ih =>
    have runs := held.trans (run event (by simp) u)
    have later : ∀ f ∈ rest, ∀ u, Runs u (f u) := fun f hf => run f (List.mem_cons_of_mem _ hf)
    simp only [grantAfter]
    split
    next waits =>
      exact ih later (fun f hf => span f (List.mem_cons_of_mem _ hf)) runs (span event (by simp) u waits _ claim rfl)
    next left => exact .trans (.admits x hx hp runs fun waits => absurd waits left) (foldl_events_keep .refl .trans later _)

theorem holdClaim_ordinary (x : Claim) (s : State) :
    (holdClaim x s).sched.ordinary = some { x with phase := .held } := rfl

/-- The admission decision, with what comes between a grant and its arrival (R145, R146). -/
theorem decideAdmissionAmid_runs {events : List (State → State)} (run : ∀ event ∈ events, ∀ s, Runs s (event s))
    (span : ∀ c, ∀ event ∈ events, ∀ s : State, s.SpanKept c (event s)) (s : State) :
    Runs s (decideAdmissionAmid events s) := by
  have after (u : State) : Runs u (events.foldl (fun s event => event s) u) := foldl_events_keep .refl .trans run u
  unfold decideAdmissionAmid
  extract_lets late
  split
  next x hx =>
    split_ifs with hp
    · exact grantAfter_runs hx hp run (span x.chan) (.refl _) (holdClaim_ordinary x s)
    · exact (Runs.refuses x hx hp).trans (after _)
    · exact after s
  next => exact after s

theorem budgetEvaluatedAmid_runs {events : List (State → State)} (run : ∀ event ∈ events, ∀ s, Runs s (event s))
    (span : ∀ c, ∀ event ∈ events, ∀ s : State, s.SpanKept c (event s)) (s : State) :
    Runs s (budgetEvaluatedAmid events s) := (decideAdmissionAmid_runs run span s).trans .selects

theorem budgetEvaluated_runs (s : State) : Runs s (budgetEvaluated s) :=
  budgetEvaluatedAmid_runs (by simp) (by simp) s

/-! ### The Peer Unit -/

section
variable (s : State)

/-- The entries move inside their rules, the own one not at all where it stands at its reset values (R99). -/
theorem setPeers_runs {v : Vector PeerEntry 16}
    (held : ∀ p : Stn, ((s.peer p).draws.isSome = true ↔ (s.peer p).presence ≠ .absent) →
      ((v[p]).draws.isSome = true ↔ (v[p]).presence ≠ .absent))
    (own : s.peer s.own = { presence := .absent, age := 255, draws := none } → v[s.own] = s.peer s.own)
    (age : ∀ p : Stn, (s.peer p).age ≤ 255 → (v[p]).age ≤ 255) : Runs s { s with peers := v } :=
  .beside {
    peers := fun ⟨draws, reset⟩ => ⟨fun p => held p (draws p), (own reset).trans reset⟩
    ranges := fun g => { g with ages := fun p => age p (g.ages p) } }

/-- Entries that move one by one, from reset values to reset values (R99). -/
theorem mapPeers_runs {f : PeerEntry → PeerEntry}
    (held : ∀ e, (e.draws.isSome = true ↔ e.presence ≠ .absent) → ((f e).draws.isSome = true ↔ (f e).presence ≠ .absent))
    (own : f { presence := .absent, age := 255, draws := none } = { presence := .absent, age := 255, draws := none })
    (age : ∀ e, e.age ≤ 255 → (f e).age ≤ 255) : Runs s (s.mapPeers f) := by
  have reads (p : Stn) : (Vector.ofFn fun p => f (s.peer p))[p] = f (s.peer p) := State.mapPeers_peer s f p
  refine setPeers_runs s (fun p h => ?_) (fun h => ?_) fun p h => ?_
  · rw [reads]
    exact held _ h
  · rw [reads, h, own]
  · rw [reads]
    exact age _ h

theorem PeerEntry.toStale_draws (e : PeerEntry) (h : e.draws.isSome = true ↔ e.presence ≠ .absent) :
    e.toStale.draws.isSome = true ↔ e.toStale.presence ≠ .absent := by
  unfold PeerEntry.toStale
  split
  next stale =>
    simp only [Bool.and_eq_true, decide_eq_true_eq] at stale
    simp [h, stale.1]
  next => exact h

theorem PeerEntry.toAbsent_draws (e : PeerEntry) (h : e.draws.isSome = true ↔ e.presence ≠ .absent) :
    e.toAbsent.draws.isSome = true ↔ e.toAbsent.presence ≠ .absent := by
  unfold PeerEntry.toAbsent
  split
  · simp
  · exact h

theorem PeerEntry.toStale_age (e : PeerEntry) : e.toStale.age = e.age := by unfold PeerEntry.toStale; split <;> rfl

theorem PeerEntry.toAbsent_age (e : PeerEntry) : e.toAbsent.age = e.age := by unfold PeerEntry.toAbsent; split <;> rfl

theorem peerPresence_runs : Runs s (peerPresence s) :=
  mapPeers_runs s (fun e h => e.toStale.toAbsent_draws (e.toStale_draws h)) (by decide)
    fun e h => by rwa [PeerEntry.toAbsent_age, PeerEntry.toStale_age]

theorem growPeers_runs : Runs s (s.mapPeers PeerEntry.grow) :=
  mapPeers_runs s (fun _ h => h) (by decide) fun _ _ => Nat.min_le_left _ _

/-- One entry moves inside its rules; the own entry stands. -/
theorem setPeer_runs {p : Stn} {e : PeerEntry}
    (held : ((s.peer p).draws.isSome = true ↔ (s.peer p).presence ≠ .absent) → (e.draws.isSome = true ↔ e.presence ≠ .absent))
    (own : p = s.own → s.peer p = { presence := .absent, age := 255, draws := none } → e = s.peer p)
    (age : (s.peer p).age ≤ 255 → e.age ≤ 255) : Runs s (s.setPeer p e) := by
  have reads (q : Stn) : (s.peers.set p e)[q] = if q = p then e else s.peer q := State.setPeer_peer s p e q
  refine setPeers_runs s (fun q h => ?_) (fun h => ?_) fun q h => ?_ <;> rw [reads] <;> split
  next same => exact held (same ▸ h)
  next => exact h
  next same => rw [own same.symm (same ▸ h), same]
  next => rfl
  next same => exact age (same ▸ h)
  next => exact h

theorem peerStale_runs (p : Stn) : Runs s (s.setPeer p (s.peer p).toStale) :=
  setPeer_runs s (PeerEntry.toStale_draws _) (fun _ h => by rw [h]; rfl) fun h => (PeerEntry.toStale_age _).trans_le h

theorem peerAbsent_runs (p : Stn) : Runs s (s.setPeer p (s.peer p).toAbsent) :=
  setPeer_runs s (PeerEntry.toAbsent_draws _) (fun _ h => by rw [h]; rfl) fun h => (PeerEntry.toAbsent_age _).trans_le h

theorem takeStatus_runs {sender : Stn} (h : sender ≠ s.own) (payload : List Byte) : Runs s (takeStatus sender payload s) :=
  setPeer_runs s (fun _ => by simp) (fun e => absurd e h) fun _ => Nat.zero_le 255

/-- The entries of a station and type in a list that has lost some. -/
theorem onePerClaimant_of_sublist {t : State} (h : t.reservations.Sublist s.reservations) (one : s.OnePerClaimant) :
    t.OnePerClaimant := fun p ty => (h.filter _).length_le.trans (one p ty)

theorem onePerClaimant_takeReserve (r : Reservation) (one : s.OnePerClaimant) : (takeReserve r s).OnePerClaimant := by
  intro p ty
  have others : ∀ q, Reservation.isOf q p ty = true → q.isOf r.station r.ty = true → r.isOf p ty = true := by
    simp only [Reservation.isOf, Bool.and_eq_true, decide_eq_true_eq]
    rintro q ⟨rfl, rfl⟩ ⟨station, type⟩
    exact ⟨station.symm, type.symm⟩
  show ((dropReservation r.station r.ty s.reservations ++ [r]).filter fun q => q.isOf p ty).length ≤ 1
  rw [List.filter_append, List.length_append]
  by_cases mine : r.isOf p ty = true
  · have none : (dropReservation r.station r.ty s.reservations).filter (fun q => q.isOf p ty) = [] := by
      refine List.filter_eq_nil_iff.mpr fun q hq is => ?_
      have kept := (List.mem_filter.mp hq).2
      simp only [Reservation.isOf, Bool.and_eq_true, decide_eq_true_eq, Bool.not_eq_true', Bool.and_eq_false_iff,
        decide_eq_false_iff_not] at mine is kept
      obtain ⟨rfl, rfl⟩ := mine
      rcases kept with kept | kept
      · exact kept is.1
      · exact kept is.2
    rw [none]
    exact (Nat.zero_add _).trans_le (List.length_filter_le _ [r])
  · have gone : [r].filter (fun q => q.isOf p ty) = [] := by simp [mine]
    rw [gone]
    exact ((List.filter_sublist.filter _).length_le).trans (one p ty)

theorem takeReserve_runs (r : Reservation) : Runs s (takeReserve r s) :=
  .beside { claimants := onePerClaimant_takeReserve s r }

theorem takeRelease_runs (station : Stn) (ty : ResType) : Runs s (takeRelease station ty s) :=
  .beside { claimants := onePerClaimant_of_sublist s List.filter_sublist }

theorem removeRunOut_runs : Runs s (removeRunOut s) :=
  .beside { claimants := onePerClaimant_of_sublist s List.filter_sublist }

theorem holdRunsOut_runs (station : Stn) (ty : ResType) : Runs s (holdRunsOut station ty s) :=
  .beside { claimants := onePerClaimant_of_sublist s List.filter_sublist }

theorem lowerHolds_runs : Runs s (lowerHolds s) :=
  .beside {
    claimants := fun one p ty => by
      show ((s.reservations.map fun r => { r with hold := r.hold - 1 }).filter fun r => r.isOf p ty).length ≤ 1
      rw [List.filter_map, List.length_map]
      exact one p ty }

/-! ### The epoch -/

theorem isolationDue_runs : Runs s (isolationDue s) :=
  ite_runs fun _ => .trans (t := s.setLink { s.link with isolated := true }) (.beside {}) (refreshInUse_runs _)

theorem countSilence_runs : Runs s (countSilence s) :=
  .beside { ranges := fun g => { g with silence := Nat.min_le_left _ _ } }

theorem resolveAll_runs : Runs s (resolveAll s) := by
  unfold resolveAll
  exact resolve_runs s _

theorem windowEnds_runs : Runs s (windowEnds s) := forChans_runs windowEnd_runs s

theorem retries_runs : Runs s (retries s) := forChans_runs retryDue_runs s

theorem attemptResets_runs : Runs s (attemptResets s) := forChans_runs attemptReset_runs s

/-- One part of an epoch start. -/
theorem runTask_runs (n : Nat) (din : DinLevels) (task : EpochTask) : Runs s (runTask n din task s) := by
  cases task with
  | loadDuties => exact loadDuties_runs s
  | readInputs => exact readInputs_runs s din
  | closeMeasurement => exact closeMeasurement_runs s n
  | supplyTest => exact testSupply_runs s n
  | signals => exact resolveAll_runs s
  | budget => exact evaluateBudget_runs s
  | admission => exact budgetEvaluated_runs s
  | windowEnds => exact windowEnds_runs s
  | retries => exact retries_runs s
  | attemptResets => exact attemptResets_runs s
  | peerPresence => exact peerPresence_runs s
  | holdRemovals => exact removeRunOut_runs s
  | publication => exact periodicPublication_runs s
  | isolation => exact isolationDue_runs s

theorem runTasks_runs (n : Nat) (din : DinLevels) (tasks : List EpochTask) : Runs s (runTasks n din tasks s) :=
  foldl_runs (fun u task => runTask_runs u n din task) tasks s

theorem epochTask_runs (n : Nat) (din : DinLevels) (o : EpochOrder) (task : EpochTask) : Runs s (epochTask n din o task s) := by
  unfold epochTask
  split
  · refine evaluateAmid_runs (fun event h u => ?_) s
    obtain ⟨tasks, -, rfl⟩ := List.mem_map.mp h
    exact runTasks_runs u n din tasks
  · refine budgetEvaluatedAmid_runs (fun event h u => ?_) (fun c event h u => ?_) s <;>
      obtain ⟨task, ht, rfl⟩ := List.mem_map.mp h
    · exact runTask_runs u n din task
    · exact runTask_spanKept (spanParts_spec ht).1 n din u
  · exact runTask_runs s n din _

/-- The waits left to their own rows (log entry 5). -/
theorem settleWaits_runs : Runs s (settleWaits s) := by
  have channels := ((windowEnds_runs s).trans (retries_runs _)).trans (attemptResets_runs _)
  exact (((channels.trans (peerPresence_runs _)).trans (removeRunOut_runs _)).trans (periodicPublication_runs _)).trans
    (isolationDue_runs _)

theorem countEpochs_runs (first : Bool) : Runs s (countEpochs first s) := by
  have counted (u : State) : Runs u (u.mapCh fun _ x => x.countEpoch) := mapCh_runs u (fun _ _ => rfl) fun _ _ h => h.countEpoch
  have late (u : State) : Runs u (countPublication (ageSignals (countSilence (lowerHolds (u.mapPeers PeerEntry.grow))))) :=
    ((((growPeers_runs u).trans (lowerHolds_runs _)).trans (countSilence_runs _)).trans (ageSignals_runs _)).trans
      (countPublication_runs _)
  unfold countEpochs
  refine .trans ?_ (late _)
  cases first with
  | false => exact (counted s).trans .counts
  | true => exact Runs.counts.trans (counted _)

/-- The timer moves inside its ranges, and its MARK stays as it is. -/
theorem setTimer_runs {x : EpochTimer} (mark : x.markPending = s.timer.markPending)
    (number : s.timer.number ≤ 255 → x.number ≤ 255) (completed : s.timer.completed ≤ 3 → x.completed ≤ 3) :
    Runs s (s.setTimer x) :=
  .beside { markPending := fun h => mark ▸ h
            ranges := fun g => { g with number := number g.number, completed := completed g.completed } }

theorem beginEpoch_runs {m : Nat} (h : m ≤ 255) : Runs s (s.setTimer { s.timer with number := m, completed := 0 }) :=
  setTimer_runs s rfl (fun _ => h) fun _ => Nat.zero_le 3

theorem renumber_runs {m : Nat} (h : m ≤ 255) : Runs s (s.setTimer { s.timer with number := m }) :=
  setTimer_runs s rfl (fun _ => h) id

theorem countPeriod_runs (h : s.timer.completed < 3) :
    Runs s (s.setTimer { s.timer with completed := s.timer.completed + 1 }) := setTimer_runs s rfl id fun _ => h

theorem settleWaits_pins : (settleWaits s).pins = s.pins := by
  have channels : (attemptResets (retries (windowEnds s))).blank = s.blank :=
    (forChans_blank attemptReset_blank _).trans ((forChans_blank retryDue_blank _).trans (forChans_blank windowEnd_blank _))
  have isolated (u : State) : (isolationDue u).pins = u.pins := by unfold isolationDue; split <;> rfl
  have published (u : State) : (periodicPublication u).pins = u.pins := by
    unfold periodicPublication publish
    split_ifs <;> rfl
  have removed (u : State) : (removeRunOut u).pins = u.pins := rfl
  simp only [settleWaits, isolated, published, removed, peerPresence, State.mapPeers_pins]
  exact pins_of_blank channels

theorem setPins_runs {x : Pins} (h : x.isolate = s.pins.isolate) : Runs s (s.setPins x) := .beside { isolate := h }

/-- An epoch start (R32). -/
theorem epochStart_runs {m : Nat} (h : m ≤ 255) (n : Nat) (inp : Inputs) (ord : EpochOrder) :
    Runs s (epochStart n m inp ord s) := by
  unfold epochStart
  refine .trans (.trans (.trans (.trans (settleWaits_runs s) (setPins_runs _ ?_)) (beginEpoch_runs _ h))
    (countEpochs_runs _ _)) (foldl_runs (fun u task => epochTask_runs u n inp.din ord task) _ _)
  rw [settleWaits_pins]

theorem ownExpiry_runs (inp : Inputs) (ord : EpochOrder) : Runs s (ownExpiry inp ord s) := by
  have added := (addPending_runs s).trans (atStep_runs _ (show 0 ≤ 254 by decide))
  unfold ownExpiry
  refine .trans (added.trans (.queuesMark _)) (epochStart_runs _ ?_ _ _ _)
  omega

theorem periodCompleted_runs (inp : Inputs) (ord : EpochOrder) : Runs s (periodCompleted inp ord s) := by
  unfold periodCompleted
  split
  next before =>
    have added := (addPending_runs s).trans (atStep_runs _ (show 0 ≤ 254 by decide))
    have counted : ((addPending s).atStep 0).timer.completed < 3 := before
    exact (added.trans ((countPeriod_runs _ counted).trans (setCharge_runs _ inp.charge))).trans (runTasks_runs _ 0 inp.din _)
  next => exact ownExpiry_runs s inp ord

theorem abandonPeriod_runs : Runs s (abandonPeriod s) := (dropPending_runs s).trans (atStep_runs _ (by decide))

theorem realignTask_runs (moved : Bool) (din : DinLevels) (task : EpochTask) : Runs s (realignTask moved din task s) := by
  cases task with
  | loadDuties => exact loadDuties_runs s
  | readInputs => exact readInputs_runs s din
  | signals =>
    refine ite_runs fun _ => ?_
    unfold resolveFlash
    exact resolve_runs s _
  | _ => exact .refl s

theorem realign_runs {m : Nat} (h : m ≤ 255) (inp : Inputs) (ord : EpochOrder) : Runs s (realign m inp ord s) := by
  unfold realign
  refine .trans ?_ (foldl_runs (fun u task => realignTask_runs u _ _ task) _ _)
  refine .trans ?_ (ite_runs fun _ => takePhase_runs _)
  have abandoned := Runs.withdrawsMark.trans (abandonPeriod_runs (withdrawMark s))
  exact (abandoned.trans (renumber_runs _ h)).trans (setPins_runs _ rfl)

/-- A MARK at the Epoch Timer (R34–R36). -/
theorem takeMark_runs {m : Nat} (h : m ≤ 255) (inp : Inputs) (ord : EpochOrder) : Runs s (takeMark m inp ord s) := by
  unfold takeMark
  split_ifs
  · exact (Runs.withdrawsMark.trans (abandonPeriod_runs _)).trans (epochStart_runs _ h _ _ _)
  · exact realign_runs s h inp ord
  · exact .refl s

/-! ### Received frames -/

theorem leaveIsolated_runs : Runs s (leaveIsolated s) :=
  .trans (.trans (t := s.setLink { s.link with isolated := false }) (.beside {}) .listens) (refreshInUse_runs _)

theorem countGood_runs : Runs s (countGood s) := by
  unfold countGood
  refine ite_runs fun muted => ?_
  split
  · exact .leavesMuted muted
  next few => exact .beside { ranges := fun g => { g with good := Nat.lt_of_not_le few } }

theorem validFrame_runs : Runs s (validFrame s) := by
  have heard : Runs s (s.setLink { s.link with silence := 0 }) :=
    .beside { ranges := fun g => { g with silence := Nat.zero_le 10 } }
  exact (heard.trans (ite_runs fun _ => leaveIsolated_runs _)).trans (countGood_runs _)

theorem receiveError_runs : Runs s (receiveError s) :=
  .beside { ranges := fun g => { g with rxErr := Nat.min_le_left _ _ } }

theorem discardReception_runs : Runs s (discardReception s) :=
  (receiveError_runs s).trans (ite_runs fun _ => .beside { ranges := fun g => { g with good := Nat.zero_le 99 } })

theorem clash_runs : Runs s (clash s) :=
  .trans (t := s.setLink { s.link with clash := min 255 (s.link.clash + 1) })
    (.beside { ranges := fun g => { g with clash := Nat.min_le_left _ _ } }) (.beside {})

theorem receiveChecked_runs (length : Nat) (sender : Stn) (payload : List Byte) {delivery : State → State}
    (h : sender ≠ (validFrame s).own → Runs (validFrame s) (delivery (validFrame s))) :
    Runs s (receiveChecked length sender payload delivery s) := by
  refine (validFrame_runs s).trans ?_
  unfold receiveChecked
  extract_lets u
  split_ifs with _ own
  · exact receiveError_runs u
  · exact clash_runs u
  · exact h own

/-! ### Diagnostics -/

/-- The clash flag and count go back (R159). -/
theorem clearClash_runs :
    Runs s ((s.setDiag { s.diag with clashFlag := false }).setLink { s.link with clash := 0 }) :=
  .beside { ranges := fun g => { g with clash := Nat.zero_le 255 } }

theorem clearEvery_runs : Runs s (clearEvery s) := by
  unfold clearEvery
  exact ((forChans_runs clearChannel_runs s).trans (clearClash_runs _)).trans (refreshFault_runs _)

theorem itemAction_runs (item : Item) (arg : Byte) : Runs s (itemAction item arg s) := by
  cases item with
  | clear =>
    simp only [itemAction, clearOne]
    exact (clearChannel_runs _ s).trans (refreshFault_runs _)
  | clearAll => exact clearEvery_runs s
  | summary | channel | peer | link | record => exact .refl s

theorem itemAction_reportPending (item : Item) (arg : Byte) :
    (itemAction item arg s).diag.reportPending = s.diag.reportPending := by
  cases item with
  | clear => exact reportPending_of_blank (clearOne_blank _ s)
  | clearAll =>
    have channels := reportPending_of_blank (forChans_blank clearChannel_blank s)
    simpa [itemAction, clearEvery] using channels
  | summary | channel | peer | link | record => rfl

theorem takeItem_runs (item : Item) (arg : Byte) : Runs s (takeItem item arg s) := by
  unfold takeItem
  split
  · exact .beside { ranges := fun g => { g with overruns := Nat.min_le_left _ _ } }
  next free =>
    refine (itemAction_runs s item arg).trans (.reports item arg ?_)
    rw [itemAction_reportPending]
    exact Bool.eq_false_of_not_eq_true free

theorem receiveQuery_runs (b0 arg : Byte) : Runs s (receiveQuery b0 arg s) := by
  unfold receiveQuery takeQuery
  refine (validFrame_runs s).trans ?_
  split
  · exact .refl _
  · split
    · exact .refl _
    · split
      · exact .refl _
      · exact takeItem_runs _ _ _

/-! ### The line -/

theorem offerFrame_runs (bits : List (Bool × Bool)) : Runs s (offerFrame bits s) := by
  unfold offerFrame
  refine ite_runs fun _ => ?_
  split
  next => exact .refl s
  next free => exact .offers free

theorem LinkController.onLine_of_lineFrame {l : LinkController} {f : Frame} (h : l.lineFrame = some f) :
    l.onLine.isSome = true := by
  unfold LinkController.lineFrame at h
  split at h <;> simp_all

theorem contentionLost_runs (bit : Nat) : Runs s (contentionLost bit s) := by
  unfold contentionLost
  split
  next f line =>
    have count : s.link.attemptLost.txErr = s.link.txErr := by
      unfold LinkController.attemptLost
      split
      · rfl
      · unfold LinkController.pairAfterLoss
        split <;> [split_ifs; split_ifs; rfl] <;> rfl
    refine ite_runs fun _ => ?_
    have lost := Runs.loses (s := s) s.link.txErr (LinkController.onLine_of_lineFrame line) (.inl rfl)
    rwa [← count] at lost
  next => exact .refl s

/-- An abort below the limit ends the attempt with the count 8 higher (R83). -/
theorem abortFrame_runs {bit : Nat} (h : s.link.txErr < 120) : Runs s (abortFrame bit s) := by
  unfold abortFrame
  split
  next f line =>
    refine ite_runs fun _ => ?_
    extract_lets _ s1
    have few : ¬128 ≤ s1.link.txErr := by
      show ¬128 ≤ s.link.txErr + 8
      omega
    rw [if_neg few]
    exact .loses (s.link.txErr + 8) (LinkController.onLine_of_lineFrame line) (.inr (by omega))
  next => exact .refl s

/-- An abort at the limit, where an attempt is on the line, mutes (R83, R91, R92). -/
theorem abortFrame_mutes {bit : Nat} (h : 120 ≤ s.link.txErr) : abortFrame bit s = s ∨
    s.link.onLine.isSome = true ∧
      abortFrame bit s = enterMuted (s.setLink { s.link.attemptLost with txErr := s.link.txErr + 8 }) := by
  unfold abortFrame
  split
  next f line =>
    split
    · refine .inr ⟨LinkController.onLine_of_lineFrame line, if_pos ?_⟩
      show 128 ≤ s.link.txErr + 8
      omega
    · exact .inl rfl
  next => exact .inl rfl

/-! ### Load end -/

theorem startPeriods_runs (din : DinLevels) : Runs s (startPeriods din s) := by
  unfold startPeriods
  extract_lets s1 s2
  have begun : Runs s s2 := .beside {
    markPending := nofun
    ranges := fun g => { g with step := Nat.zero_le 254, number := Nat.zero_le 255, completed := Nat.zero_le 3 } }
  exact (begun.trans (setInputs_runs s2 din)).trans (loadDuties_runs _)

theorem takeIsolateLevel_runs : Runs s (takeIsolateLevel s) := by
  unfold takeIsolateLevel
  exact ite_runs fun high => .recut ⟨rfl, id, fun _ => high.symm, id⟩

theorem firstResolution_runs : Runs s (firstResolution s) := by
  have flashed : Runs s (s.setSignal { s.signal with phaseOn := flashPhase 0 }) := .beside {}
  unfold firstResolution
  exact (flashed.trans (forChans_runs (fun c u => ite_runs fun _ => deliver_runs c u _) _)).trans (publish_runs _)

/-- Load end once the image has been handed out (R169). -/
theorem loadEnd_runs (buffer : List Byte) (din : DinLevels) : Runs (handOut buffer s) (loadEnd buffer din s) := by
  unfold loadEnd startListening
  exact (((startPeriods_runs _ din).trans (takeIsolateLevel_runs _)).trans (firstResolution_runs _)).trans
    (Runs.listens.trans (refreshFault_runs _))

theorem isolateChanged_runs (high : Bool) (h : s.isLoaded = true) : Runs s (isolateChanged high s) := by
  unfold isolateChanged
  extract_lets s1
  rw [h, Bool.true_and]
  split
  next => exact .recut ⟨rfl, id, fun _ => rfl, fun g => { g with }⟩
  next same =>
    have : high = s.pins.isolate := by simpa using same
    exact setPins_runs s this

end

end Sys2Proof.Machine


namespace Sys2Proof.Machine

/-! ### Commands -/

section
variable {s t : State}

/-- What a command comes to: a run, an entry to MUTED, RESET, one step of the load, or nothing. -/
inductive State.Comes (s : State) : Instr → State → Prop
  | runs {i} {t : State} (loaded : s.isLoaded = true) (run : Runs s t) : s.Comes i t
  | mutes {i} (loaded : s.isLoaded = true) (line : s.link.onLine.isSome = true) (count : 120 ≤ s.link.txErr) :
      s.Comes i (enterMuted (s.setLink { s.link.attemptLost with txErr := s.link.txErr + 8 }))
  | resets : s.Comes .reset (resetPart s)
  | still {i} : s.Comes i s
  | begins {i} (held : s.loader.phase = .held) (n : Stn) : s.Comes i (s.setLoader { s.loader with station := n, phase := .reading })
  | noted {i} (waits : s.isLoaded = false) (high : Bool) : s.Comes i (s.setPins { s.pins with isolate := high })
  | loads {i} (reading : s.loader.phase = .reading) (buffer : List Byte) (din : DinLevels) : s.Comes i (loadEnd buffer din s)

theorem State.Comes.whenLoaded {i : Instr} {f : State → State} (h : Runs s (f s)) : s.Comes i (whenLoaded f s) := by
  cases loaded : s.isLoaded with
  | true =>
    rw [whenLoaded_of s f loaded]
    exact .runs loaded h
  | false =>
    rw [whenLoaded_not s f loaded]
    exact .still

theorem abortFrame_comes (bit : Nat) : s.Comes (.abort bit) (whenLoaded (abortFrame bit) s) := by
  cases loaded : s.isLoaded with
  | false =>
    rw [whenLoaded_not s _ loaded]
    exact .still
  | true =>
    rw [whenLoaded_of s _ loaded]
    by_cases few : s.link.txErr < 120
    · exact .runs loaded (abortFrame_runs s few)
    · rcases abortFrame_mutes s (bit := bit) (Nat.le_of_not_lt few) with same | ⟨line, muted⟩
      · rw [same]
        exact .still
      · rw [muted]
        exact .mutes loaded line (Nat.le_of_not_lt few)

theorem payloadByte_le (payload : List Byte) (i : Nat) : payloadByte payload i ≤ 255 := Nat.le_of_lt_succ (BitVec.isLt _)

theorem exec_comes (i : Instr) (s : State) : ∃ t, exec i s = .next t ∧ s.Comes i t := by
  cases i with
  | reset => exact ⟨_, rfl, .resets⟩
  | holdEnds straps =>
    refine ⟨_, rfl, ?_⟩
    unfold beginLoad
    split
    next held => exact .begins held _
    next => exact .still
  | readStops memory din =>
    refine ⟨_, rfl, ?_⟩
    unfold finishRead
    split
    next reading => exact .loads reading _ din
    next => exact .still
  | isolateChange high =>
    refine ⟨_, rfl, ?_⟩
    cases loaded : s.isLoaded with
    | true => exact .runs loaded (isolateChanged_runs s high loaded)
    | false =>
      have noted : isolateChanged high s = s.setPins { s.pins with isolate := high } := by simp [isolateChanged, loaded]
      exact noted ▸ .noted loaded high
  | abort bit => exact ⟨_, rfl, abortFrame_comes bit⟩
  | periodCompleted inp ord => exact ⟨_, rfl, .whenLoaded (periodCompleted_runs s inp ord)⟩
  | ownExpiry inp ord => exact ⟨_, rfl, .whenLoaded (ite_runs fun _ => ownExpiry_runs s inp ord)⟩
  | signalExpiry source signal => exact ⟨_, rfl, .whenLoaded (expireEntry_runs s source signal)⟩
  | peerStale p => exact ⟨_, rfl, .whenLoaded (peerStale_runs s p)⟩
  | peerAbsent p => exact ⟨_, rfl, .whenLoaded (peerAbsent_runs s p)⟩
  | holdRunsOut station ty => exact ⟨_, rfl, .whenLoaded (holdRunsOut_runs s station ty)⟩
  | inrushWindowEnd c => exact ⟨_, rfl, .whenLoaded (windowEnd_runs c s)⟩
  | retryDue c => exact ⟨_, rfl, .whenLoaded (retryDue_runs c s)⟩
  | attemptReset c => exact ⟨_, rfl, .whenLoaded (attemptReset_runs c s)⟩
  | periodicPublication => exact ⟨_, rfl, .whenLoaded (periodicPublication_runs s)⟩
  | isolatedEntry => exact ⟨_, rfl, .whenLoaded (isolationDue_runs s)⟩
  | currentSample c current => exact ⟨_, rfl, .whenLoaded (takeSample_runs c s current)⟩
  | supplySample voltage => exact ⟨_, rfl, .whenLoaded (takeSupply_runs s voltage)⟩
  | short c step current => exact ⟨_, rfl, .whenLoaded (comparatorFires_runs c s step current)⟩
  | thermal c step => exact ⟨_, rfl, .whenLoaded (thermalReport_runs c s step)⟩
  | lineIdle bits => exact ⟨_, rfl, .whenLoaded (offerFrame_runs s bits)⟩
  | contentionLost bit => exact ⟨_, rfl, .whenLoaded (contentionLost_runs s bit)⟩
  | transmitCompletion => exact ⟨_, rfl, .whenLoaded .completes⟩
  | discardedReception samples before => exact ⟨_, rfl, .whenLoaded (ite_runs fun _ => discardReception_runs s)⟩
  | markReceived sender payload inp ord =>
    exact ⟨_, rfl, .whenLoaded (receiveChecked_runs s _ sender payload
      fun _ => takeMark_runs _ (payloadByte_le payload 0) inp ord)⟩
  | reserveReceived sender payload =>
    exact ⟨_, rfl, .whenLoaded (receiveChecked_runs s _ sender payload fun _ => takeReserve_runs _ _)⟩
  | releaseReceived sender payload =>
    exact ⟨_, rfl, .whenLoaded (receiveChecked_runs s _ sender payload fun _ => takeRelease_runs _ _ _)⟩
  | statusReceived sender payload =>
    exact ⟨_, rfl, .whenLoaded (receiveChecked_runs s _ sender payload fun other => takeStatus_runs _ other payload)⟩
  | signalReceived sender payload =>
    exact ⟨_, rfl, .whenLoaded ((validFrame_runs s).trans (takeSignalFrame_runs _ sender payload))⟩
  | reportFrameReceived | kind7FrameReceived => exact ⟨_, rfl, .whenLoaded (validFrame_runs s)⟩
  | payloadLengthDiscard =>
    exact ⟨_, rfl, .whenLoaded (ite_runs fun _ => (validFrame_runs s).trans (receiveError_runs _))⟩
  | summary | channel | peer | link | clear | clearAll | record | queryIgnored =>
    exact ⟨_, rfl, .whenLoaded (receiveQuery_runs s _ _)⟩

theorem tick_runs (s : State) : Runs s (tick s) := by
  unfold tick
  refine ite_runs fun h => atStep_runs s ?_
  simp only [Bool.and_eq_true, decide_eq_true_eq] at h
  exact h.2

/-- A rule of the state that holds at reset and that runs, an entry to MUTED and the steps of the load keep, every step keeps. -/
theorem step_keeps {P : State → Prop} (queue : ∀ s q, P s → P { s with pending := q })
    (runs : ∀ s t, (s.isLoaded = true ∨ t = tick s) → Runs s t → P s → P t)
    (mutes : ∀ s : State, s.isLoaded = true → s.link.onLine.isSome = true → 120 ≤ s.link.txErr → P s →
      P (enterMuted (s.setLink { s.link.attemptLost with txErr := s.link.txErr + 8 })))
    (resets : ∀ s, P (resetPart s))
    (begins : ∀ (s : State) n, s.loader.phase = .held → P s → P (s.setLoader { s.loader with station := n, phase := .reading }))
    (noted : ∀ (s : State) high, s.isLoaded = false → P s → P (s.setPins { s.pins with isolate := high }))
    (loads : ∀ (s : State) buffer din, s.loader.phase = .reading → P s → P (loadEnd buffer din s))
    {s t : State} (hs : P s) (h : step s = .next t) : P t := by
  rcases step_cases h with ⟨-, rfl⟩ | ⟨i, rest, -, taken⟩
  · exact runs s _ (.inr rfl) (tick_runs s) hs
  · obtain ⟨u, same, comes⟩ := exec_comes i { s with pending := rest }
    cases same.symm.trans taken
    have hs := queue s rest hs
    cases comes with
    | runs loaded run => exact runs _ _ (.inl loaded) run hs
    | mutes loaded line count => exact mutes _ loaded line count hs
    | resets => exact resets _
    | still => exact hs
    | begins held n => exact begins _ n held hs
    | noted waits high => exact noted _ high waits hs
    | loads reading buffer din => exact loads _ buffer din reading hs

end

end Sys2Proof.Machine


/-! What no run moves: the configuration, the bindings, the keys of the Store (R1, R64, R65) and the queue of commands. -/

namespace Sys2Proof.Machine

section
variable {s t u : State}

/-- The configuration and the queue of commands stand. -/
def State.SameLoad (s t : State) : Prop := s.SameConfiguration t ∧ t.pending = s.pending

theorem State.SameLoad.refl (s : State) : s.SameLoad s := ⟨⟨rfl, rfl, rfl⟩, rfl⟩

theorem State.SameLoad.trans (h : s.SameLoad t) (g : t.SameLoad u) : s.SameLoad u := by
  obtain ⟨⟨loader, bindings, keys⟩, pending⟩ := h
  obtain ⟨⟨loader', bindings', keys'⟩, pending'⟩ := g
  exact ⟨⟨loader'.trans loader, bindings'.trans bindings, keys'.trans keys⟩, pending'.trans pending⟩

/-- Where the Loader, the Signal Unit and the queue stand. -/
theorem State.SameLoad.still (loader : t.loader = s.loader) (signal : t.signal = s.signal) (pending : t.pending = s.pending) :
    s.SameLoad t := ⟨⟨loader, by rw [signal], by rw [signal]⟩, pending⟩

theorem sameLoad_of_blank (h : t.blank = s.blank) : s.SameLoad t :=
  .still (loader_of_blank h) (signal_of_blank h) (pending_of_blank h)

theorem ite_sameLoad {p : Prop} [Decidable p] (h : s.SameLoad t) : s.SameLoad (if p then t else s) := by
  split
  · exact h
  · exact .refl s

theorem reserveCompleted_blank (c : Chan) (s : State) : (reserveCompleted c s).blank = s.blank := by
  unfold reserveCompleted
  split
  · exact handOver_blank s _
  · split
    · exact setClaim_blank s _
    · rfl

theorem reportCompletion_sameLoad (f : Frame) (s : State) : s.SameLoad (reportCompletion f s) := by
  cases f with
  | reserve ty cls c amount hold =>
    unfold reportCompletion
    refine .trans ?_ (ite_sameLoad (sameLoad_of_blank (reserveCompleted_blank c _)))
    exact .still rfl rfl rfl
  | _ => exact .still rfl rfl rfl

theorem completeFrame_sameLoad (s : State) : s.SameLoad (completeFrame s) := by
  unfold completeFrame
  split
  · exact .trans (.still rfl rfl rfl) (reportCompletion_sameLoad _ _)
  · exact .refl s

/-- No run moves the configuration or the queue of commands. -/
theorem Runs.sameLoad (h : Runs s t) : s.SameLoad t := by
  induction h with
  | refl s => exact .refl s
  | trans _ _ h g => exact h.trans g
  | beside h => exact ⟨⟨h.loader, h.bindings, h.keys⟩, h.pending⟩
  | tally h => rw [h.same]; exact .still rfl rfl rfl
  | goes c st r => exact sameLoad_of_blank (enter_blank c st r _)
  | recut h =>
    refine .trans ?_ (sameLoad_of_blank (changeCauses_blank _ _))
    rw [h.same]
    exact .still rfl rfl rfl
  | handsOver f => exact sameLoad_of_blank (handOver_blank _ f)
  | queuesMark =>
    unfold queueMark
    split <;> exact .still rfl rfl rfl
  | withdrawsMark => exact .trans (ite_sameLoad (sameLoad_of_blank (withdraw_blank _ _))) (.still rfl rfl rfl)
  | reports =>
    unfold sendReport
    split <;> exact .still rfl rfl rfl
  | leavesMuted =>
    unfold leaveMuted
    extract_lets _ s1
    exact .trans (t := s1.listenAgain.refreshInUse) (.still rfl rfl rfl) (sameLoad_of_blank (announceAgain_blank _))
  | offers | loses | listens | counts => exact .still rfl rfl rfl
  | completes => exact completeFrame_sameLoad _
  | selects => exact sameLoad_of_blank (select_blank _)
  | refuses x => exact sameLoad_of_blank (refuse_blank x _)
  | admits x _ _ _ _ h => exact ((sameLoad_of_blank (holdClaim_blank x _)).trans h).trans (sameLoad_of_blank (grant_blank _ _))

theorem Runs.loader (h : Runs s t) : t.loader = s.loader := h.sameLoad.1.1

theorem Runs.cfg (h : Runs s t) (c : Chan) : t.cfg c = s.cfg c := cfg_congr h.loader c

theorem Runs.isLoaded (h : Runs s t) : t.isLoaded = s.isLoaded := isLoaded_congr h.loader

/-! ### The configuration in its ranges (R165, R166) -/

theorem limpConfiguration_inRange : limpConfiguration.InRange := by decide

theorem withDefault_le {v dflt hi : Nat} (h : dflt ≤ hi) : withDefault v dflt hi ≤ hi := by
  unfold withDefault
  split
  · exact h
  · exact Nat.min_le_right v hi

theorem imageByte_le (image : List Byte) (i : Nat) : imageByte image i ≤ 255 := Nat.le_of_lt_succ (BitVec.isLt _)

theorem imageParams_inRange (image : List Byte) : (imageParams image).InRange := by
  refine ⟨withDefault_le (by decide), withDefault_le (by decide), withDefault_le (by decide), withDefault_le (by decide),
    withDefault_le (by decide), ?_, ?_, withDefault_le (by decide), Nat.min_le_right _ _, ?_, ?_, Nat.min_le_right _ _,
    Nat.min_le_right _ _⟩
  · simp only [imageParams, clampRestoreStep]
    split <;> omega
  · simp only [imageParams, clampRestoreStep]
    split <;> omega
  · simp only [imageParams, clampLifetime]
    split <;> omega
  · simp only [imageParams, clampLifetime]
    split <;> omega

theorem imageRecord_inRange (image : List Byte) (c : Chan) : (imageRecord image c).InRange := by
  have rank := imageByte_le image (28 + 12 * c.val + 10)
  have duty := imageByte_le image (28 + 12 * c.val + 8)
  refine ⟨?_, ?_, ?_, ?_, ?_, ?_, Nat.min_le_right _ _, duty, Nat.min_le_right _ _, ?_, ?_, Nat.min_le_right _ _⟩ <;>
    simp only [imageRecord] <;> omega

theorem imageConfiguration_record (image : List Byte) (c : Chan) : (imageConfiguration image).records[c] = imageRecord image c := by
  simp [imageConfiguration]

theorem imageConfiguration_inRange (image : List Byte) : (imageConfiguration image).InRange :=
  ⟨imageParams_inRange image, fun c => by rw [imageConfiguration_record]; exact imageRecord_inRange image c⟩

/-- The configuration that an image puts in force, or the fixed one of LIMP (R164–R168). -/
theorem handOut_configuration (buffer : List Byte) (s : State) : (handOut buffer s).configuration =
    if imageAccepted buffer = true then imageConfiguration buffer else limpConfiguration := by
  simp only [handOut, State.configuration, checkImage]
  split <;> rfl

theorem loadEnd_configuration (buffer : List Byte) (din : DinLevels) (s : State) : (loadEnd buffer din s).configuration =
    if imageAccepted buffer = true then imageConfiguration buffer else limpConfiguration := by
  rw [← handOut_configuration buffer s, State.configuration, (loadEnd_runs s buffer din).loader, ← State.configuration]

end

end Sys2Proof.Machine

namespace Sys2Proof
open Machine

/-- Settles O1. -/
theorem stepRunsTheFrontCommand : Obligations.StepRunsTheFrontCommand := by
  intro s i rest waits
  simp only [step, waits]

/-- Settles O2: what each command comes to leaves the queue alone. -/
theorem everyCommandCompletes : Obligations.EveryCommandCompletes := by
  intro i s
  obtain ⟨t, taken, comes⟩ := exec_comes i s
  refine ⟨t, taken, ?_⟩
  cases comes with
  | runs _ run => exact run.sameLoad.2
  | loads _ buffer din => exact (loadEnd_runs s buffer din).sameLoad.2
  | mutes | resets | still | begins | noted => rfl

/-- Settles O58: no run moves the configuration, and what load end puts in force has been clamped. -/
theorem theConfigurationStandsUntilReset : Obligations.TheConfigurationStandsUntilReset := by
  refine ⟨fun s t i loaded other taken => ?_, fun s t => ?_⟩
  · obtain ⟨u, same, comes⟩ := exec_comes i s
    cases same.symm.trans taken
    cases comes with
    | runs _ run => exact run.sameLoad.1
    | mutes => exact ⟨rfl, rfl, rfl⟩
    | resets => exact absurd rfl other
    | still => exact ⟨rfl, rfl, rfl⟩
    | begins held => simp [State.isLoaded, held] at loaded
    | noted waits => exact absurd (waits.symm.trans loaded) (by decide)
    | loads reading => simp [State.isLoaded, reading] at loaded
  · refine step_keeps (P := fun s => s.configuration.InRange) (fun _ _ h => h) (fun s t _ run h => ?_) (fun _ _ _ _ h => h)
      (fun _ => limpConfiguration_inRange) (fun _ _ _ h => h) (fun _ _ _ h => h) (fun s buffer din _ _ => ?_)
    · rw [State.configuration, run.loader]
      exact h
    · rw [loadEnd_configuration]
      split
      · exact imageConfiguration_inRange buffer
      · exact limpConfiguration_inRange

end Sys2Proof


/-! The cut rules through every step (R19–R21, R62): a run moves the cut causes and the channels in CUT together. -/

namespace Sys2Proof.Machine

/-! ### What the operations of a run leave alone -/

section
variable {s t u : State}

/-- Frames, claims and records of the Scheduler, the list, the figures in use and the Responder's notes alone have moved. -/
abbrev State.Talks (s t : State) : Prop :=
  t = { s with timer := t.timer, link := t.link, reservations := t.reservations, budget := t.budget, sched := t.sched
               diag := t.diag }

theorem State.Talks.trans (h : s.Talks t) (g : t.Talks u) : s.Talks u := by
  rw [State.Talks, g, h]

theorem ite_talks {p : Prop} [Decidable p] (h : s.Talks t) : s.Talks (if p then t else s) := by
  split
  · exact h
  · rfl

theorem queueMark_talks (s : State) (number : Nat) : s.Talks (queueMark number s) := by
  unfold queueMark
  split <;> rfl

theorem withdrawMark_talks (s : State) : s.Talks (withdrawMark s) := by
  unfold withdrawMark
  extract_lets s1
  have withdrawn : s.Talks s1 := ite_talks rfl
  exact withdrawn.trans rfl

theorem sendReport_talks (s : State) (item : Item) (arg : Byte) : s.Talks (sendReport item arg s) := by
  unfold sendReport
  split <;> rfl

theorem releaseClaim_talks (s : State) (x : Claim) : s.Talks (releaseClaim x s) := ite_talks rfl

theorem select_talks (s : State) : s.Talks (select s) := by
  unfold select
  split
  · split
    · simp only []
      split_ifs <;> rfl
    · rfl
  · rfl

theorem refuse_talks (x : Claim) (s : State) : s.Talks (refuse x s) := by
  unfold refuse
  exact (releaseClaim_talks s x).trans rfl

theorem announceAgain_talks (s : State) : s.Talks (announceAgain s) := by
  unfold announceAgain
  split
  · split <;> rfl
  · rfl

theorem leaveMuted_talks (s : State) : s.Talks (leaveMuted s) := by
  unfold leaveMuted
  extract_lets _ s1
  exact State.Talks.trans (t := s1.listenAgain.refreshInUse) rfl (announceAgain_talks _)

theorem reserveCompleted_talks (s : State) (c : Chan) : s.Talks (reserveCompleted c s) := by
  unfold reserveCompleted
  split
  · rfl
  · exact ite_talks rfl

theorem reportCompletion_talks (s : State) (f : Frame) : s.Talks (reportCompletion f s) := by
  cases f with
  | reserve ty cls c amount hold =>
    unfold reportCompletion
    exact .trans (t := takeReserve { station := s.own, ty := ty, cls := cls, chan := c, amount := amount, hold := hold }
      (s.setLink (s.link.setStanding ty true))) rfl (ite_talks (reserveCompleted_talks _ c))
  | _ => rfl

theorem completeFrame_talks (s : State) : s.Talks (completeFrame s) := by
  unfold completeFrame
  split
  · exact State.Talks.trans (t := s.setLink _) rfl (reportCompletion_talks _ _)
  · rfl

/-- A grant changes a channel in REQUESTED alone (R9). -/
theorem grant_kept (c : Chan) (s : State) : s.KeptByParts (grant c s) := ite_kept (enter_kept c s _ _)

end

/-! ### The cut -/

section
variable {s t u : State}

/-- Neither the cut causes, nor what they follow, nor which channels are in CUT have moved. -/
structure State.CutKept (s t : State) : Prop where
  cuts : t.cuts = s.cuts
  supply : t.sense.supply = .cut ↔ s.sense.supply = .cut
  isolate : t.pins.isolate = s.pins.isolate
  states : ∀ c, (t.ch c).state = .cut ↔ (s.ch c).state = .cut

/-- SUPPLY is a cause with the condition CUT, and every channel is in CUT exactly while a cause stands (R19, R20, R62). -/
def State.CutTogether (s : State) : Prop :=
  (s.cuts.supply = true ↔ s.sense.supply = .cut) ∧ ∀ c, (s.ch c).state = .cut ↔ s.cuts.isEmpty = false

/-- What a run does to the cut: the causes and the channels go together, and ISOLATE follows its input. -/
def State.KeepsCut (s t : State) : Prop :=
  (s.CutTogether → t.CutTogether) ∧ (s.cuts.isolate = s.pins.isolate → t.cuts.isolate = t.pins.isolate)

theorem State.CutKept.still (cuts : t.cuts = s.cuts) (sense : t.sense = s.sense) (pins : t.pins = s.pins)
    (states : ∀ c, (t.ch c).state = .cut ↔ (s.ch c).state = .cut) : s.CutKept t :=
  ⟨cuts, by rw [sense], by rw [pins], states⟩

theorem State.CutKept.keepsCut (h : s.CutKept t) : s.KeepsCut t := by
  obtain ⟨cuts, supply, isolate, states⟩ := h
  refine ⟨fun ⟨low, dark⟩ => ⟨?_, fun c => ?_⟩, fun same => ?_⟩
  · rw [cuts, supply, low]
  · rw [states, cuts, dark]
  · rw [cuts, isolate, same]

theorem ChState.Goes.uncut {cls : Cls} {old st : ChState} (h : ChState.Goes cls old st) : old ≠ .cut ∧ st ≠ .cut := by
  cases st with
  | off => exact ⟨h.2, by decide⟩
  | cut => exact h.elim
  | on | shed => simp_all [ChState.Goes]
  | inrush | requested => rcases h.2 with e | e | e <;> simp [e]
  | tripped | latched => rcases h with e | e <;> simp [e]

theorem enter_cutKept {c : Chan} {st : ChState} (old : (s.ch c).state ≠ .cut) (new : st ≠ .cut) (r : ShedReason) :
    s.CutKept (enter c st r s) := by
  have kept := enter_kept c s st r
  refine .still kept.cuts kept.sense kept.pins fun d => ?_
  rw [enter_ch]
  split
  next same =>
    subst same
    exact iff_of_false new old
  next => rfl

/-- The beginning of a cut takes every channel to CUT (R19). -/
theorem cutBegins_ch (s : State) (c : Chan) : (cutBegins s).ch c = (s.ch c).enter .cut .none (s.cfg c).window :=
  forChans_ch (g := fun c x => x.enter .cut .none (s.cfg c).window)
    (fun e t ht => ⟨(enter_blank e _ _ t).trans ht, fun d => by rw [enter_ch, cfg_of_blank ht]⟩) c

/-- The end of a cut takes every channel in CUT to OFF and takes its demand again (R20). -/
theorem cutEnds_ch (s : State) (c : Chan) :
    (cutEnds s).ch c = if (s.ch c).state = .cut then (s.ch c).retaken (s.cfg c) else s.ch c :=
  forChans_ch (g := fun c x => if x.state = .cut then x.retaken (s.cfg c) else x)
    (fun e t ht => by
      split
      · exact ⟨(retake_blank e t).trans ht, fun d => by rw [retake_ch, cfg_of_blank ht]⟩
      · exact ⟨ht, fun d => by split <;> simp_all⟩) c

theorem Channel.wanted_uncut (x : Channel) (k : ChannelConfig) : (x.wanted k).state ≠ .cut := by
  unfold Channel.wanted
  split <;> simp [Channel.enter, Channel.recompute]

theorem Channel.retaken_uncut (x : Channel) (k : ChannelConfig) : (x.retaken k).state ≠ .cut := by
  unfold Channel.retaken
  split
  · exact Channel.wanted_uncut _ k
  · simp [Channel.enter, Channel.recompute]

theorem cutBegins_kept (s : State) : s.KeptByParts (cutBegins s) := forChans_kept (fun c u => enter_kept c u _ _) s

theorem retake_kept (c : Chan) (s : State) : s.KeptByParts (retake c s) := by
  unfold retake
  exact (enter_kept c s _ _).trans (ite_kept (switchOn_kept c _))

theorem cutEnds_kept (s : State) : s.KeptByParts (cutEnds s) := forChans_kept (fun c u => ite_kept (retake_kept c u)) s

/-- A change of the cut causes moves the causes, and the rest as one event at the channels (R19, R20). -/
theorem changeCauses_kept (x : CutCauses) (s : State) : (s.setCauses x).KeptByParts (changeCauses x s) := by
  unfold changeCauses
  extract_lets s1
  split_ifs
  · exact cutBegins_kept s1
  · exact cutEnds_kept s1
  · exact .refl s1

theorem changeCauses_states {x : CutCauses} (dark : ∀ c, (s.ch c).state = .cut ↔ s.cuts.isEmpty = false) (c : Chan) :
    ((changeCauses x s).ch c).state = .cut ↔ x.isEmpty = false := by
  unfold changeCauses
  extract_lets s1
  have state : s1.ch c = s.ch c := rfl
  split_ifs with begins ends
  · simp only [Bool.and_eq_true, Bool.not_eq_true'] at begins
    rw [cutBegins_ch]
    exact iff_of_true rfl begins.2
  · simp only [Bool.and_eq_true, Bool.not_eq_true'] at ends
    rw [cutEnds_ch, state, if_pos ((dark c).mpr ends.1)]
    exact iff_of_false (Channel.retaken_uncut _ _) (by simp [ends.2])
  · rw [state, dark c]
    cases hs : s.cuts.isEmpty <;> cases hx : x.isEmpty <;> simp_all

theorem State.Recuts.keepsCut {x : CutCauses} (h : s.Recuts u x) : s.KeepsCut (changeCauses x u) := by
  have kept := changeCauses_kept x u
  have causes : u.cuts = s.cuts := by rw [h.same]
  have channels (c : Chan) : u.ch c = s.ch c := ch_congr (by rw [h.same]) c
  refine ⟨fun ⟨low, dark⟩ => ⟨?_, fun c => ?_⟩, fun same => ?_⟩
  · rw [kept.cuts, kept.sense]
    exact h.supply low
  · rw [changeCauses_states (fun d => by rw [channels, causes, dark]) c, kept.cuts]
    rfl
  · rw [kept.cuts, kept.pins]
    exact h.isolate same

theorem State.Talks.keepsCut (h : s.Talks t) : s.KeepsCut t :=
  State.CutKept.keepsCut (.still (by rw [h]) (by rw [h]) (by rw [h]) fun c => by rw [ch_congr (s := s) (t := t) (by rw [h])])

/-- Every run keeps the cut rules. -/
theorem Runs.keepsCut (h : Runs s t) : s.KeepsCut t := by
  induction h with
  | refl s => exact ⟨id, id⟩
  | trans _ _ h g => exact ⟨g.1 ∘ h.1, g.2 ∘ h.2⟩
  | beside h => exact State.CutKept.keepsCut ⟨h.cuts, h.supply, h.isolate, fun c => by rw [ch_congr h.channels]⟩
  | tally h =>
    exact State.CutKept.keepsCut (.still (by rw [h.same]) (by rw [h.same]) (by rw [h.same]) fun c => by rw [h.state])
  | goes c st r h => exact (enter_cutKept h.uncut.1 h.uncut.2 r).keepsCut
  | recut h => exact h.keepsCut
  | handsOver | offers | loses | listens | counts => exact State.Talks.keepsCut rfl
  | queuesMark number => exact (queueMark_talks _ number).keepsCut
  | withdrawsMark => exact (withdrawMark_talks _).keepsCut
  | reports item arg => exact (sendReport_talks _ item arg).keepsCut
  | leavesMuted => exact (leaveMuted_talks _).keepsCut
  | completes => exact (completeFrame_talks _).keepsCut
  | selects => exact (select_talks _).keepsCut
  | refuses x => exact (refuse_talks x _).keepsCut
  | @admits s u x _ _ _ _ ih =>
    have held : s.Talks (holdClaim x s) := rfl
    have granted : u.KeepsCut (grant x.chan u) := by
      unfold grant
      split
      next waits => exact (enter_cutKept (by simp [waits]) (by decide) _).keepsCut
      next => exact ⟨id, id⟩
    exact ⟨granted.1 ∘ ih.1 ∘ held.keepsCut.1, granted.2 ∘ ih.2 ∘ held.keepsCut.2⟩

/-! ### Reset values until load end -/

theorem loadEnd_isLoaded (buffer : List Byte) (din : DinLevels) (s : State) : (loadEnd buffer din s).isLoaded = true := by
  rw [(loadEnd_runs s buffer din).isLoaded]
  simp [handOut, State.isLoaded]

theorem State.HeldAtReset.queue (held : s.HeldAtReset) (q : List Instr) : State.HeldAtReset { s with pending := q } :=
  fun waits => congrArg (fun x : State => { x with pending := q }) (held waits)

/-- Until load end the reset values stand (R161). -/
theorem step_keeps_heldAtReset (held : s.HeldAtReset) (h : step s = .next t) : t.HeldAtReset := by
  refine step_keeps (P := State.HeldAtReset) (fun _ q h => h.queue q) (fun s t taken run h waits => ?_)
    (fun s loaded _ _ _ waits => ?_) (fun s _ => rfl) (fun s n phase h _ => ?_) (fun s high waits h _ => ?_)
    (fun s buffer din _ _ waits => ?_) held h
  · rcases taken with loaded | rfl
    · exact absurd (run.isLoaded.symm.trans waits) (by simp [loaded])
    · have still : s.modulator.running = false := by rw [h (run.isLoaded.symm.trans waits)]; rfl
      have same : tick s = s := if_neg (by simp [still])
      rw [same] at waits ⊢
      exact h waits
  · exact absurd (loaded.symm.trans waits) (by decide)
  · have unloaded : s.isLoaded = false := by simp [State.isLoaded, phase]
    have known := congrArg (fun x : State => x.setLoader { x.loader with station := n, phase := .reading }) (h unloaded)
    exact known
  · exact congrArg (fun x : State => x.setPins { x.pins with isolate := high }) (h waits)
  · exact absurd ((loadEnd_isLoaded buffer din s).symm.trans waits) (by decide)

/-- A rule that reset values meet whatever the Loader, the input levels and the queue hold, and that runs, an entry to MUTED and load
end keep, every step keeps. -/
theorem step_keeps_held {P : State → Prop} (queue : ∀ s q, P s → P { s with pending := q })
    (runs : ∀ s t, Runs s t → P s → P t)
    (mutes : ∀ s : State, s.isLoaded = true → s.link.onLine.isSome = true → 120 ≤ s.link.txErr → P s →
      P (enterMuted (s.setLink { s.link.attemptLost with txErr := s.link.txErr + 8 })))
    (reset : ∀ loader pins pending, loader.phase ≠ .loaded → loader.config = none →
      P { State.reset with loader := loader, pins := pins, pending := pending })
    (loads : ∀ s : State, s.HeldAtReset → s.isLoaded = false → ∀ buffer din, P (loadEnd buffer din s))
    (held : s.HeldAtReset) (hs : P s) (h : step s = .next t) : P t := by
  rcases step_cases h with ⟨-, rfl⟩ | ⟨i, rest, -, taken⟩
  · exact runs s _ (tick_runs s) hs
  · obtain ⟨u, same, comes⟩ := exec_comes i { s with pending := rest }
    cases same.symm.trans taken
    have hs := queue s rest hs
    have held := held.queue rest
    generalize ({ s with pending := rest } : State) = s at hs held comes
    cases comes with
    | runs _ run => exact runs _ _ run hs
    | mutes loaded line count => exact mutes _ loaded line count hs
    | resets => exact reset _ _ _ (by decide) rfl
    | still => exact hs
    | begins phase n =>
      have known := held (by simp [State.isLoaded, phase])
      have config : s.loader.config = none := by rw [known]; rfl
      rw [show s.setLoader _ = _ from congrArg (·.setLoader { s.loader with station := n, phase := .reading }) known]
      exact reset _ _ _ (by simp) config
    | noted waits high =>
      have known := held waits
      have config : s.loader.config = none := by rw [known]; rfl
      rw [show s.setPins _ = _ from congrArg (·.setPins { s.pins with isolate := high }) known]
      exact reset _ _ _ (by simpa [State.isLoaded] using waits) rfl
    | loads reading buffer din => exact loads _ held (by simp [State.isLoaded, reading]) buffer din

/-- At the end of the load the ISOLATE level is taken (R21, R169). -/
theorem takeIsolateLevel_isolate (h : s.cuts.isolate = false) :
    (takeIsolateLevel s).cuts.isolate = (takeIsolateLevel s).pins.isolate := by
  unfold takeIsolateLevel
  split
  next high =>
    have kept := changeCauses_kept { s.cuts with isolate := true } s
    rw [setIsolateCause, kept.cuts, kept.pins]
    exact high.symm
  next low =>
    rw [h]
    exact (Bool.eq_false_of_not_eq_true low).symm

/-- Before load end no cause stands and no channel is in CUT. -/
theorem State.HeldAtReset.cutTogether (held : s.HeldAtReset) (h : s.isLoaded = false) (buffer : List Byte) :
    (handOut buffer s).CutTogether := by
  have cuts : s.cuts = State.reset.cuts := by rw [held h]
  have sense : s.sense = State.reset.sense := by rw [held h]
  refine ⟨?_, fun c => ?_⟩
  · show s.cuts.supply = true ↔ s.sense.supply = .cut
    rw [cuts, sense]
    decide
  · rw [handOut_ch, held.ch h, show (handOut buffer s).cuts = _ from cuts]
    decide +revert

/-- Load end takes the ISOLATE level with the causes (R21, R169). -/
theorem loadEnd_cutRuled (held : s.HeldAtReset) (h : s.isLoaded = false) (buffer : List Byte) (din : DinLevels) :
    (loadEnd buffer din s).CutRuled := by
  have together := (loadEnd_runs s buffer din).keepsCut.1 (held.cutTogether h buffer)
  have none : (startPeriods din (handOut buffer s)).cuts.isolate = false := by
    have cuts : s.cuts = State.reset.cuts := by rw [held h]
    simp [startPeriods, loadDuties, handOut, cuts, State.reset]
  have isolated := ((firstResolution_runs (takeIsolateLevel (startPeriods din (handOut buffer s)))).trans
    (Runs.listens.trans (refreshFault_runs _))).keepsCut.2 (takeIsolateLevel_isolate none)
  exact ⟨together.1, fun _ => isolated, together.2⟩

end

end Sys2Proof.Machine

namespace Sys2Proof
open Machine

/-- Settles O53: the causes and the channels in CUT move together, and load end takes the ISOLATE level. -/
theorem stepsKeepTheCutRules : Obligations.StepsKeepTheCutRules := by
  intro s t held cut h
  refine step_keeps_held (P := State.CutRuled) (fun _ _ h => h) (fun s t run h => ?_) (fun s _ _ _ h => h) (fun l p q phase _ => ?_)
    (fun s held waits buffer din => loadEnd_cutRuled held waits buffer din) held cut h
  · obtain ⟨low, isolate, dark⟩ := h
    have kept := run.keepsCut
    obtain ⟨low', dark'⟩ := kept.1 ⟨low, dark⟩
    exact ⟨low', fun loaded => kept.2 (isolate (run.isLoaded ▸ loaded)), dark'⟩
  · have causes : State.reset.cuts.supply = true ↔ State.reset.sense.supply = .cut := by decide
    have dark (c : Chan) : (State.reset.ch c).state = .cut ↔ State.reset.cuts.isEmpty = false := by
      rw [reset_ch]
      decide
    refine ⟨causes, fun loaded => ?_, dark⟩
    simp [State.isLoaded, phase] at loaded

end Sys2Proof


/-! The counters through every step: what a change of state does to the Scheduler's amounts, and the ranges kept by every run (O57). -/

namespace Sys2Proof.Machine

/-- The Scheduler's counters stand inside their ranges (R138, R148, R149). -/
structure State.SchedInRange (s : State) : Prop where
  announceHold : s.sched.announceHold ≤ 16
  listen : s.sched.listen ≤ 2
  deferral : s.sched.deferral ≤ 5
  rotation : s.sched.rotation ≤ s.params.rotationN
  announceAmount : s.sched.announceAmount ≤ 4095

/-- The configuration and the counts of every channel stand inside their ranges. -/
def State.ChannelsInRange (s : State) : Prop :=
  ∀ c, (s.cfg c).window ≤ 15 ∧ (s.cfg c).retryLimit ≤ 7 ∧ (s.ch c).CountsInRange

section
variable {s t u : State}

theorem countersInRange_iff : s.CountersInRange ↔ s.ChannelsInRange ∧ s.BlocksInRange ∧ s.SchedInRange := by
  constructor
  · rintro ⟨channels, low, ages, store, pub, hold, step, number, completed, rx, silence, good, clash, settle, listen, deferral,
      rotation, amount, overruns⟩
    exact ⟨channels, ⟨low, ages, store, pub, step, number, completed, rx, silence, good, clash, settle, overruns⟩,
      hold, listen, deferral, rotation, amount⟩
  · rintro ⟨channels, b, x⟩
    exact ⟨channels, b.lowSamples, b.ages, b.store, b.pubCount, x.announceHold, b.step, b.number, b.completed, b.rxErr, b.silence,
      b.good, b.clash, b.settle, x.listen, x.deferral, x.rotation, x.announceAmount, b.overruns⟩

/-! ### The announce record -/

theorem surgeAmount_congr (cfg : ∀ c, t.cfg c = s.cfg c) (state : ∀ c, (t.ch c).state = (s.ch c).state) :
    t.surgeAmount = s.surgeAmount := by
  have same : t.surging = s.surging := funext fun c => by simp only [State.surging, cfg, state]
  simp only [State.surgeAmount, same, cfg]

theorem surgeHold_congr (cfg : ∀ c, t.cfg c = s.cfg c) (ch : ∀ c, t.ch c = s.ch c) : t.surgeHold = s.surgeHold := by
  have same : t.surging = s.surging := funext fun c => by simp only [State.surging, cfg, ch]
  simp only [State.surgeHold, same, ch]

theorem surgeAmount_le (s : State) : s.surgeAmount ≤ 4095 := Nat.min_le_left _ _

theorem foldl_max_le {α : Type} {f : α → Nat} {n : Nat} {l : List α} (h : ∀ a ∈ l, f a ≤ n) {m : Nat} (hm : m ≤ n) :
    l.foldl (fun m a => max m (f a)) m ≤ n := by
  induction l generalizing m with
  | nil => exact hm
  | cons a rest ih => exact ih (fun b hb => h b (List.mem_cons_of_mem a hb)) (max_le hm (h a (by simp)))

/-- The reservation holds for the longest window and one epoch (R149). -/
theorem surgeHold_le (h : s.ChannelsInRange) : s.surgeHold ≤ 16 :=
  foldl_max_le (fun c _ => Nat.succ_le_succ (h c).2.2.1) (Nat.zero_le 16)

/-- A change of state of a class 0 channel to or from INRUSH takes the announce record afresh (R149). -/
theorem notices_announce (c : Chan) (s : State) (old st : ChState) :
    (notices c old st s).sched.announceAmount =
      (if (s.cfg c).cls = 0 ∧ (old = .inrush ∨ st = .inrush) then s.surgeAmount else s.sched.announceAmount) ∧
    (notices c old st s).sched.announceHold =
      (if (s.cfg c).cls = 0 ∧ (old = .inrush ∨ st = .inrush) then s.surgeHold else s.sched.announceHold) := by
  have left : (leftQueue c s).sched.announceAmount = s.sched.announceAmount ∧
      (leftQueue c s).sched.announceHold = s.sched.announceHold := by
    simp only [leftQueue]
    split
    · simp
    · split
      · split <;> simp
      · simp
  have amount := surgeAmount_congr (s := s) (t := leftQueue c s) (by simp) (by simp)
  have hold := surgeHold_congr (s := s) (t := leftQueue c s) (by simp) (by simp)
  obtain ⟨leftAmount, leftHold⟩ := left
  unfold notices
  extract_lets s1 s2 s3
  by_cases zero : (s.cfg c).cls = 0
  · by_cases begins : st = .inrush
    · subst begins
      simp [s1, s2, s3, zero, inrushBegun_sched]
    · cases old <;> by_cases waits : st = .requested <;>
        simp [s1, s2, s3, begins, waits, inrushEnded, zero, announceLowered_sched, joined, leftAmount, leftHold]
  · cases old <;> cases st <;> simp [s1, s2, s3, inrushEnded, zero, surgeOver_sched, joined, leftAmount, leftHold]

/-! ### Ranges kept -/

theorem State.BlocksInRange.of_blank (h : t.blank = s.blank) (g : s.BlocksInRange) : t.BlocksInRange := by
  obtain ⟨timer, signal, peers, -, budget, -, -, diag, link⟩ := keeps_of_blank h
  have sense := sense_of_blank h
  have modulator := modulator_of_blank h
  constructor
  · rw [sense]; exact g.lowSamples
  · exact fun p => peer_congr peers p ▸ g.ages p
  · rw [signal]; exact g.store
  · rw [signal]; exact g.pubCount
  · rw [modulator]; exact g.step
  · rw [timer]; exact g.number
  · rw [timer]; exact g.completed
  · rw [link]; exact g.rxErr
  · rw [link]; exact g.silence
  · rw [link]; exact g.good
  · rw [link]; exact g.clash
  · rw [budget]; exact g.settle
  · rw [diag]; exact g.overruns


theorem State.ChannelsInRange.still (cfg : ∀ c, t.cfg c = s.cfg c) (ch : ∀ c, t.ch c = s.ch c) (h : s.ChannelsInRange) :
    t.ChannelsInRange := fun c => by rw [cfg, ch]; exact h c

/-- Where neither the Scheduler's counters nor the configuration move. -/
theorem State.SchedInRange.still (loader : t.loader = s.loader) (counts : s.sched.sameCounts t.sched)
    (amount : t.sched.announceAmount ≤ 4095) (hold : t.sched.announceHold ≤ 16) (h : s.SchedInRange) : t.SchedInRange := by
  obtain ⟨rotation, deferral, listen⟩ := counts
  exact ⟨hold, listen ▸ h.listen, deferral ▸ h.deferral, by rw [rotation, params_congr loader]; exact h.rotation, amount⟩

/-- An operation that leaves the channels, the configuration and the Scheduler's counters. -/
theorem State.CountersInRange.still (channels : t.channels = s.channels) (loader : t.loader = s.loader)
    (blocks : s.BlocksInRange → t.BlocksInRange) (counts : s.sched.sameCounts t.sched)
    (announce : t.sched.announceAmount = s.sched.announceAmount ∧ t.sched.announceHold = s.sched.announceHold)
    (h : s.CountersInRange) : t.CountersInRange := by
  obtain ⟨ch, b, x⟩ := countersInRange_iff.mp h
  exact countersInRange_iff.mpr ⟨ch.still (cfg_congr loader) (ch_congr channels), blocks b,
    x.still loader counts (announce.1 ▸ x.announceAmount) (announce.2 ▸ x.announceHold)⟩

theorem Channel.CountsInRange.enter {x : Channel} (h : x.CountsInRange) (st : ChState) (r : ShedReason) {window : Nat}
    (hw : window ≤ 15) : (x.enter st r window).CountsInRange := by
  obtain ⟨-, count, opens, epochs, timer, attempts⟩ := h
  have zero {p : Prop} [Decidable p] {n m : Nat} (h : n ≤ m) : (if p then 0 else n) ≤ m := by split <;> omega
  refine ⟨?_, zero count, zero opens, zero epochs, fun n => ?_, attempts⟩
  · simp only [Channel.enter, Channel.recompute]
    split <;> omega
  · simp only [Channel.enter, Channel.recompute]
    split
    · exact nofun
    · exact timer n

/-- Every change of state keeps the counters in range. -/
theorem State.CountersInRange.enter (h : s.CountersInRange) (c : Chan) (st : ChState) (r : ShedReason) :
    (enter c st r s).CountersInRange := by
  obtain ⟨ch, b, x⟩ := countersInRange_iff.mp h
  have set : (s.setCh c ((s.ch c).enter st r (s.cfg c).window)).ChannelsInRange := fun d => by
    rw [State.setCh_cfg, State.setCh_ch]
    split
    next e => exact ⟨(ch d).1, (ch d).2.1, e ▸ (ch c).2.2.enter st r (ch c).1⟩
    next => exact ch d
  obtain ⟨amount, hold⟩ := notices_announce c (s.setCh c ((s.ch c).enter st r (s.cfg c).window)) (s.ch c).state st
  refine countersInRange_iff.mpr ⟨set.still (by simp [Sys2Proof.Machine.enter]) (by simp [Sys2Proof.Machine.enter]),
    b.of_blank (enter_blank c st r s),
    State.SchedInRange.still (s := s) (by simp) (notices_counts c (s.setCh c _) (s.ch c).state st) ?_ ?_ x⟩
  · rw [Sys2Proof.Machine.enter, amount]
    split
    · exact surgeAmount_le _
    · exact x.announceAmount
  · rw [Sys2Proof.Machine.enter, hold]
    split
    · exact surgeHold_le set
    · exact x.announceHold

theorem forChans_keeps {P : State → Prop} {f : Chan → State → State} (h : ∀ c s, P s → P (f c s)) (hs : P s) :
    P (forChans f s) := by
  unfold forChans
  induction allChans generalizing s with
  | nil => exact hs
  | cons c rest ih => exact ih (h c s hs)

theorem State.CountersInRange.switchOn (h : s.CountersInRange) (c : Chan) : (switchOn c s).CountersInRange := by
  unfold Sys2Proof.Machine.switchOn
  split <;> exact h.enter c _ _

theorem State.CountersInRange.retake (h : s.CountersInRange) (c : Chan) : (retake c s).CountersInRange := by
  unfold Sys2Proof.Machine.retake
  extract_lets s1
  have freed : s1.CountersInRange := h.enter c _ _
  split
  · exact freed.switchOn c
  · exact freed

theorem State.CountersInRange.changeCauses (h : s.CountersInRange) (x : CutCauses) : (changeCauses x s).CountersInRange := by
  unfold Sys2Proof.Machine.changeCauses cutBegins cutEnds
  extract_lets s1
  have noted : s1.CountersInRange := h
  split_ifs
  · exact forChans_keeps (P := State.CountersInRange) (fun c s h => h.enter c _ _) noted
  · refine forChans_keeps (P := State.CountersInRange) (fun c s h => ?_) noted
    split
    · exact h.retake c
    · exact h
  · exact noted

/-! ### Ranges through a run -/

/-- The counters of the Link Controller stand. -/
structure LinkController.SameCounts (l m : LinkController) : Prop where
  rxErr : m.rxErr = l.rxErr := by rfl
  silence : m.silence = l.silence := by rfl
  good : m.good = l.good := by rfl
  clash : m.clash = l.clash := by rfl

theorem LinkController.sameCounts_of_blank {l m : LinkController} (h : m.blank = l.blank) : l.SameCounts m := by
  simp only [LinkController.blank, LinkController.mk.injEq] at h
  constructor <;> simp [h]

theorem LinkController.SameCounts.trans {l m n : LinkController} (h : l.SameCounts m) (g : m.SameCounts n) : l.SameCounts n :=
  ⟨g.rxErr.trans h.rxErr, g.silence.trans h.silence, g.good.trans h.good, g.clash.trans h.clash⟩

theorem LinkController.attemptLost_sameCounts (l : LinkController) : l.SameCounts l.attemptLost := by
  unfold LinkController.attemptLost
  split
  · exact {}
  next slot _ =>
    refine .trans (m := (l.setSlot slot (l.afterLoss slot)).offLine) {} (LinkController.sameCounts_of_blank ?_)
    unfold LinkController.pairAfterLoss
    split
    · split
      · extract_lets cleared
        split <;> simp [cleared]
      · rfl
    · split <;> simp
    · rfl

/-- No counter of any block moves. -/
structure State.CountsStand (s t : State) : Prop where
  channels : t.channels = s.channels := by rfl
  loader : t.loader = s.loader := by rfl
  sense : t.sense = s.sense := by rfl
  signal : t.signal = s.signal := by rfl
  peers : t.peers = s.peers := by rfl
  modulator : t.modulator = s.modulator := by rfl
  number : t.timer.number = s.timer.number := by rfl
  completed : t.timer.completed = s.timer.completed := by rfl
  settle : t.budget.settle = s.budget.settle := by rfl
  overruns : t.diag.overruns = s.diag.overruns := by rfl
  link : s.link.SameCounts t.link := by exact {}
  sched : s.sched.sameCounts t.sched := by exact ⟨rfl, rfl, rfl⟩
  amount : t.sched.announceAmount = s.sched.announceAmount := by rfl
  hold : t.sched.announceHold = s.sched.announceHold := by rfl

theorem State.CountsStand.trans (h : s.CountsStand t) (g : t.CountsStand u) : s.CountsStand u where
  channels := g.channels.trans h.channels
  loader := g.loader.trans h.loader
  sense := g.sense.trans h.sense
  signal := g.signal.trans h.signal
  peers := g.peers.trans h.peers
  modulator := g.modulator.trans h.modulator
  number := g.number.trans h.number
  completed := g.completed.trans h.completed
  settle := g.settle.trans h.settle
  overruns := g.overruns.trans h.overruns
  link := h.link.trans g.link
  sched := ⟨g.sched.1.trans h.sched.1, g.sched.2.1.trans h.sched.2.1, g.sched.2.2.trans h.sched.2.2⟩
  amount := g.amount.trans h.amount
  hold := g.hold.trans h.hold

theorem State.CountsStand.blocks (h : s.CountsStand t) (g : s.BlocksInRange) : t.BlocksInRange where
  lowSamples := h.sense ▸ g.lowSamples
  ages p := peer_congr h.peers p ▸ g.ages p
  store := h.signal ▸ g.store
  pubCount := h.signal ▸ g.pubCount
  step := h.modulator ▸ g.step
  number := h.number ▸ g.number
  completed := h.completed ▸ g.completed
  rxErr := h.link.rxErr ▸ g.rxErr
  silence := h.link.silence ▸ g.silence
  good := h.link.good ▸ g.good
  clash := h.link.clash ▸ g.clash
  settle := h.settle ▸ g.settle
  overruns := h.overruns ▸ g.overruns

theorem State.CountsStand.countersInRange (h : s.CountsStand t) (hs : s.CountersInRange) : t.CountersInRange :=
  hs.still h.channels h.loader h.blocks h.sched ⟨h.amount, h.hold⟩

/-- Frames alone have moved. -/
theorem handOver_countsStand (s : State) (f : Frame) : s.CountsStand (s.handOver f) :=
  { link := LinkController.sameCounts_of_blank (LinkController.handOver_blank s.link f) }

theorem withdraw_countsStand (s : State) (x : Slot) : s.CountsStand (s.withdraw x) :=
  { link := LinkController.sameCounts_of_blank (LinkController.withdraw_blank s.link x) }

theorem releaseClaim_countsStand (s : State) (x : Claim) : s.CountsStand (releaseClaim x s) := by
  unfold releaseClaim
  split
  · exact handOver_countsStand s _
  · exact {}

theorem queueMark_countsStand (s : State) (number : Nat) : s.CountsStand (queueMark number s) := by
  unfold queueMark
  split
  · exact {}
  · exact .trans (handOver_countsStand s _) {}

theorem withdrawMark_countsStand (s : State) : s.CountsStand (withdrawMark s) := by
  unfold withdrawMark
  split
  · exact .trans (withdraw_countsStand s _) {}
  · exact {}

theorem sendReport_countsStand (s : State) (item : Item) (arg : Byte) : s.CountsStand (sendReport item arg s) := by
  unfold sendReport
  split
  · exact {}
  · exact .trans (handOver_countsStand s _) {}

theorem announceAgain_countsStand (s : State) : s.CountsStand (announceAgain s) := by
  unfold announceAgain
  split
  · split
    · exact handOver_countsStand s _
    · exact {}
  · exact {}

theorem reserveCompleted_countsStand (s : State) (c : Chan) : s.CountsStand (reserveCompleted c s) := by
  unfold reserveCompleted
  split
  · exact handOver_countsStand s _
  · split
    · exact {}
    · exact {}

/-- The entry of a RESERVE of the station's own that has been sent stands (R107). -/
abbrev State.reserved (s : State) (ty : ResType) (cls : Cls) (c : Chan) (amount hold : Nat) : State :=
  takeReserve { station := s.own, ty := ty, cls := cls, chan := c, amount := amount, hold := hold }
    (s.setLink (s.link.setStanding ty true))

theorem reportCompletion_reserve (s : State) (ty : ResType) (cls : Cls) (c : Chan) (amount hold : Nat) :
    reportCompletion (.reserve ty cls c amount hold) s =
      if ty = .ordinary then reserveCompleted c (s.reserved ty cls c amount hold) else s.reserved ty cls c amount hold := rfl

theorem reportCompletion_countsStand (s : State) (f : Frame) : s.CountsStand (reportCompletion f s) := by
  cases f with
  | reserve ty cls c amount hold =>
    have noted : s.CountsStand (s.reserved ty cls c amount hold) := by cases ty <;> exact { link := {} }
    rw [reportCompletion_reserve]
    split
    · exact noted.trans (reserveCompleted_countsStand _ c)
    · exact noted
  | release ty c => cases ty <;> exact { link := {} }
  | _ => exact {}

theorem completeFrame_countsStand (s : State) : s.CountsStand (completeFrame s) := by
  unfold completeFrame
  split
  · exact .trans (t := s.setLink _) { link := {} } (reportCompletion_countsStand _ _)
  · exact {}

/-- A claim is selected, or the rotation count taken back (R140, R141). -/
theorem State.CountersInRange.select (h : s.CountersInRange) : (select s).CountersInRange := by
  unfold Sys2Proof.Machine.select
  split
  · split
    · extract_lets x s1 s2
      have turned : s1.CountersInRange := by
        unfold s1
        split
        · obtain ⟨ch, b, n⟩ := countersInRange_iff.mp h
          exact countersInRange_iff.mpr ⟨ch, { b with }, { n with rotation := Nat.zero_le _ }⟩
        · exact h
      have claimed : s2.CountersInRange := State.CountsStand.countersInRange (s := s1) {} turned
      split
      · exact (handOver_countsStand s2 _).countersInRange claimed
      · exact claimed
    · exact h
  · exact h

/-- The rotation count ends at its limit in force (R140). -/
theorem rotationAfter_le (rotation n : Nat) (cls : Cls) (lowerWaits : Bool) : rotationAfter rotation n cls lowerWaits ≤ n := by
  unfold rotationAfter
  split
  · exact Nat.min_le_right _ _
  · exact Nat.zero_le n

theorem State.CountersInRange.holdClaim (h : s.CountersInRange) (x : Claim) : (holdClaim x s).CountersInRange := by
  obtain ⟨ch, b, n⟩ := countersInRange_iff.mp h
  exact countersInRange_iff.mpr ⟨ch, { b with }, { n with rotation := rotationAfter_le _ _ _ _ }⟩

theorem State.CountersInRange.refuse (h : s.CountersInRange) (x : Claim) : (refuse x s).CountersInRange := by
  have released := (releaseClaim_countsStand s x).countersInRange h
  obtain ⟨ch, b, n⟩ := countersInRange_iff.mp released
  unfold Sys2Proof.Machine.refuse
  refine countersInRange_iff.mpr ⟨ch, { b with }, { n with deferral := ?_ }⟩
  exact Nat.add_le_add_left (Nat.le_of_lt_succ (Nat.mod_lt _ (by decide))) 2

theorem State.CountersInRange.listenAgain (h : s.CountersInRange) : s.listenAgain.CountersInRange := by
  obtain ⟨ch, b, n⟩ := countersInRange_iff.mp h
  exact countersInRange_iff.mpr ⟨ch, { b with }, { n with listen := le_refl 2 }⟩

theorem State.CountersInRange.leaveMuted (h : s.CountersInRange) : (leaveMuted s).CountersInRange := by
  unfold Sys2Proof.Machine.leaveMuted
  extract_lets _ s1
  have left : s1.CountersInRange := by
    obtain ⟨ch, b, n⟩ := countersInRange_iff.mp h
    exact countersInRange_iff.mpr ⟨ch, { b with good := Nat.zero_le _ }, { n with }⟩
  exact (announceAgain_countsStand _).countersInRange
    (State.CountsStand.countersInRange (s := s1.listenAgain) {} left.listenAgain)

theorem State.CountersInRange.schedulerEpoch (h : s.CountersInRange) : (schedulerEpoch s).CountersInRange := by
  obtain ⟨ch, b, n⟩ := countersInRange_iff.mp h
  exact countersInRange_iff.mpr ⟨ch, { b with },
    { n with announceHold := surgeHold_le ch
             listen := (Nat.sub_le _ 1).trans n.listen
             deferral := (Nat.sub_le _ 1).trans n.deferral }⟩

theorem Runs.countersInRange (h : Runs s t) (hs : s.CountersInRange) : t.CountersInRange := by
  induction h with
  | refl s => exact hs
  | trans _ _ h g => exact g (h hs)
  | beside h =>
    exact hs.still h.channels h.loader h.ranges (by rw [h.sched]; exact ⟨rfl, rfl, rfl⟩) (by rw [h.sched]; exact ⟨rfl, rfl⟩)
  | @tally s t h =>
    have loader : t.loader = s.loader := by rw [h.same]
    have sched : t.sched = s.sched := by rw [h.same]
    obtain ⟨ch, b, x⟩ := countersInRange_iff.mp hs
    refine countersInRange_iff.mpr ⟨fun c => ?_, b.of_blank (by rw [h.same]; rfl), ?_⟩
    · rw [cfg_congr loader]
      exact ⟨(ch c).1, (ch c).2.1, h.counts c (ch c).2.1 (ch c).2.2⟩
    · exact x.still loader (by rw [sched]; exact ⟨rfl, rfl, rfl⟩) (by rw [sched]; exact x.announceAmount)
        (by rw [sched]; exact x.announceHold)
  | goes c st r _ => exact hs.enter c st r
  | @recut s u x h =>
    refine State.CountersInRange.changeCauses ?_ x
    exact hs.still (by rw [h.same]) (by rw [h.same]) h.ranges (by rw [h.same]; exact ⟨rfl, rfl, rfl⟩)
      (by rw [h.same]; exact ⟨rfl, rfl⟩)
  | handsOver f => exact (handOver_countsStand _ f).countersInRange hs
  | queuesMark number => exact (queueMark_countsStand _ number).countersInRange hs
  | withdrawsMark => exact (withdrawMark_countsStand _).countersInRange hs
  | reports item arg => exact (sendReport_countsStand _ item arg).countersInRange hs
  | leavesMuted => exact hs.leaveMuted
  | offers => exact State.CountsStand.countersInRange {} hs
  | @loses s n =>
    obtain ⟨rx, silence, good, clash⟩ := LinkController.attemptLost_sameCounts s.link
    exact State.CountsStand.countersInRange (s := s) { link := ⟨rx, silence, good, clash⟩ } hs
  | listens => exact hs.listenAgain
  | counts => exact hs.schedulerEpoch
  | completes => exact (completeFrame_countsStand _).countersInRange hs
  | selects => exact hs.select
  | refuses x => exact hs.refuse x
  | @admits s u x _ _ _ _ ih =>
    have met := ih (hs.holdClaim x)
    unfold grant
    split
    · exact met.enter _ _ _
    · exact met

/-! ### The states a run begins in -/

theorem Channel.reset_countsInRange : Channel.reset.CountsInRange :=
  ⟨by decide, by decide, by decide, by decide, nofun, by decide⟩

theorem reset_blocksInRange : State.reset.BlocksInRange where
  lowSamples := by decide
  ages := by decide
  store := by decide
  pubCount := by decide
  step := by decide
  number := by decide
  completed := by decide
  rxErr := by decide
  silence := by decide
  good := by decide
  clash := by decide
  settle := by decide
  overruns := by decide

/-- The Store grows by the key of one binding record (R65). -/
def storeWith (own : Stn) (store : List StoreEntry) (b : Binding) : List StoreEntry :=
  if isOwnInput own b.source b.signal || store.any (·.hasKey b.source b.signal.val) then store
  else store ++ [{ source := b.source, signal := b.signal, value := 0, age := 255, state := .expired }]

theorem storeOf_eq_foldl (own : Stn) (table : List Binding) : storeOf own table = table.foldl (storeWith own) [] := rfl

/-- Every entry of a fresh Store is as old as an age can be (R65). -/
theorem storeOf_age (own : Stn) (table : List Binding) : ∀ e ∈ storeOf own table, e.age ≤ 255 := by
  rw [storeOf_eq_foldl]
  refine List.foldlRecOn table (storeWith own) (motive := fun store => ∀ e ∈ store, e.age ≤ 255) ?_ fun store h b _ => ?_
  · simp
  · unfold storeWith
    split
    · exact h
    · intro e he
      rcases List.mem_append.mp he with old | new
      · exact h e old
      · rw [List.mem_singleton.mp new]

theorem reset_countersInRange {loader : Loader} (h : loader.config = none) (pins : Pins) (pending : List Instr) :
    State.CountersInRange { State.reset with loader := loader, pins := pins, pending := pending } := by
  refine countersInRange_iff.mpr ⟨fun c => ?_, { reset_blocksInRange with },
    ⟨Nat.zero_le _, le_refl 2, Nat.zero_le _, Nat.zero_le _, Nat.zero_le _⟩⟩
  have limp : State.configuration { State.reset with loader := loader, pins := pins, pending := pending } = limpConfiguration := by
    rw [State.configuration]
    exact congrArg (·.getD limpConfiguration) h
  obtain ⟨-, -, -, -, -, window, -, -, -, -, -, retries⟩ := limpConfiguration_inRange.2 c
  have idle := reset_ch c ▸ Channel.reset_countsInRange
  refine ⟨?_, ?_, idle⟩ <;> rwa [State.cfg, limp]

theorem handOut_countersInRange (held : s.HeldAtReset) (h : s.isLoaded = false) (buffer : List Byte) :
    (handOut buffer s).CountersInRange := by
  have ranges : (handOut buffer s).configuration.InRange := by
    rw [handOut_configuration]
    split
    · exact imageConfiguration_inRange buffer
    · exact limpConfiguration_inRange
  have blocks : s.BlocksInRange := by
    rw [held h]
    exact { reset_blocksInRange with }
  have sched : s.sched = State.reset.sched := by rw [held h]
  have rotation : s.sched.rotation = 0 := by rw [sched]; rfl
  have scheduler : s.SchedInRange := by
    constructor
    case rotation => exact rotation ▸ Nat.zero_le _
    all_goals rw [sched]; decide
  refine countersInRange_iff.mpr ⟨fun c => ?_, { blocks with store := storeOf_age _ _ },
    { scheduler with rotation := rotation.le.trans (Nat.zero_le _) }⟩
  obtain ⟨-, -, -, -, -, window, -, -, -, -, -, retries⟩ := ranges.2 c
  rw [handOut_ch, held.ch h]
  exact ⟨window, retries, Channel.reset_countsInRange⟩

/-- The counters after an ABORT that mutes (R92). -/
theorem enterMuted_countersInRange (n : Nat) (h : s.CountersInRange) :
    (enterMuted (s.setLink { s.link.attemptLost with txErr := n })).CountersInRange := by
  obtain ⟨rx, silence, good, clash⟩ := LinkController.attemptLost_sameCounts s.link
  have lost : State.CountersInRange (s.setLink { s.link.attemptLost with txErr := n }) :=
    State.CountsStand.countersInRange (s := s) { link := ⟨rx, silence, good, clash⟩ } h
  obtain ⟨ch, b, x⟩ := countersInRange_iff.mp lost
  exact countersInRange_iff.mpr ⟨ch, { b with good := Nat.zero_le _ }, { x with }⟩

end

end Sys2Proof.Machine

namespace Sys2Proof
open Machine

/-- Settles O57: the reset values by the commands that act before load end, the ranges by every operation of a run. -/
theorem stepsKeepResetValuesAndRanges : Obligations.StepsKeepResetValuesAndRanges := by
  intro s t held h
  refine ⟨step_keeps_heldAtReset held h, fun ranges => ?_⟩
  exact step_keeps_held (P := State.CountersInRange) (fun _ _ h => h) (fun _ _ run => run.countersInRange)
    (fun s _ _ _ => enterMuted_countersInRange _) (fun l p q _ config => reset_countersInRange config p q)
    (fun s held waits buffer din => (loadEnd_runs s buffer din).countersInRange (handOut_countersInRange held waits buffer))
    held ranges h

end Sys2Proof


/-! The peer rules through every step (R99, R104): the Peer Draw Table and the Reservation List move beside the channels alone. -/

namespace Sys2Proof.Machine

section
variable {s t u : State}

/-- The peer rules stand over an operation. -/
def State.KeepsPeers (s t : State) : Prop := (s.PeersRuled → t.PeersRuled) ∧ (s.OnePerClaimant → t.OnePerClaimant)

theorem State.KeepsPeers.trans (h : s.KeepsPeers t) (g : t.KeepsPeers u) : s.KeepsPeers u := ⟨g.1 ∘ h.1, g.2 ∘ h.2⟩

theorem peersRuled_congr (peers : t.peers = s.peers) (loader : t.loader = s.loader) (h : s.PeersRuled) : t.PeersRuled := by
  obtain ⟨drawn, own⟩ := h
  refine ⟨fun p => ?_, ?_⟩
  · rw [peer_congr peers]
    exact drawn p
  · rw [peer_congr peers, own_congr loader, own]

theorem onePerClaimant_congr (h : t.reservations = s.reservations) (one : s.OnePerClaimant) : t.OnePerClaimant := fun p ty => by
  rw [h]
  exact one p ty

theorem State.KeepsPeers.still (peers : t.peers = s.peers) (loader : t.loader = s.loader)
    (reservations : t.reservations = s.reservations) : s.KeepsPeers t :=
  ⟨peersRuled_congr peers loader, onePerClaimant_congr reservations⟩

theorem keepsPeers_of_blank (h : t.blank = s.blank) : s.KeepsPeers t :=
  .still (peers_of_blank h) (loader_of_blank h) (reservations_of_blank h)

theorem queueMark_keepsPeers (number : Nat) (s : State) : s.KeepsPeers (queueMark number s) := by
  unfold queueMark
  split <;> exact .still rfl rfl rfl

theorem withdrawMark_keepsPeers (s : State) : s.KeepsPeers (withdrawMark s) := by
  unfold withdrawMark
  split <;> exact .still rfl rfl rfl

theorem sendReport_keepsPeers (item : Item) (arg : Byte) (s : State) : s.KeepsPeers (sendReport item arg s) := by
  unfold sendReport
  split <;> exact .still rfl rfl rfl

theorem reportCompletion_keepsPeers (f : Frame) (s : State) : s.KeepsPeers (reportCompletion f s) := by
  cases f with
  | reserve ty cls c amount hold =>
    have stands : s.KeepsPeers (s.reserved ty cls c amount hold) :=
      ⟨peersRuled_congr rfl rfl, fun one => onePerClaimant_takeReserve _ _ (onePerClaimant_congr rfl one)⟩
    rw [reportCompletion_reserve]
    split
    · exact stands.trans (keepsPeers_of_blank (reserveCompleted_blank c _))
    · exact stands
  | release ty c => exact ⟨peersRuled_congr rfl rfl, onePerClaimant_of_sublist s List.filter_sublist⟩
  | _ => exact .still rfl rfl rfl

theorem completeFrame_keepsPeers (s : State) : s.KeepsPeers (completeFrame s) := by
  unfold completeFrame
  split
  · refine State.KeepsPeers.trans ?_ (reportCompletion_keepsPeers _ _)
    exact .still rfl rfl rfl
  · exact .still rfl rfl rfl

theorem leaveMuted_keepsPeers (s : State) : s.KeepsPeers (leaveMuted s) := by
  unfold leaveMuted
  extract_lets _ s1
  exact .trans (t := s1.listenAgain.refreshInUse) (.still rfl rfl rfl) (keepsPeers_of_blank (announceAgain_blank _))

/-- Every run keeps the peer rules. -/
theorem Runs.keepsPeers (h : Runs s t) : s.KeepsPeers t := by
  induction h with
  | refl s => exact ⟨id, id⟩
  | trans _ _ h g => exact h.trans g
  | beside h => exact ⟨h.peers, h.claimants⟩
  | tally h => exact .still (by rw [h.same]) (by rw [h.same]) (by rw [h.same])
  | goes => exact keepsPeers_of_blank (enter_blank _ _ _ _)
  | @recut s u x h =>
    exact .trans (t := u) (.still (by rw [h.same]) (by rw [h.same]) (by rw [h.same])) (keepsPeers_of_blank (changeCauses_blank x u))
  | handsOver | offers | loses | listens | counts => exact .still rfl rfl rfl
  | queuesMark number => exact queueMark_keepsPeers number _
  | withdrawsMark => exact withdrawMark_keepsPeers _
  | reports item arg => exact sendReport_keepsPeers item arg _
  | leavesMuted => exact leaveMuted_keepsPeers _
  | completes => exact completeFrame_keepsPeers _
  | selects => exact keepsPeers_of_blank (select_blank _)
  | refuses x => exact keepsPeers_of_blank (refuse_blank x _)
  | @admits s u x _ _ _ _ ih =>
    exact ((keepsPeers_of_blank (holdClaim_blank x s)).trans ih).trans (keepsPeers_of_blank (grant_blank x.chan u))

/-- No peer has been heard and nothing is reserved. -/
theorem peersRuled_of_reset (peers : s.peers = State.reset.peers) (reservations : s.reservations = []) :
    s.PeersRuled ∧ s.OnePerClaimant := by
  have absent (p : Stn) : s.peer p = { presence := .absent, age := 255, draws := none } := by
    rw [peer_congr peers]
    decide +revert
  exact ⟨⟨fun p => by simp [absent], absent _⟩, fun p ty => by simp [reservations]⟩

theorem State.HeldAtReset.peersRuled (held : s.HeldAtReset) (h : s.isLoaded = false) (buffer : List Byte) :
    (handOut buffer s).PeersRuled ∧ (handOut buffer s).OnePerClaimant := by
  refine peersRuled_of_reset (s := handOut buffer s) ?_ ?_
  · show s.peers = _
    rw [held h]
  · show s.reservations = _
    rw [held h]
    rfl

end

end Sys2Proof.Machine

namespace Sys2Proof
open Machine

/-- Settles O56: the entries of the table and of the list move by their own rules, and nothing else touches them. -/
theorem stepsKeepThePeerRules : Obligations.StepsKeepThePeerRules := by
  intro s t held peers one h
  exact step_keeps_held (P := fun s => s.PeersRuled ∧ s.OnePerClaimant) (fun _ _ h => h)
    (fun _ _ run h => ⟨run.keepsPeers.1 h.1, run.keepsPeers.2 h.2⟩) (fun _ _ _ _ h => h)
    (fun _ _ _ _ _ => peersRuled_of_reset rfl rfl)
    (fun s held waits buffer din =>
      (held.peersRuled waits buffer).imp (loadEnd_runs s buffer din).keepsPeers.1 (loadEnd_runs s buffer din).keepsPeers.2)
    held ⟨peers, one⟩ h

end Sys2Proof


/-! The rules of the transmit slots, of report pending and of MUTED through every step (R87–R92, R154). -/

namespace Sys2Proof.Machine

/-! ### The slots -/

/-- What a slot holds after one is set. -/
@[simp] theorem Slots.get_set (x : Slots) (slot y : Slot) (f : Option Frame) :
    (x.set slot f).get y = if y = slot then f else x.get y := by
  rcases slot with - | (- | -) | (- | -) | - | - | - <;> rcases y with - | (- | -) | (- | -) | - | - | - <;> rfl

/-- A slot set to what it holds. -/
theorem Slots.set_get (x : Slots) (slot : Slot) : x.set slot (x.get slot) = x := by
  rcases slot with - | (- | -) | (- | -) | - | - | - <;> rfl

theorem LinkController.setSlot_none {l : LinkController} {x : Slot} (h : l.slots.get x = none) : l.setSlot x none = l := by
  rw [LinkController.setSlot, ← h, Slots.set_get]

theorem Slots.get_report (x : Slots) : x.get .report = x.report := rfl

theorem Slots.get_reset (y : Slot) : LinkController.reset.slots.get y = none := by
  rcases y with - | (- | -) | (- | -) | - | - | - <;> rfl

theorem LinkController.setSlot_get (l : LinkController) (x y : Slot) (f : Option Frame) :
    (l.setSlot x f).slots.get y = if y = x then f else l.slots.get y := Slots.get_set _ _ _ _

theorem LinkController.place_aside {l : LinkController} {f : Frame} (h : l.onLine = some f.slot) :
    l.place f = { l with heldAside := some f } := if_pos h

theorem LinkController.place_slot {l : LinkController} {f : Frame} (h : l.onLine ≠ some f.slot) :
    l.place f = l.setSlot f.slot (some f) := if_neg h

/-- The rules of one link: its slots (R87, R89, R90), report pending (R154) and MUTED (R91, R92). -/
structure LinkController.Ruled (l : LinkController) (report : Bool) : Prop where
  own : ∀ x f, l.slots.get x = some f → f.slot = x
  aside : ∀ f, l.heldAside = some f → l.onLine = some f.slot
  line : ∀ x, l.onLine = some x → (l.slots.get x).isSome = true
  withdrawn : l.onLine = none → l.lineWithdrawn = false
  paired : ∀ ty, l.onLine = some (.release ty) → l.heldAside.isSome = true → l.slots.get (.reserve ty) = none
  pending : report = true ↔ (l.slots.get .report).isSome = true
  reporting : l.onLine = some .report → l.heldAside = none ∧ l.lineWithdrawn = false
  silent : l.muted = true → l.slots = LinkController.reset.slots ∧ l.onLine = none ∧ report = false ∧ 128 ≤ l.txErr ∧ l.txErr ≤ 135
  heard : l.muted = false → l.txErr ≤ 127

/-- The rules of slots, report pending and MUTED at once. -/
theorem linkRuled_iff (s : State) : s.SlotsRuled ∧ s.ReportRuled ∧ s.MutedRuled ↔
    s.link.Ruled s.diag.reportPending ∧ (s.link.muted = true → s.timer.markPending = false) := by
  constructor
  · rintro ⟨⟨own, aside, line, withdrawn, paired⟩, ⟨pending, reporting⟩, silent, heard⟩
    refine ⟨⟨own, aside, line, withdrawn, paired, pending, reporting, fun h => ?_, heard⟩, fun h => (silent h).2.2.1⟩
    obtain ⟨slots, line, -, report, counts⟩ := silent h
    exact ⟨slots, line, report, counts⟩
  · rintro ⟨⟨own, aside, line, withdrawn, paired, pending, reporting, silent, heard⟩, mark⟩
    refine ⟨⟨own, aside, line, withdrawn, paired⟩, ⟨pending, reporting⟩, fun h => ?_, heard⟩
    obtain ⟨slots, line, report, counts⟩ := silent h
    exact ⟨slots, line, mark h, report, counts⟩

section
variable {l m : LinkController} {report : Bool}

/-- A slot that is not on the line is filled by a frame of its own or emptied. -/
theorem LinkController.Ruled.setSlot (h : l.Ruled report) (heard : l.muted = false) {x : Slot} (off : l.onLine ≠ some x)
    {f : Option Frame} (own : ∀ g, f = some g → g.slot = x)
    (paired : ∀ ty, x = .reserve ty → l.onLine = some (.release ty) → l.heldAside.isSome = true → f = none) :
    (l.setSlot x f).Ruled (if x = .report then f.isSome else report) where
  own y g hg := by
    rw [LinkController.setSlot_get] at hg
    split at hg
    next same => rw [own g hg, same]
    next => exact h.own y g hg
  aside := h.aside
  line y hy := by
    have other : y ≠ x := fun e => off (e ▸ hy)
    rw [LinkController.setSlot_get, if_neg other]
    exact h.line y hy
  withdrawn := h.withdrawn
  paired ty hl ha := by
    rw [LinkController.setSlot_get]
    split
    next same => exact paired ty same.symm hl ha
    next => exact h.paired ty hl ha
  pending := by
    rw [LinkController.setSlot_get]
    by_cases e : x = .report
    · simp [e]
    · rw [if_neg e, if_neg (Ne.symm e)]
      exact h.pending
  reporting := h.reporting
  silent muted := absurd (heard.symm.trans muted) (by decide)
  heard := h.heard

/-- A frame other than a report is placed. -/
theorem LinkController.Ruled.place (h : l.Ruled report) (heard : l.muted = false) {f : Frame} (other : f.slot ≠ .report)
    (release : ∀ ty, f.slot = .release ty → l.onLine = some (.release ty) → l.slots.get (.reserve ty) = none)
    (reserve : ∀ ty, f.slot = .reserve ty → l.onLine = some (.release ty) → l.heldAside = none) :
    (l.place f).Ruled report := by
  by_cases line : l.onLine = some f.slot
  · rw [LinkController.place_aside line]
    exact { h with
      aside := fun g hg => Option.some.inj hg ▸ line
      paired := fun ty hl _ => release ty (Option.some.inj (line.symm.trans hl)) hl
      reporting := fun hl => absurd (Option.some.inj (line.symm.trans hl)) other }
  · rw [LinkController.place_slot line]
    have set := h.setSlot heard line (f := some f) (fun g hg => Option.some.inj hg ▸ rfl) fun ty hx hl ha => by
      simp [reserve ty hx hl] at ha
    rwa [if_neg other] at set

/-- Nothing is held aside any more behind the slot on the line. -/
theorem LinkController.Ruled.dropAside (h : l.Ruled report) : LinkController.Ruled { l with heldAside := none } report :=
  { h with aside := nofun, paired := nofun, reporting := fun hl => ⟨rfl, (h.reporting hl).2⟩ }

/-- A slot other than the report's is emptied. -/
theorem LinkController.Ruled.empty (h : l.Ruled report) (heard : l.muted = false) {x : Slot} (off : l.onLine ≠ some x)
    (other : x ≠ .report) : (l.setSlot x none).Ruled report := by
  have set := h.setSlot heard off (f := none) nofun fun _ _ _ _ => rfl
  rwa [if_neg other] at set

theorem LinkController.Ruled.dropRelease (h : l.Ruled report) (heard : l.muted = false) (ty : ResType) :
    (l.dropRelease ty).Ruled report := by
  unfold LinkController.dropRelease
  split
  · exact h.dropAside
  next off => exact h.empty heard off (by simp)

/-- A frame handed over that is no report (R87–R90). -/
theorem LinkController.Ruled.handOver (h : l.Ruled report) {f : Frame} (other : f.slot ≠ .report) :
    (l.handOver f).Ruled report := by
  unfold LinkController.handOver
  split
  · exact h
  next heard =>
    replace heard : l.muted = false := Bool.eq_false_of_not_eq_true heard
    cases f with
    | reserve ty cls c amount hold =>
      refine (h.dropRelease heard ty).place ?_ other (by simp [Frame.slot]) fun ty' e hl => ?_
      · unfold LinkController.dropRelease
        split <;> exact heard
      · cases e
        by_cases line : l.onLine = some (.release ty)
        · rw [LinkController.dropRelease_onLine line]
        · rw [LinkController.dropRelease_offLine line] at hl
          exact absurd hl line
    | release ty c =>
      simp only [LinkController.placeRelease]
      split
      next waits =>
        simp only [LinkController.waiting, Bool.and_eq_true, decide_eq_true_eq] at waits
        have cleared := h.empty heard waits.2 (by simp)
        split
        · refine cleared.place heard other (fun ty' e _ => ?_) (by simp [Frame.slot])
          cases e
          simp [LinkController.setSlot_get]
        · exact cleared
      next idle =>
        refine h.place heard other (fun ty' e hl => ?_) (by simp [Frame.slot])
        cases e
        simpa [LinkController.waiting, hl] using idle
    | report => exact absurd rfl other
    | _ => exact h.place heard other (by simp [Frame.slot]) (by simp [Frame.slot])

theorem LinkController.Ruled.withdraw (h : l.Ruled report) {x : Slot} (other : x ≠ .report) : (l.withdraw x).Ruled report := by
  unfold LinkController.withdraw
  split
  next line =>
    exact { h with
      aside := nofun, paired := nofun
      withdrawn := fun e => by simp [line] at e
      reporting := fun e => absurd (Option.some.inj (line.symm.trans e)) other }
  next off =>
    cases heard : l.muted with
    | false => exact h.empty heard off other
    | true =>
      obtain ⟨slots, -⟩ := h.silent heard
      rwa [LinkController.setSlot_none (by rw [slots, Slots.get_reset])]

/-- The attempt has ended and its slot holds what is left of it (R89). -/
theorem LinkController.Ruled.offLine (h : l.Ruled report) {x : Slot} (line : l.onLine = some x) {f : Option Frame}
    (own : ∀ g, f = some g → g.slot = x) : ((l.setSlot x f).offLine).Ruled (if x = .report then f.isSome else report) where
  own y g hg := by
    rw [LinkController.offLine, LinkController.setSlot_get] at hg
    split at hg
    next same => rw [own g hg, same]
    next => exact h.own y g hg
  aside := nofun
  line := nofun
  withdrawn _ := rfl
  paired := nofun
  pending := by
    rw [LinkController.offLine, LinkController.setSlot_get]
    by_cases e : x = .report
    · simp [e]
    · rw [if_neg e, if_neg (Ne.symm e)]
      exact h.pending
  reporting := nofun
  silent muted := by
    have off := (h.silent muted).2.1
    simp [line] at off
  heard := h.heard

theorem LinkController.Ruled.heard_of_line (h : l.Ruled report) (line : l.onLine.isSome = true) : l.muted = false := by
  cases muted : l.muted with
  | false => rfl
  | true => simp [(h.silent muted).2.1] at line

theorem LinkController.Ruled.afterLoss_own (h : l.Ruled report) {x : Slot} (line : l.onLine = some x) (g : Frame)
    (hg : l.afterLoss x = some g) : g.slot = x := by
  unfold LinkController.afterLoss at hg
  split at hg
  next f aside =>
    rw [← Option.some.inj hg]
    exact (Option.some.inj (line.symm.trans (h.aside f aside))).symm
  next =>
    split at hg
    · exact absurd hg nofun
    · exact h.own x g hg

/-- A lost attempt moves the slots and the line alone (R89, R90). -/
theorem LinkController.attemptLost_eq {x : Slot} (line : l.onLine = some x) :
    l.attemptLost = { l with slots := l.attemptLost.slots, onLine := none, heldAside := none, lineWithdrawn := false } := by
  have paired (m : LinkController) (y : Slot) : m.pairAfterLoss y = { m with slots := (m.pairAfterLoss y).slots } := by
    unfold LinkController.pairAfterLoss
    split
    · split
      · extract_lets cleared
        split <;> rfl
      · rfl
    · split <;> rfl
    · rfl
  rw [LinkController.attemptLost, line]
  exact paired _ x

theorem LinkController.Ruled.pairAfterLoss (h : l.Ruled report) (heard : l.muted = false) (off : l.onLine = none) (x : Slot) :
    (l.pairAfterLoss x).Ruled report := by
  unfold LinkController.pairAfterLoss
  split
  next ty =>
    split
    · extract_lets cleared
      have emptied : cleared.Ruled report := h.empty heard (by simp [off]) (by simp)
      split
      · exact emptied
      · exact emptied.empty heard (by simp [cleared, LinkController.setSlot, off]) (by simp)
    · exact h
  next ty =>
    split
    · exact h.empty heard (by simp [off]) (by simp)
    · exact h
  next => exact h

/-- Lost contention keeps the rules (R89, R90). -/
theorem LinkController.Ruled.attemptLost (h : l.Ruled report) : l.attemptLost.Ruled report := by
  unfold LinkController.attemptLost
  split
  · exact h
  next x line =>
    have pending : (if x = .report then (l.afterLoss x).isSome else report) = report := by
      split
      next e =>
        obtain ⟨aside, kept⟩ := h.reporting (e ▸ line)
        rw [LinkController.afterLoss, aside, if_neg (by simp [kept]), e]
        exact (Bool.eq_iff_iff.mpr h.pending).symm
      next => rfl
    exact (pending ▸ h.offLine line (h.afterLoss_own line)).pairAfterLoss (h.heard_of_line (by simp [line])) rfl x

/-- What stands on the line is offered (R81). -/
theorem LinkController.Ruled.offer (h : l.Ruled report) (off : l.onLine = none) :
    LinkController.Ruled { l with onLine := l.offer } report := by
  have aside : l.heldAside = none := by
    cases e : l.heldAside with
    | none => rfl
    | some f => exact absurd (off.symm.trans (h.aside f e)) nofun
  exact { h with
    aside := fun f hf => absurd (aside.symm.trans hf) nofun
    line := fun x hx => by
      unfold LinkController.offer at hx
      split at hx
      · exact absurd hx nofun
      · exact List.find?_some (p := fun x => (l.slots.get x).isSome) hx
    withdrawn := fun _ => h.withdrawn off
    paired := fun _ _ ha => by simp [aside] at ha
    reporting := fun _ => ⟨aside, h.withdrawn off⟩
    silent := fun muted => by
      obtain ⟨slots, -, rest⟩ := h.silent muted
      exact ⟨slots, if_pos muted, rest⟩ }

end

/-! ### Through every operation -/

section
variable {s t u : State}

/-- The rules of the slots, of report pending and of MUTED. -/
def State.LinkRuled (s : State) : Prop :=
  s.link.Ruled s.diag.reportPending ∧ (s.link.muted = true → s.timer.markPending = false)

/-- The rules stand over an operation that moves neither report pending nor the own MARK. -/
structure State.KeepsLink (s t : State) : Prop where
  ruled : ∀ {report}, s.link.Ruled report → t.link.Ruled report
  muted : t.link.muted = s.link.muted := by rfl
  mark : t.timer.markPending = s.timer.markPending := by rfl
  report : t.diag.reportPending = s.diag.reportPending := by rfl

theorem State.KeepsLink.linkRuled (h : s.KeepsLink t) (hs : s.LinkRuled) : t.LinkRuled :=
  ⟨h.report ▸ h.ruled hs.1, fun muted => h.mark ▸ hs.2 (h.muted ▸ muted)⟩

theorem State.KeepsLink.still (link : t.link = s.link) (timer : t.timer = s.timer) (diag : t.diag = s.diag) : s.KeepsLink t :=
  ⟨fun h => link ▸ h, by rw [link], by rw [timer], by rw [diag]⟩

theorem State.KeepsLink.refl (s : State) : s.KeepsLink s := .still rfl rfl rfl

theorem State.KeepsLink.trans (h : s.KeepsLink t) (g : t.KeepsLink u) : s.KeepsLink u :=
  ⟨g.ruled ∘ h.ruled, g.muted.trans h.muted, g.mark.trans h.mark, g.report.trans h.report⟩

theorem ite_keepsLink {p : Prop} [Decidable p] (h : s.KeepsLink t) : s.KeepsLink (if p then t else s) := by
  split
  · exact h
  · exact .refl s

theorem LinkController.muted_of_blank {l m : LinkController} (h : m.blank = l.blank) : m.muted = l.muted := by
  simp only [LinkController.blank, LinkController.mk.injEq] at h
  tauto

theorem handOver_keepsLink (s : State) {f : Frame} (other : f.slot ≠ .report) : s.KeepsLink (s.handOver f) :=
  { ruled := fun h => h.handOver other, muted := LinkController.muted_of_blank (LinkController.handOver_blank _ _) }

theorem withdraw_keepsLink (s : State) {x : Slot} (other : x ≠ .report) : s.KeepsLink (s.withdraw x) :=
  { ruled := fun h => h.withdraw other, muted := LinkController.muted_of_blank (LinkController.withdraw_blank _ _) }

theorem releaseClaim_keepsLink (s : State) (x : Claim) : s.KeepsLink (releaseClaim x s) :=
  ite_keepsLink (handOver_keepsLink s (by simp [Frame.slot]))

theorem leftQueue_keepsLink (c : Chan) (s : State) : s.KeepsLink (leftQueue c s) := by
  unfold leftQueue
  extract_lets s1
  have left : s.KeepsLink s1 := .still rfl rfl rfl
  split
  · exact left
  · split
    · split
      · exact left.trans ((withdraw_keepsLink s1 (by simp)).trans (.still rfl rfl rfl))
      · exact left.trans ((releaseClaim_keepsLink s1 _).trans (.still rfl rfl rfl))
      · exact left.trans ((releaseClaim_keepsLink s1 _).trans (.still rfl rfl rfl))
    · exact left

theorem inrushEnded_keepsLink (c : Chan) (s : State) : s.KeepsLink (inrushEnded c s) := by
  unfold inrushEnded
  split
  · unfold announceLowered
    extract_lets s1
    have lowered : s.KeepsLink s1 := .still rfl rfl rfl
    split
    · exact lowered.trans (handOver_keepsLink s1 (by simp [Frame.slot]))
    · exact lowered
  · unfold surgeOver
    split
    · exact .refl s
    · exact ite_keepsLink ((releaseClaim_keepsLink s _).trans (.still rfl rfl rfl))

theorem inrushBegun_keepsLink (c : Chan) (s : State) : s.KeepsLink (inrushBegun c s) := by
  unfold inrushBegun
  extract_lets amount hold s1
  have raised : s.KeepsLink s1 := .still rfl rfl rfl
  split
  · exact raised.trans (handOver_keepsLink s1 (by simp [Frame.slot]))
  · exact raised

theorem notices_keepsLink (c : Chan) (old st : ChState) (s : State) : s.KeepsLink (notices c old st s) := by
  unfold notices
  extract_lets s1 s2 s3
  have left : s.KeepsLink s1 := ite_keepsLink (leftQueue_keepsLink c s)
  have ended : s1.KeepsLink s2 := ite_keepsLink (inrushEnded_keepsLink c s1)
  have joined : s2.KeepsLink s3 := ite_keepsLink (.still rfl rfl rfl)
  exact ((left.trans ended).trans joined).trans (ite_keepsLink (inrushBegun_keepsLink c s3))

theorem enter_keepsLink (c : Chan) (st : ChState) (r : ShedReason) (s : State) : s.KeepsLink (enter c st r s) := by
  have set : s.KeepsLink (s.setCh c ((s.ch c).enter st r (s.cfg c).window)) := .still rfl rfl rfl
  exact set.trans (notices_keepsLink c _ st _)

theorem forChans_keepsLink {f : Chan → State → State} (h : ∀ c s, State.KeepsLink s (f c s)) (s : State) :
    s.KeepsLink (forChans f s) := by
  unfold forChans
  induction allChans generalizing s with
  | nil => exact .refl s
  | cons c rest ih => exact (h c s).trans (ih _)

theorem switchOn_keepsLink (c : Chan) (s : State) : s.KeepsLink (switchOn c s) := by
  unfold switchOn
  split <;> exact enter_keepsLink c _ _ s

theorem retake_keepsLink (c : Chan) (s : State) : s.KeepsLink (retake c s) := by
  unfold retake
  exact (enter_keepsLink c _ _ s).trans (ite_keepsLink (switchOn_keepsLink c _))

theorem changeCauses_keepsLink (x : CutCauses) (s : State) : s.KeepsLink (changeCauses x s) := by
  unfold changeCauses
  extract_lets s1
  have noted : s.KeepsLink s1 := .still rfl rfl rfl
  split_ifs
  · exact noted.trans (forChans_keepsLink (fun c s => enter_keepsLink c _ _ s) s1)
  · exact noted.trans (forChans_keepsLink (fun c s => ite_keepsLink (retake_keepsLink c s)) s1)
  · exact noted

theorem grant_keepsLink (c : Chan) (s : State) : s.KeepsLink (grant c s) := ite_keepsLink (enter_keepsLink c _ _ s)

theorem select_keepsLink (s : State) : s.KeepsLink (select s) := by
  unfold select
  refine ite_keepsLink ?_
  split
  · extract_lets x s1 s2
    have turned : s.KeepsLink s1 := ite_keepsLink (.still rfl rfl rfl)
    have claimed : s.KeepsLink s2 := turned.trans (.still rfl rfl rfl)
    split
    · exact claimed.trans (handOver_keepsLink s2 (by simp [Frame.slot]))
    · exact claimed
  · exact .refl s

theorem refuse_keepsLink (x : Claim) (s : State) : s.KeepsLink (refuse x s) := by
  unfold refuse
  exact (releaseClaim_keepsLink s x).trans (.still rfl rfl rfl)

theorem announceAgain_keepsLink (s : State) : s.KeepsLink (announceAgain s) := by
  unfold announceAgain
  refine ite_keepsLink ?_
  split
  · exact handOver_keepsLink s (by simp [Frame.slot])
  · exact .refl s

/-- Operations beside the frames move no item of the rules. -/
theorem State.Beside.linkRuled (h : s.Beside t) (hs : s.LinkRuled) : t.LinkRuled := by
  obtain ⟨ruled, mark⟩ := hs
  have link := h.link
  generalize t.link.rxErr = rx, t.link.isolated = isolated, t.link.silence = silence, t.link.good = good,
    t.link.clash = clash at link
  refine ⟨?_, fun muted => ?_⟩
  · rw [link, h.reportPending]
    exact { ruled with }
  · rw [link] at muted
    cases e : t.timer.markPending with
    | false => rfl
    | true => exact (mark muted).symm.trans (h.markPending e) |>.symm

theorem queueMark_linkRuled (number : Nat) (hs : s.LinkRuled) : (queueMark number s).LinkRuled := by
  unfold queueMark
  split
  · exact hs
  next heard =>
    have handed := handOver_keepsLink s (f := .mark number) (by simp [Frame.slot])
    exact ⟨handed.ruled hs.1, fun muted => absurd (handed.muted ▸ muted) heard⟩

theorem withdrawMark_linkRuled (hs : s.LinkRuled) : (withdrawMark s).LinkRuled := by
  unfold withdrawMark
  extract_lets s1
  have withdrawn : s1.LinkRuled := (ite_keepsLink (withdraw_keepsLink s (by simp))).linkRuled hs
  exact ⟨withdrawn.1, fun _ => rfl⟩

/-- The report's slot is filled while nothing is pending (R154). -/
theorem LinkController.Ruled.reports {l : LinkController} (h : l.Ruled false) (heard : l.muted = false) {f : Frame}
    (slot : f.slot = .report) : (l.handOver f).Ruled true := by
  have empty : (l.slots.get .report).isSome = false :=
    Bool.eq_false_of_not_eq_true fun some => absurd (h.pending.mpr some) (by decide)
  have off : l.onLine ≠ some f.slot := fun line => by
    have filled := h.line _ line
    rw [slot, empty] at filled
    exact absurd filled (by decide)
  have placed : l.handOver f = l.setSlot f.slot (some f) := by
    unfold LinkController.handOver
    rw [if_neg (by simp [heard])]
    cases f with
    | report => exact LinkController.place_slot off
    | _ => simp [Frame.slot] at slot
  rw [placed]
  have set := h.setSlot heard off (f := some f) (fun g hg => Option.some.inj hg ▸ rfl) (by simp [slot])
  rwa [if_pos slot] at set

theorem sendReport_linkRuled (item : Item) (arg : Byte) (idle : s.diag.reportPending = false) (hs : s.LinkRuled) :
    (sendReport item arg s).LinkRuled := by
  unfold sendReport
  split
  · exact hs
  next heard =>
    have ruled : s.link.Ruled false := idle ▸ hs.1
    have reported := ruled.reports (Bool.eq_false_of_not_eq_true heard) (f := .report item.code arg (s.itemContent item arg)) rfl
    exact ⟨reported, fun muted => absurd (LinkController.muted_of_blank (LinkController.handOver_blank _ _) ▸ muted) heard⟩

theorem leaveMuted_linkRuled (hs : s.LinkRuled) : (leaveMuted s).LinkRuled := by
  unfold leaveMuted
  extract_lets _ s1
  have left : s1.LinkRuled :=
    ⟨{ hs.1 with silent := nofun, heard := fun _ => Nat.zero_le _ }, nofun⟩
  exact (announceAgain_keepsLink _).linkRuled ((State.KeepsLink.still rfl rfl rfl : s1.KeepsLink _).linkRuled left)

/-- The slot of a completed frame takes what was held aside (R88). -/
theorem LinkController.Ruled.attemptCompleted {l : LinkController} {report : Bool} (h : l.Ruled report) {x : Slot}
    (line : l.onLine = some x) :
    LinkController.Ruled { l.attemptCompleted x with txErr := l.txErr - 1 } (report && x ≠ .report) := by
  have ruled := h.offLine line (f := l.heldAside) fun g hg => (Option.some.inj (line.symm.trans (h.aside g hg))).symm
  have pending : (if x = .report then l.heldAside.isSome else report) = (report && x ≠ .report) := by
    split
    next e => simp [e, (h.reporting (e ▸ line)).1]
    next e => simp [e]
  have heard := h.heard_of_line (by simp [line])
  exact { pending ▸ ruled with
    silent := fun muted => absurd (heard.symm.trans muted) (by decide)
    heard := fun _ => (Nat.sub_le _ 1).trans (h.heard heard) }

theorem LinkController.Ruled.setStanding {l : LinkController} {report : Bool} (h : l.Ruled report) (ty : ResType) (v : Bool) :
    (l.setStanding ty v).Ruled report := by
  cases ty <;> exact { h with }

theorem reserveCompleted_keepsLink (c : Chan) (s : State) : s.KeepsLink (reserveCompleted c s) := by
  unfold reserveCompleted
  split
  · exact handOver_keepsLink s (by simp [Frame.slot])
  · exact ite_keepsLink (.still rfl rfl rfl)

theorem setStanding_keepsLink (s : State) (ty : ResType) (v : Bool) : s.KeepsLink (s.setLink (s.link.setStanding ty v)) :=
  { ruled := fun h => h.setStanding ty v, muted := by cases ty <;> rfl }

/-- A completed frame other than a report is reported (R88, R107). -/
theorem reportCompletion_linkRuled {f : Frame} (other : f.slot ≠ .report) (heard : s.link.muted = false) (hs : s.LinkRuled) :
    (reportCompletion f s).LinkRuled := by
  cases f with
  | mark => exact ⟨hs.1, fun muted => absurd (heard.symm.trans muted) (by decide)⟩
  | reserve ty cls c amount hold =>
    have stands : s.KeepsLink (s.reserved ty cls c amount hold) := (setStanding_keepsLink s ty true).trans (.still rfl rfl rfl)
    rw [reportCompletion_reserve]
    split
    · exact (stands.trans (reserveCompleted_keepsLink c _)).linkRuled hs
    · exact stands.linkRuled hs
  | release ty c => exact ((setStanding_keepsLink s ty false).trans (.still rfl rfl rfl)).linkRuled hs
  | report => exact absurd rfl other
  | _ => exact hs

theorem completeFrame_linkRuled (hs : s.LinkRuled) : (completeFrame s).LinkRuled := by
  unfold completeFrame
  split
  next x f line sent =>
    have slot : f.slot = x := hs.1.own x f (by simpa [LinkController.lineFrame, line] using sent)
    have heard := hs.1.heard_of_line (by simp [line])
    have ended := hs.1.attemptCompleted line
    by_cases other : f.slot = .report
    · cases f with
      | report =>
        have pending : (s.diag.reportPending && decide (x ≠ .report)) = false := by simp [← slot, Frame.slot]
        rw [pending] at ended
        exact ⟨ended, fun muted => absurd (heard.symm.trans muted) (by decide)⟩
      | _ => simp [Frame.slot] at other
    · have pending : (s.diag.reportPending && decide (x ≠ .report)) = s.diag.reportPending := by simp [← slot, other]
      refine reportCompletion_linkRuled other heard ⟨pending ▸ ended, fun muted => absurd (heard.symm.trans muted) (by decide)⟩
  next => exact hs

/-- Lost contention, or an ABORT short of MUTED (R91). -/
theorem loses_linkRuled (n : Nat) (line : s.link.onLine.isSome = true) (hn : n = s.link.txErr ∨ n ≤ 127) (hs : s.LinkRuled) :
    (s.setLink { s.link.attemptLost with txErr := n }).LinkRuled := by
  have heard := hs.1.heard_of_line line
  obtain ⟨x, line⟩ := Option.isSome_iff_exists.mp line
  have still : s.link.attemptLost.muted = false := by rw [LinkController.attemptLost_eq line, heard]
  exact ⟨{ hs.1.attemptLost with
    silent := fun muted => absurd (still.symm.trans muted) (by decide)
    heard := fun _ => hn.elim (fun e => e ▸ hs.1.heard heard) id }, fun muted => absurd (still.symm.trans muted) (by decide)⟩

/-- An ABORT that comes to MUTED empties the slots (R92). -/
theorem mutes_linkRuled (line : s.link.onLine.isSome = true) (count : 120 ≤ s.link.txErr) (hs : s.LinkRuled) :
    (enterMuted (s.setLink { s.link.attemptLost with txErr := s.link.txErr + 8 })).LinkRuled := by
  have bound := hs.1.heard (hs.1.heard_of_line line)
  obtain ⟨x, line⟩ := Option.isSome_iff_exists.mp line
  have off : s.link.attemptLost.onLine = none := by rw [LinkController.attemptLost_eq line]
  have range : 128 ≤ s.link.txErr + 8 ∧ s.link.txErr + 8 ≤ 135 := by omega
  refine ⟨⟨fun y f hf => ?_, nofun, fun y hy => absurd (off.symm.trans hy) nofun, fun _ => rfl, nofun, ?_,
    fun _ => ⟨rfl, rfl⟩, fun _ => ⟨rfl, off, rfl, range⟩, nofun⟩, fun _ => rfl⟩
  · exact absurd ((Slots.get_reset y).symm.trans hf) nofun
  · exact iff_of_false nofun nofun

/-- Every run keeps the rules of the link. -/
theorem Runs.linkRuled (h : Runs s t) : s.LinkRuled → t.LinkRuled := by
  induction h with
  | refl s => exact id
  | trans _ _ h g => exact g ∘ h
  | beside h => exact h.linkRuled
  | tally h => exact (State.KeepsLink.still (by rw [h.same]) (by rw [h.same]) (by rw [h.same])).linkRuled
  | goes c st r => exact (enter_keepsLink c st r _).linkRuled
  | @recut s u x h =>
    exact ((State.KeepsLink.still (by rw [h.same]) (by rw [h.same]) (by rw [h.same])).trans
      (changeCauses_keepsLink x u)).linkRuled
  | handsOver f _ other => exact (handOver_keepsLink _ other).linkRuled
  | queuesMark number => exact queueMark_linkRuled number
  | withdrawsMark => exact withdrawMark_linkRuled
  | reports item arg idle => exact sendReport_linkRuled item arg idle
  | leavesMuted => exact leaveMuted_linkRuled
  | offers off => exact fun hs => ⟨hs.1.offer off, hs.2⟩
  | loses n line hn => exact loses_linkRuled n line hn
  | completes => exact completeFrame_linkRuled
  | listens | counts => exact id
  | selects => exact (select_keepsLink _).linkRuled
  | refuses x => exact (refuse_keepsLink x _).linkRuled
  | @admits s u x _ _ _ _ ih =>
    exact fun hs => (grant_keepsLink x.chan u).linkRuled (ih ((State.KeepsLink.still rfl rfl rfl : s.KeepsLink _).linkRuled hs))

/-- Nothing waits, nothing is pending, and the link is not MUTED. -/
theorem linkRuled_of_reset (link : s.link = LinkController.reset) (diag : s.diag.reportPending = false) : s.LinkRuled := by
  refine ⟨?_, fun muted => ?_⟩
  · rw [link, diag]
    exact ⟨fun x f hf => absurd ((Slots.get_reset x).symm.trans hf) nofun, nofun, nofun, fun _ => rfl, nofun, by decide, nofun,
      nofun, by decide⟩
  · rw [link] at muted
    exact absurd muted (by decide)

end

end Sys2Proof.Machine

namespace Sys2Proof
open Machine

/-- Settles O55: every operation keeps the rules of the slots, the ones at the channels by what they hand over and withdraw. -/
theorem stepsKeepTheLinkRules : Obligations.StepsKeepTheLinkRules := by
  intro s t slots report muted h
  rw [linkRuled_iff]
  refine step_keeps (P := State.LinkRuled) (fun _ _ h => h) (fun _ _ _ run => run.linkRuled)
    (fun _ _ line count => mutes_linkRuled line count) (fun _ => linkRuled_of_reset rfl rfl) (fun _ _ _ h => h) (fun _ _ _ h => h)
    (fun s buffer din _ hs => (loadEnd_runs s buffer din).linkRuled ?_) ((linkRuled_iff s).mp ⟨slots, report, muted⟩) h
  exact hs

end Sys2Proof


/-! The admission rules through every step (R138, R139, R145, R149): the queue, the claim and the announce amount follow the
channels, also while a grant is on its way. -/

namespace Sys2Proof.Machine

section
variable {s t u : State}

/-! ### What a change of state does to the Scheduler -/

theorem enter_queue (c : Chan) (st : ChState) (r : ShedReason) (s : State) : (enter c st r s).sched.queue =
    (if (s.ch c).state = .requested ∧ st ≠ .inrush then s.sched.queue.filter (fun d => d ≠ c) else s.sched.queue) ++
      (if st = .requested then [c] else []) := notices_queue c _ _ st

theorem enter_ordinary (c : Chan) (st : ChState) (r : ShedReason) (s : State) : (enter c st r s).sched.ordinary =
    s.sched.ordinary.filter fun x => !endsClaim c (s.cfg c).cls (s.ch c).state st x := by
  rw [enter, notices_ordinary, State.setCh_sched, State.setCh_cfg]

theorem enter_state (c d : Chan) (st : ChState) (r : ShedReason) (s : State) :
    ((enter c st r s).ch d).state = if d = c then st else (s.ch d).state := by
  rw [enter_ch]
  split <;> rfl

/-- A change of state keeps the announce amount the sum of the class 0 channels in INRUSH (R149). -/
theorem enter_announceRuled (c : Chan) (st : ChState) (r : ShedReason) (h : s.sched.announceAmount = s.surgeAmount) :
    (enter c st r s).sched.announceAmount = (enter c st r s).surgeAmount := by
  have after : (enter c st r s).surgeAmount = (s.setCh c ((s.ch c).enter st r (s.cfg c).window)).surgeAmount :=
    surgeAmount_congr (by simp [enter]) (by simp [enter])
  rw [after, enter, (notices_announce c _ _ st).1]
  split
  · rfl
  next idle =>
    rw [State.setCh_sched, h]
    have same (d : Chan) : s.surging d = (s.setCh c ((s.ch c).enter st r (s.cfg c).window)).surging d := by
      simp only [State.surging, State.setCh_cfg, State.setCh_ch]
      split
      next e =>
        subst e
        rw [State.setCh_cfg] at idle
        by_cases zero : (s.cfg d).cls = 0
        · simp_all [Channel.enter, Channel.recompute]
        · simp [zero]
      next => rfl
    simp only [State.surgeAmount, funext same, State.setCh_cfg]

/-! ### The rules while grants are on their way -/

/-- The rules of admission, where the channels in `g` have left the queue for a grant that has not arrived (R9, R145). -/
structure State.Admits (g : Chan → Prop) (s : State) : Prop where
  free : s.ClassZeroFree
  once : s.sched.queue.Nodup
  waits : ∀ c ∈ s.sched.queue, (s.ch c).state = .requested
  queued : ∀ c, (s.ch c).state = .requested → c ∈ s.sched.queue ∨ g c
  claimed : ∀ x, s.sched.ordinary = some x → x.phase ≠ .held → x.chan ∈ s.sched.queue
  held : ∀ x, s.sched.ordinary = some x → x.phase = .held →
    (s.ch x.chan).state = .inrush ∨ (s.ch x.chan).state = .requested ∧ x.chan ∉ s.sched.queue ∧ g x.chan
  announce : s.sched.announceAmount = s.surgeAmount

theorem admissionRuled_iff (s : State) : s.AdmissionRuled ↔ s.Admits fun _ => False := by
  have sum : s.AnnounceRuled ↔ s.sched.announceAmount = s.surgeAmount := by rw [surgeAmount_eq fun _ => rfl]
  constructor
  · rintro ⟨free, ⟨once, queue⟩, claim, announce⟩
    refine ⟨free, once, fun c => (queue c).mp, fun c h => .inl ((queue c).mpr h), fun x hx hp => ?_, fun x hx hp => ?_,
      sum.mp announce⟩ <;> have := claim x hx
    · rw [if_neg hp] at this
      exact (queue _).mpr this
    · rw [if_pos hp] at this
      exact .inl this
  · rintro ⟨free, once, waits, queued, claimed, held, announce⟩
    refine ⟨free, ⟨once, fun c => ⟨waits c, fun h => (queued c h).resolve_right id⟩⟩, fun x hx => ?_, sum.mpr announce⟩
    split
    next hp => exact (held x hx hp).resolve_right fun h => h.2.2
    next hp => exact waits _ (claimed x hx hp)

variable {g : Chan → Prop}

/-- Where the states of the channels and the Scheduler stand. -/
theorem State.Admits.still (h : s.Admits g) (loader : t.loader = s.loader) (state : ∀ c, (t.ch c).state = (s.ch c).state)
    (queue : t.sched.queue = s.sched.queue) (ordinary : ∀ x, t.sched.ordinary = some x → s.sched.ordinary = some x)
    (amount : t.sched.announceAmount = s.sched.announceAmount) : t.Admits g := by
  have cfg := cfg_congr loader
  have surge := surgeAmount_congr cfg state
  obtain ⟨⟨zero, class0⟩, once, waits, queued, claimed, held, announce⟩ := h
  refine ⟨⟨fun c hc => ?_, fun x hx => ?_⟩, queue ▸ once, fun c hc => ?_, fun c hc => ?_, fun x hx hp => ?_, fun x hx hp => ?_, ?_⟩
  · rw [state]
    exact zero c (cfg c ▸ hc)
  · rw [cfg]
    exact class0 x (ordinary x hx)
  · rw [state]
    exact waits c (queue ▸ hc)
  · rw [queue]
    exact queued c (state c ▸ hc)
  · rw [queue]
    exact claimed x (ordinary x hx) hp
  · rw [state, queue]
    exact held x (ordinary x hx) hp
  · rw [amount, surge, announce]

theorem State.Admits.sameSched (h : s.Admits g) (loader : t.loader = s.loader) (state : ∀ c, (t.ch c).state = (s.ch c).state)
    (sched : t.sched = s.sched) : t.Admits g :=
  h.still loader state (by rw [sched]) (by simp [sched]) (by rw [sched])

/-- A change of state that is no grant (R8, R139, R147). -/
theorem enter_admits (h : s.Admits g) (c : Chan) (st : ChState) (r : ShedReason)
    (requests : st = .requested → (s.cfg c).cls ≠ 0 ∧ (s.ch c).state ≠ .requested)
    (begins : st = .inrush → (s.cfg c).cls = 0) (sheds : st = .shed → (s.cfg c).cls ≠ 0) : (enter c st r s).Admits g := by
  obtain ⟨⟨zero, class0⟩, once, waits, queued, claimed, held, announce⟩ := h
  have cfg : ∀ d, (enter c st r s).cfg d = s.cfg d := by simp
  -- a claim that stands names another channel
  have apart (x : Claim) (hx : (enter c st r s).sched.ordinary = some x) : s.sched.ordinary = some x ∧ x.chan ≠ c := by
    rw [enter_ordinary] at hx
    obtain ⟨old, stays⟩ := Option.filter_eq_some_iff.mp hx
    refine ⟨old, fun e => ?_⟩
    have other := class0 x old
    have leaves : st ≠ .inrush := fun st => other (e ▸ begins st)
    by_cases hp : x.phase = .held
    · rcases held x old hp with state | ⟨state, -⟩ <;> simp_all [endsClaim]
    · have state := waits _ (claimed x old hp)
      simp_all [endsClaim]
  have queue : (enter c st r s).sched.queue = s.sched.queue.filter (fun d => d ≠ c) ++ (if st = .requested then [c] else []) := by
    rw [enter_queue]
    split
    · rfl
    next stays =>
      have absent : c ∉ s.sched.queue := fun mem =>
        stays ⟨waits c mem, fun st => (zero c (begins st)).1 (waits c mem)⟩
      rw [List.filter_eq_self.mpr fun d hd => decide_eq_true (show d ≠ c from fun e => absent (e ▸ hd))]
  have member (d : Chan) (hd : d ≠ c) : d ∈ (enter c st r s).sched.queue ↔ d ∈ s.sched.queue := by
    rw [queue]
    split <;> simp [hd]
  refine ⟨⟨fun d hd => ?_, fun x hx => ?_⟩, ?_, fun d hd => ?_, fun d hd => ?_, fun x hx hp => ?_, fun x hx hp => ?_,
    enter_announceRuled c st r announce⟩
  · rw [cfg] at hd
    rw [enter_state]
    split
    next e => exact ⟨fun st => (requests st).1 (e ▸ hd), fun st => sheds st (e ▸ hd)⟩
    next => exact zero d hd
  · rw [cfg]
    exact class0 x (apart x hx).1
  · rw [queue]
    refine (once.filter _).append (by split <;> simp) ?_
    split <;> simp
  · rw [enter_state]
    split
    next e =>
      subst e
      rw [queue] at hd
      by_contra other
      simp [other] at hd
    next other => exact waits d ((member d other).mp hd)
  · rw [enter_state] at hd
    split at hd
    next e => exact .inl (by rw [queue]; simp [hd, e])
    next other => exact (queued d hd).imp_left (member d other).mpr
  · obtain ⟨old, other⟩ := apart x hx
    exact (member _ other).mpr (claimed x old hp)
  · obtain ⟨old, other⟩ := apart x hx
    rw [enter_state, if_neg other, member _ other]
    exact held x old hp

/-- The beginning of a grant takes the channel from the queue and holds the claim (R145). -/
theorem holdClaim_admits {x : Claim} (hx : s.sched.ordinary = some x) (hp : x.phase = .settling) (h : s.Admits g) :
    (holdClaim x s).Admits fun c => g c ∨ c = x.chan := by
  obtain ⟨⟨zero, class0⟩, once, waits, queued, claimed, -, announce⟩ := h
  have waiting := claimed x hx (by simp [hp])
  have queue : (holdClaim x s).sched.queue = s.sched.queue.filter fun d => d ≠ x.chan := rfl
  refine ⟨⟨zero, fun y hy => ?_⟩, queue ▸ once.filter _, fun c hc => ?_, fun c hc => ?_, fun y hy hq => ?_, fun y hy _ => ?_,
    announce⟩
  · cases (holdClaim_ordinary x s).symm.trans hy
    exact class0 x hx
  · exact waits c (List.mem_of_mem_filter hc)
  · rw [queue, List.mem_filter]
    by_cases e : c = x.chan
    · exact .inr (.inr e)
    · exact (queued c hc).imp (fun mem => ⟨mem, by simpa using e⟩) .inl
  · cases (holdClaim_ordinary x s).symm.trans hy
    exact absurd rfl hq
  · cases (holdClaim_ordinary x s).symm.trans hy
    exact .inr ⟨waits _ waiting, by simp [queue], .inr rfl⟩

/-- A grant arrives: at a channel in REQUESTED the claim is HELD still (R9). -/
theorem grant_admits {x : Claim} (h : s.Admits fun c => g c ∨ c = x.chan)
    (span : (s.ch x.chan).state = .requested → s.sched.ordinary = some { x with phase := .held }) : (grant x.chan s).Admits g := by
  unfold grant
  split
  next waiting =>
    have claim := span waiting
    have gone : x.chan ∉ s.sched.queue := by
      rcases h.held _ claim rfl with state | ⟨-, absent, -⟩
      · simp [waiting] at state
      · exact absent
    have queue : (enter x.chan .inrush .none s).sched.queue = s.sched.queue := by simp [enter_queue]
    have ordinary : (enter x.chan .inrush .none s).sched.ordinary = some { x with phase := .held } := by
      rw [enter_ordinary, claim, Option.filter_some, if_pos (by simp [endsClaim, waiting])]
    obtain ⟨⟨zero, class0⟩, once, waits, queued, -, -, announce⟩ := h
    refine ⟨⟨fun d hd => ?_, fun y hy => ?_⟩, queue ▸ once, fun d hd => ?_, fun d hd => ?_, fun y hy hq => ?_, fun y hy _ => .inl ?_,
      enter_announceRuled _ _ _ announce⟩
    · rw [enter_state]
      split
      · simp
      · exact zero d (by simpa using hd)
    · cases ordinary.symm.trans hy
      simpa using class0 _ claim
    · rw [queue] at hd
      rw [enter_state, if_neg (show d ≠ x.chan from fun e => gone (e ▸ hd))]
      exact waits d hd
    · rw [enter_state] at hd
      split at hd
      · exact absurd hd (by decide)
      next other =>
        rw [queue]
        exact (queued d hd).imp_right fun either => either.resolve_right other
    · cases ordinary.symm.trans hy
      exact absurd rfl hq
    · cases ordinary.symm.trans hy
      rw [enter_state, if_pos rfl]
  next moved =>
    obtain ⟨free, once, waits, queued, claimed, held, announce⟩ := h
    refine ⟨free, once, waits, fun d hd => ?_, claimed, fun y hy hp => ?_, announce⟩
    · exact (queued d hd).imp_right fun either => either.resolve_right fun e => moved (e ▸ hd)
    · refine (held y hy hp).imp_right fun ⟨state, absent, either⟩ => ⟨state, absent, ?_⟩
      exact either.resolve_right fun e => moved (e ▸ state)

/-! ### Through every operation -/

theorem switchOn_admits (h : s.Admits g) (c : Chan) (idle : (s.ch c).state ≠ .requested) : (switchOn c s).Admits g := by
  unfold switchOn
  split
  next zero => exact enter_admits h c _ _ nofun (fun _ => zero) nofun
  next other => exact enter_admits h c _ _ (fun _ => ⟨other, idle⟩) nofun nofun

theorem changeCauses_admits (x : CutCauses) (h : s.Admits g) : (changeCauses x s).Admits g := by
  unfold changeCauses cutBegins cutEnds
  extract_lets s1
  have noted : s1.Admits g := h.sameSched rfl (fun _ => rfl) rfl
  split_ifs
  · exact forChans_keeps (P := State.Admits g) (fun c s h => enter_admits h c _ _ nofun nofun nofun) noted
  · refine forChans_keeps (P := State.Admits g) (fun c s h => ?_) noted
    split
    · unfold retake
      extract_lets s2
      have freed : s2.Admits g := enter_admits h c _ _ nofun nofun nofun
      split
      · exact switchOn_admits freed c (by rw [enter_state, if_pos rfl]; decide)
      · exact freed
    · exact h
  · exact noted

theorem ChState.Goes.admits {c : Chan} {st : ChState} (h : ChState.Goes (s.cfg c).cls (s.ch c).state st) (r : ShedReason)
    (hs : s.Admits g) : (enter c st r s).Admits g := by
  refine enter_admits hs c st r (fun e => ?_) (fun e => ?_) fun e => ?_ <;> subst e
  · exact ⟨h.1, by rcases h.2 with e | e | e <;> simp [e]⟩
  · exact h.1
  · exact h.1

/-- A claim given up, or an end of the claim alone. -/
theorem State.Admits.unclaimed (h : s.Admits g) (loader : t.loader = s.loader) (channels : t.channels = s.channels)
    (queue : t.sched.queue = s.sched.queue) (ordinary : t.sched.ordinary = none)
    (amount : t.sched.announceAmount = s.sched.announceAmount) : t.Admits g :=
  h.still loader (fun c => by rw [ch_congr channels]) queue (by simp [ordinary]) amount

theorem State.firstWaiting_mem {test : Chan → Bool} {c : Chan} (h : s.firstWaiting test = some c) : c ∈ s.sched.queue :=
  List.mem_of_find?_eq_some h

theorem State.choice_mem {c : Chan} (h : s.choice = some c) : c ∈ s.sched.queue := by
  unfold State.choice State.ordinaryChoice at h
  split at h
  · exact State.firstWaiting_mem h
  · split at h
    next d first => exact Option.some.inj h ▸ State.firstWaiting_mem first
    next =>
      split at h
      next d first => exact Option.some.inj h ▸ State.firstWaiting_mem first
      next => exact State.firstWaiting_mem h

/-- The record, where no selection is made, stands; one that is made names a waiting channel (R140, R141). -/
theorem select_admits (h : s.Admits g) : (select s).Admits g := by
  unfold select
  split
  · split
    next c chosen =>
      extract_lets x s1 s2
      have waits := State.choice_mem chosen
      have turned : s1.sched.queue = s.sched.queue ∧ s1.sched.announceAmount = s.sched.announceAmount ∧ s1.loader = s.loader ∧
          s1.channels = s.channels := by
        unfold s1
        split <;> exact ⟨rfl, rfl, rfl, rfl⟩
      obtain ⟨queue, amount, loader, channels⟩ := turned
      have ch := ch_congr channels
      have cfg := cfg_congr loader
      have settling : x.phase ≠ .held := by
        simp only [x, State.claimOf]
        split <;> simp
      have claimed : s2.Admits g := by
        obtain ⟨⟨zero, class0⟩, once, waiting, queued, claimed, held, announce⟩ := h
        refine ⟨⟨fun d hd => ?_, fun y hy => ?_⟩, queue ▸ once, fun d hd => ?_, fun d hd => ?_, fun y hy hq => ?_, fun y hy hq => ?_,
          ?_⟩
        · exact ch d ▸ zero d (cfg d ▸ hd)
        · cases hy
          show (s1.cfg c).cls ≠ 0
          rw [cfg]
          exact fun e => (zero c e).1 (waiting c waits)
        · exact ch d ▸ waiting d (queue ▸ hd)
        · exact queue ▸ queued d (ch d ▸ hd)
        · cases hy
          exact queue ▸ waits
        · cases hy
          exact absurd hq settling
        · exact amount.trans (announce.trans (surgeAmount_congr cfg fun d => congrArg Channel.state (ch d)).symm)
      split
      · exact claimed.sameSched rfl (fun _ => rfl) rfl
      · exact claimed
    next => exact h
  · exact h

theorem refuse_admits (x : Claim) (h : s.Admits g) : (refuse x s).Admits g := by
  unfold refuse
  extract_lets s1
  have released : (releaseClaim x s).channels = s.channels ∧ (releaseClaim x s).loader = s.loader := by
    unfold releaseClaim
    split <;> exact ⟨rfl, rfl⟩
  refine h.unclaimed released.2 released.1 ?_ rfl ?_
  · show (releaseClaim x s).sched.queue = _
    rw [releaseClaim_sched]
  · show (releaseClaim x s).sched.announceAmount = _
    rw [releaseClaim_sched]

/-- A RESERVE that has been sent takes its claim on to SETTLING (R107, R144). -/
theorem reserveCompleted_admits (c : Chan) (h : s.Admits g) : (reserveCompleted c s).Admits g := by
  unfold reserveCompleted
  split
  · exact h.sameSched rfl (fun _ => rfl) rfl
  next x hx =>
    split
    next own =>
      simp only [Bool.and_eq_true, decide_eq_true_eq] at own
      obtain ⟨⟨zero, class0⟩, once, waits, queued, claimed, held, announce⟩ := h
      refine ⟨⟨zero, fun y hy => ?_⟩, once, waits, queued, fun y hy _ => ?_, fun y hy hp => ?_, announce⟩ <;> cases hy
      · exact class0 x hx
      · exact claimed x hx (by simp [own.1])
      · exact absurd hp nofun
    next => exact h

theorem completeFrame_admits (h : s.Admits g) : (completeFrame s).Admits g := by
  unfold completeFrame
  split
  next slot f _ _ =>
    have ended : State.Admits g (s.setLink { s.link.attemptCompleted slot with txErr := s.link.txErr - 1 }) :=
      h.sameSched rfl (fun _ => rfl) rfl
    generalize s.setLink _ = u at ended ⊢
    cases f with
    | reserve ty cls c amount hold =>
      have stands : (u.reserved ty cls c amount hold).Admits g := ended.sameSched rfl (fun _ => rfl) rfl
      rw [reportCompletion_reserve]
      split
      · exact reserveCompleted_admits c stands
      · exact stands
    | _ => exact ended.sameSched rfl (fun _ => rfl) rfl
  next => exact h

theorem queueMark_sched (number : Nat) (s : State) : (queueMark number s).sched = s.sched := by
  unfold queueMark
  split <;> rfl

theorem withdrawMark_sched (s : State) : (withdrawMark s).sched = s.sched := by
  unfold withdrawMark
  split <;> rfl

theorem sendReport_sched (item : Item) (arg : Byte) (s : State) : (sendReport item arg s).sched = s.sched := by
  unfold sendReport
  split <;> rfl

theorem announceAgain_sched (s : State) : (announceAgain s).sched = s.sched := by
  unfold announceAgain
  split
  · split <;> rfl
  · rfl

/-- Where frames and counts beside the channels, the queue, the claim and the announce amount have moved. -/
theorem State.Talks.admits (h : s.Talks t) (queue : t.sched.queue = s.sched.queue) (ordinary : t.sched.ordinary = s.sched.ordinary)
    (amount : t.sched.announceAmount = s.sched.announceAmount) (hs : s.Admits g) : t.Admits g :=
  hs.still (by rw [h]) (fun c => by rw [ch_congr (s := s) (t := t) (by rw [h])]) queue (by simp [ordinary]) amount

theorem State.Talks.admits_sched (h : s.Talks t) (sched : t.sched = s.sched) (hs : s.Admits g) : t.Admits g :=
  h.admits (by rw [sched]) (by rw [sched]) (by rw [sched]) hs

/-- Every run keeps the rules of admission, whatever grants are on their way. -/
theorem Runs.keepsAdmits (h : Runs s t) : ∀ {g : Chan → Prop}, s.Admits g → t.Admits g := by
  induction h with
  | refl s => exact id
  | trans _ _ h g => exact g ∘ h
  | beside h => exact fun hs => hs.sameSched h.loader (fun c => by rw [ch_congr h.channels]) h.sched
  | tally h => exact fun hs => hs.sameSched (by rw [h.same]) h.state (by rw [h.same])
  | goes c st r h => exact h.admits r
  | @recut s u x h =>
    exact fun hs => changeCauses_admits x (hs.sameSched (by rw [h.same]) (fun c => by rw [ch_congr (s := s) (by rw [h.same])]) (by rw [h.same]))
  | handsOver | offers | loses | listens | counts => exact State.Talks.admits rfl rfl rfl rfl
  | queuesMark number => exact (queueMark_talks _ number).admits_sched (queueMark_sched number _)
  | withdrawsMark => exact (withdrawMark_talks _).admits_sched (withdrawMark_sched _)
  | reports item arg => exact (sendReport_talks _ item arg).admits_sched (sendReport_sched item arg _)
  | @leavesMuted s =>
    have sched := announceAgain_sched ((s.setLink { s.link with muted := false, txErr := 0, good := 0 }).listenAgain.refreshInUse)
    refine @fun g => (leaveMuted_talks s).admits ?_ ?_ ?_ <;> rw [leaveMuted, sched] <;> rfl
  | completes => exact completeFrame_admits
  | selects => exact select_admits
  | refuses x => exact refuse_admits x
  | admits x hx hp _ span ih => exact fun hs => grant_admits (ih (holdClaim_admits hx hp hs)) span

/-- No channel wants power, nothing waits and nothing is claimed. -/
theorem admits_of_reset (ch : ∀ c, s.ch c = Channel.reset) (sched : s.sched = State.reset.sched) : s.Admits g := by
  have off (c : Chan) : (s.ch c).state = .off := by rw [ch]; rfl
  have queue : s.sched.queue = [] := by rw [sched]; rfl
  have ordinary : s.sched.ordinary = none := by rw [sched]; rfl
  have still : s.surging = fun _ => false := funext fun c => by simp [State.surging, off]
  have amount : s.surgeAmount = 0 := by simp [State.surgeAmount, still, sumChans]
  refine ⟨⟨fun c _ => by simp [off], by simp [ordinary]⟩, by simp [queue], by simp [queue], fun c hc => ?_, by simp [ordinary],
    by simp [ordinary], by rw [amount, sched]; rfl⟩
  rw [off] at hc
  exact absurd hc (by decide)

end

end Sys2Proof.Machine

namespace Sys2Proof
open Machine

/-- Settles O54: a run keeps the rules with the channels whose grants are on their way set apart, and at its end none is. -/
theorem stepsKeepTheAdmissionRules : Obligations.StepsKeepTheAdmissionRules := by
  intro s t held admission h
  rw [admissionRuled_iff] at admission ⊢
  refine step_keeps_held (P := State.Admits fun _ => False) (fun _ _ h => h.sameSched rfl (fun _ => rfl) rfl)
    (fun _ _ run => run.keepsAdmits) (fun _ _ _ _ h => h.unclaimed rfl rfl rfl rfl rfl)
    (fun _ _ _ _ _ => admits_of_reset reset_ch rfl) (fun s held waits buffer din => ?_) held admission h
  refine (loadEnd_runs s buffer din).keepsAdmits (admits_of_reset (fun c => ?_) ?_)
  · rw [handOut_ch, held.ch waits]
  · show s.sched = _
    rw [held waits]

end Sys2Proof


/-! A class 1–3 channel comes to INRUSH by its own claim alone (R9, R145): what a run brings to INRUSH is named by the record. -/

namespace Sys2Proof.Machine

section
variable {s t u : State}

/-- The ordinary record names channel `c` and is HELD. -/
def State.Holds (s : State) (c : Chan) : Prop := ∃ x, s.sched.ordinary = some x ∧ x.chan = c ∧ x.phase = .held

/-- Which class 1–3 channels an operation leaves in INRUSH: those that were, with a HELD claim kept, and those with a HELD claim. -/
def State.BringsOn (s t : State) : Prop :=
  ∀ c, (s.cfg c).cls ≠ 0 → (t.ch c).state = .inrush → (s.ch c).state = .inrush ∧ (s.Holds c → t.Holds c) ∨ t.Holds c

theorem State.BringsOn.trans (cfg : ∀ c, t.cfg c = s.cfg c) (h : s.BringsOn t) (g : t.BringsOn u) : s.BringsOn u :=
  fun c hc on => by
    rcases g c (cfg c ▸ hc) on with ⟨was, keeps⟩ | held
    · rcases h c hc was with ⟨before, kept⟩ | held
      · exact .inl ⟨before, keeps ∘ kept⟩
      · exact .inr (keeps held)
    · exact .inr held

/-- No state of a channel moves, and a HELD claim is kept. -/
theorem State.BringsOn.still (s t : State) (state : ∀ c, (t.ch c).state = (s.ch c).state)
    (claim : ∀ x, s.sched.ordinary = some x → x.phase = .held → t.sched.ordinary = some x) : s.BringsOn t := fun c _ on =>
  .inl ⟨state c ▸ on, fun ⟨x, hx, hc, hp⟩ => ⟨x, claim x hx hp, hc, hp⟩⟩

/-- The claim of another channel stands through a change of state (R147). -/
theorem enter_holds {c d : Chan} (other : d ≠ c) (st : ChState) (r : ShedReason) (h : s.Holds d) : (enter c st r s).Holds d := by
  obtain ⟨x, hx, named, hp⟩ := h
  refine ⟨x, ?_, named, hp⟩
  rw [enter_ordinary, hx, Option.filter_some, if_pos (by simp [endsClaim, named, other])]

theorem enter_bringsOn (c : Chan) (st : ChState) (r : ShedReason) (begins : st = .inrush → (s.cfg c).cls = 0) :
    s.BringsOn (enter c st r s) := fun d hd on => by
  rw [enter_state] at on
  split at on
  next e => exact absurd (e ▸ begins on) hd
  next other => exact .inl ⟨on, enter_holds other st r⟩

theorem grant_bringsOn {x : Claim} (span : (s.ch x.chan).state = .requested → s.sched.ordinary = some { x with phase := .held }) :
    s.BringsOn (grant x.chan s) := by
  unfold grant
  split
  next waits =>
    intro d _ on
    rw [enter_state] at on
    split at on
    next e =>
      refine .inr ⟨{ x with phase := .held }, ?_, e.symm, rfl⟩
      rw [enter_ordinary, span waits, Option.filter_some, if_pos (by simp [endsClaim, waits])]
    next other => exact .inl ⟨on, enter_holds other _ _⟩
  next => exact .still s s (fun _ => rfl) fun _ h _ => h

theorem foldl_bringsOn {f : State → Chan → State} (cfg : ∀ (s : State) c d, (f s c).cfg d = s.cfg d)
    (h : ∀ (s : State) c, s.BringsOn (f s c)) (l : List Chan) (s : State) : s.BringsOn (l.foldl f s) := by
  induction l generalizing s with
  | nil => exact .still s s (fun _ => rfl) fun _ h _ => h
  | cons c rest ih => exact (h s c).trans (cfg s c) (ih _)

theorem retake_bringsOn (c : Chan) (s : State) : s.BringsOn (retake c s) := by
  unfold retake
  extract_lets s1
  have freed : s.BringsOn s1 := enter_bringsOn c .off .none nofun
  split
  · refine freed.trans (by simp [s1]) ?_
    unfold switchOn
    split
    next zero => exact enter_bringsOn c _ _ fun _ => zero
    next => exact enter_bringsOn c _ _ nofun
  · exact freed

theorem changeCauses_bringsOn (x : CutCauses) (s : State) : s.BringsOn (changeCauses x s) := by
  unfold changeCauses
  extract_lets s1
  have noted : s.BringsOn s1 := .still s s1 (fun _ => rfl) fun _ h _ => h
  split_ifs
  · exact noted.trans (fun _ => rfl)
      (foldl_bringsOn (f := fun s c => enter c .cut .none s) (fun _ _ _ => by simp)
        (fun _ c => enter_bringsOn c .cut .none nofun) allChans s1)
  · refine noted.trans (fun _ => rfl) (foldl_bringsOn (f := fun s c => if (s.ch c).state = .cut then retake c s else s)
      (fun s c d => ?_) (fun s c => ?_) allChans s1)
    · split <;> simp
    · split
      · exact retake_bringsOn c s
      · exact .still s s (fun _ => rfl) fun _ h _ => h
  · exact noted

/-- Frames alone, with the record as it was. -/
theorem State.Talks.bringsOn (h : s.Talks t) (sched : t.sched = s.sched) : s.BringsOn t :=
  .still s t (fun c => by rw [ch_congr (s := s) (t := t) (by rw [h])]) fun x hx _ => by rw [sched, hx]

/-- A RESERVE that has been sent moves no HELD claim. -/
theorem completeFrame_claim {x : Claim} (hx : s.sched.ordinary = some x) (hp : x.phase = .held) :
    (completeFrame s).sched.ordinary = some x := by
  unfold completeFrame
  split
  next slot f _ _ =>
    have same : (s.setLink { s.link.attemptCompleted slot with txErr := s.link.txErr - 1 }).sched.ordinary = some x := hx
    generalize s.setLink _ = u at same ⊢
    cases f with
    | reserve ty cls c amount hold =>
      rw [reportCompletion_reserve]
      split
      · unfold reserveCompleted
        have same : (u.reserved ty cls c amount hold).sched.ordinary = some x := same
        rw [same]
        simp [hp, same]
      · exact same
    | _ => exact same
  next => exact hx

theorem Runs.bringsOn (h : Runs s t) : s.BringsOn t := by
  induction h with
  | refl s => exact .still s s (fun _ => rfl) fun _ h _ => h
  | trans h _ first second => exact first.trans h.cfg second
  | @beside s t h => exact .still s t (fun c => by rw [ch_congr h.channels]) fun x hx _ => by rw [h.sched, hx]
  | @tally s t h => exact .still s t h.state fun x hx _ => by rw [h.same, hx]
  | goes c st r h =>
    exact enter_bringsOn c st r fun e => by
      subst e
      exact h.1
  | @recut s u x h =>
    have same : s.BringsOn u := .still s u (fun c => by rw [ch_congr (s := s) (by rw [h.same])]) fun y hy _ => by rw [h.same, hy]
    exact same.trans (fun c => cfg_congr (by rw [h.same]) c) (changeCauses_bringsOn x u)
  | handsOver | offers | loses => exact State.Talks.bringsOn rfl rfl
  | @listens s | @counts s => exact .still s _ (fun _ => rfl) fun _ h _ => h
  | queuesMark number => exact (queueMark_talks _ number).bringsOn (queueMark_sched number _)
  | withdrawsMark => exact (withdrawMark_talks _).bringsOn (withdrawMark_sched _)
  | reports item arg => exact (sendReport_talks _ item arg).bringsOn (sendReport_sched item arg _)
  | @leavesMuted s =>
    refine .still s _ (fun c => by rw [ch_congr (s := s) (by rw [leaveMuted_talks])]) fun x hx _ => ?_
    rw [leaveMuted, announceAgain_sched]
    exact hx
  | @completes s =>
    exact .still s _ (fun c => by rw [ch_congr (s := s) (by rw [completeFrame_talks])]) fun x hx hp => completeFrame_claim hx hp
  | @selects s =>
    refine .still s _ (fun c => by rw [ch_congr (s := s) (by rw [select_talks])]) fun x hx _ => ?_
    unfold select
    rw [if_neg (by simp [State.maySelect, hx]), hx]
  | @refuses s y hy hp =>
    refine .still s _ (fun c => by rw [ch_congr (s := s) (by rw [refuse_talks])]) fun x hx held => ?_
    cases hy.symm.trans hx
    simp [hp] at held
  | @admits s u x hx hp run span ih =>
    have settles : s.BringsOn (holdClaim x s) := .still s _ (fun _ => rfl) fun y hy held => by
      cases hx.symm.trans hy
      simp [hp] at held
    exact (settles.trans (fun c => by simp) ih).trans (fun c => (run.cfg c).trans (by simp)) (grant_bringsOn span)

end

end Sys2Proof.Machine

namespace Sys2Proof
open Machine

/-- Settles O59: in a run a class 1–3 channel comes to INRUSH by a grant alone, and its claim ends no sooner than the surge. -/
theorem onlyAnAdmittedClaimSwitchesOn : Obligations.OnlyAnAdmittedClaimSwitchesOn := by
  intro s t c held _ h other on off
  -- a run brings on what the record names
  have brought {u v : State} (run : Runs u v) (idle : (u.ch c).state ≠ .inrush) (hv : (v.cfg c).cls ≠ 0)
      (on : (v.ch c).state = .inrush) : v.Holds c := by
    rcases run.bringsOn c (run.cfg c ▸ hv) on with ⟨was, -⟩ | holds
    · exact absurd was idle
    · exact holds
  rcases step_cases h with ⟨-, rfl⟩ | ⟨i, rest, -, taken⟩
  · exact brought (tick_runs s) off other on
  · obtain ⟨u, same, comes⟩ := exec_comes i { s with pending := rest }
    cases same.symm.trans taken
    have held := held.queue rest
    have off : (State.ch { s with pending := rest } c).state ≠ .inrush := off
    generalize ({ s with pending := rest } : State) = s at held off comes
    cases comes with
    | runs _ run => exact brought run off other on
    | mutes => exact absurd on off
    | resets =>
      rw [resetPart_ch] at on
      exact absurd on (by decide)
    | still | begins | noted => exact absurd on off
    | loads reading buffer din =>
      refine brought (loadEnd_runs s buffer din) ?_ other on
      rw [handOut_ch]
      exact off

end Sys2Proof


/-! Reset, the straps and the part before load end (O3, O4, O5, O60). -/

namespace Sys2Proof.Machine

section
variable {s : State}

/-- Before load end a command that waits for it changes nothing. -/
theorem whenLoaded_of_unloaded {f : State → State} (h : s.isLoaded = false) : whenLoaded f s = s := if_neg (by simp [h])

/-- From load end on it is taken. -/
theorem whenLoaded_of_loaded {f : State → State} (h : s.isLoaded = true) : whenLoaded f s = f s := if_pos h

/-- A modulator that does not run turns no output on (R24). -/
theorem onAt_of_stopped (h : s.modulator.running = false) (c : Chan) (n : Nat) : s.onAt c n = false := by
  simp [State.onAt, h]

theorem reset_peer (p : Stn) : State.reset.peer p = { presence := .absent, age := 255, draws := none } := by
  decide +revert

/-- The straps give the number, STN0 least significant and an open one as 1 (R161). -/
theorem strapNumber_val (x : Straps) : (strapNumber x).val =
    (if x.stn0 = .low then 0 else 1) + (if x.stn1 = .low then 0 else 2) + (if x.stn2 = .low then 0 else 4) +
      (if x.stn3 = .low then 0 else 8) := by
  have bit (y : Strap) : strapBit y ≤ 1 := by
    unfold strapBit
    split <;> omega
  have weighted (y : Strap) (n : Nat) : (if y = .low then 0 else n) = n * strapBit y := by
    unfold strapBit
    split <;> simp
  rw [weighted, weighted, weighted, weighted]
  have := bit x.stn0
  have := bit x.stn1
  have := bit x.stn2
  have := bit x.stn3
  simp only [strapNumber, Fin.ofNat]
  omega

end

end Sys2Proof.Machine

namespace Sys2Proof
open Machine

/-- Settles O3: the other commands all wait for load end. -/
theorem nothingIsTakenBeforeLoadEnd : Obligations.NothingIsTakenBeforeLoadEnd := by
  intro i s waits other
  cases i with
  | reset | holdEnds | readStops | isolateChange => exact other.elim
  | _ => exact congrArg Host.Outcome.next (whenLoaded_of_unloaded waits)

/-- Settles O4: RESET puts the reset state over every item but the pins and the queue. -/
theorem resetPutsEveryBlockAtItsResetValues : Obligations.ResetPutsEveryBlockAtItsResetValues := by
  intro s
  have inputs : ∀ i, dinGet State.reset.signal.inputs i = false := fun i => by
    unfold dinGet State.reset
    split_ifs <;> rfl
  refine ⟨resetPart s, rfl, rfl, rfl, fun c => resetPart_ch s c, fun c n => onAt_of_stopped rfl c n, rfl, rfl, rfl, rfl, rfl, rfl,
    inputs, rfl, rfl, fun x => Slots.get_reset x, rfl, rfl, rfl, rfl, rfl, rfl, rfl, rfl, rfl, fun ty => ?_, fun p => reset_peer p,
    rfl, ⟨rfl, rfl, rfl, rfl, rfl, rfl, rfl, rfl⟩, ⟨rfl, rfl, rfl, rfl, rfl, rfl, rfl⟩, rfl, rfl⟩
  cases ty <;> rfl

/-- Settles O5: the straps are read in the HELD phase alone. -/
theorem holdEndsReadsTheStraps : Obligations.HoldEndsReadsTheStraps := by
  intro s x n hn
  have number : strapNumber x = n := Fin.ext ((strapNumber_val x).trans hn.symm)
  refine ⟨fun held => ?_, fun gone => congrArg Host.Outcome.next (if_neg gone)⟩
  exact congrArg Host.Outcome.next ((if_pos held).trans (by rw [number]; rfl))

/-- Settles O60: the rules of each block by the reset values of its items. -/
theorem resetMeetsEveryRule : Obligations.ResetMeetsEveryRule := by
  have ch := reset_ch
  have link : State.LinkRuled State.reset := linkRuled_of_reset rfl rfl
  obtain ⟨slots, report, muted⟩ := (linkRuled_iff State.reset).mpr link
  obtain ⟨peers, one⟩ := peersRuled_of_reset (s := State.reset) rfl rfl
  have idle : State.reset.isLoaded = false := rfl
  refine ⟨fun _ => rfl, fun c => ?_, by decide, ⟨by decide, fun loaded => absurd (idle.symm.trans loaded) (by decide), fun c => ?_⟩,
    (admissionRuled_iff _).mpr (admits_of_reset ch rfl), slots, report, muted, peers, one, fun c => ?_, fun c _ => ?_, fun c => ?_,
    reset_countersInRange rfl _ _, limpConfiguration_inRange⟩
  · rw [ch]
    decide
  · rw [ch]
    decide
  · rw [ch]
    exact ⟨nofun, nofun⟩
  · rw [ch]
    decide
  · unfold State.wants
    rw [ch]
    exact ⟨fun _ _ => demandOn_zero _, fun on => absurd rfl on, (demandDutyOf_zero _).symm⟩

end Sys2Proof


/-! The end of the load (R168, R169): the state it starts the part in, and what it makes of a channel. -/

namespace Sys2Proof.Machine

section
variable (s : State) (c : Chan)

/-- Each enabled channel takes the level that its bindings make, the others none (R73). -/
abbrev resolveEnabled (s : State) : State :=
  forChans (fun c s => if (s.cfg c).enabled then deliver c (s.level c) s else s) s

theorem resolveEnabled_blank : (resolveEnabled s).blank = s.blank :=
  forChans_blank (fun c s => by split <;> simp) s

theorem resolveEnabled_kept : s.KeptByParts (resolveEnabled s) := forChans_kept (fun c s => ite_kept (deliver_kept c s _)) s

theorem resolveEnabled_ch : (resolveEnabled s).ch c =
    if (s.cfg c).enabled = true then (s.ch c).delivered (s.cfg c) (s.level c) else s.ch c := by
  refine forChans_ch (s := s)
    (g := fun c x => if (s.cfg c).enabled = true then x.delivered (s.cfg c) (s.level c) else x) (fun e t ht => ?_) c
  simp only [cfg_of_blank ht]
  split
  · exact ⟨(deliver_blank e _ t).trans ht, fun d => by rw [deliver_ch, cfg_of_blank ht, level_of_blank ht]⟩
  · exact ⟨ht, fun d => by split <;> simp_all⟩

theorem publish_level : (publish s).level c = s.level c :=
  level_congr (publish_kept s).loader (publish_kept s).table fun _ _ _ => by rw [publish_inputs]

theorem firstResolution_eq : firstResolution s =
    publish (resolveEnabled (s.setSignal { s.signal with phaseOn := flashPhase 0 })) := rfl

/-- The first resolution at a channel (R169). -/
theorem firstResolution_ch : (firstResolution s).ch c =
    if (s.cfg c).enabled = true then (s.ch c).delivered (s.cfg c) ((firstResolution s).level c) else s.ch c := by
  rw [firstResolution_eq, publish_ch, resolveEnabled_ch, publish_level, level_of_blank (resolveEnabled_blank _)]
  rfl

theorem firstResolution_kept : (s.setSignal { s.signal with phaseOn := flashPhase 0 }).KeptByParts (firstResolution s) :=
  (resolveEnabled_kept _).trans (publish_kept _)

theorem takeIsolateLevel_blank : (takeIsolateLevel s).blank = s.blank := by
  unfold takeIsolateLevel
  split
  · exact setIsolateCause_blank true s
  · rfl

theorem startListening_signal : (startListening s).signal = s.signal := rfl

theorem startListening_loader : (startListening s).loader = s.loader := rfl

theorem startListening_ch : (startListening s).ch c = s.ch c := ch_congr rfl c

theorem startListening_level : (startListening s).level c = s.level c := level_congr rfl rfl fun _ _ _ => rfl

/-- The state in which the first resolution is taken (R169). -/
abbrev readyState (buffer : List Byte) (din : DinLevels) (s : State) : State :=
  takeIsolateLevel (startPeriods din (handOut buffer s))

theorem loadEnd_eq (buffer : List Byte) (din : DinLevels) :
    loadEnd buffer din s = startListening (firstResolution (readyState buffer din s)) := rfl

theorem readyState_blank (buffer : List Byte) (din : DinLevels) :
    (readyState buffer din s).blank = (startPeriods din (handOut buffer s)).blank := takeIsolateLevel_blank _

theorem startPeriods_signal (din : DinLevels) : (startPeriods din s).signal = { s.signal with inputs := din } := by
  simp [startPeriods, loadDuties]

/-- At load end the direct inputs are read and the flash phase is on (R71, R169). -/
theorem loadEnd_inputs (buffer : List Byte) (din : DinLevels) : (loadEnd buffer din s).signal.inputs = din := by
  have ready : (readyState buffer din s).signal = { (handOut buffer s).signal with inputs := din } := by
    rw [signal_of_blank (readyState_blank s buffer din), startPeriods_signal]
  rw [loadEnd_eq, startListening_signal, firstResolution_eq, publish_inputs, signal_of_blank (resolveEnabled_blank _), State.setSignal_signal, ready]

theorem loadEnd_loader (buffer : List Byte) (din : DinLevels) : (loadEnd buffer din s).loader = (handOut buffer s).loader :=
  (loadEnd_runs s buffer din).loader

theorem exec_readStops {s : State} (h : s.loader.phase = .reading) (memory : List Byte) (din : DinLevels) :
    exec (.readStops memory din) s = .next (loadEnd (readImage memory) din s) :=
  congrArg Host.Outcome.next (if_pos h)

theorem loadEnd_keys (buffer : List Byte) (din : DinLevels) :
    (loadEnd buffer din s).keys = (storeOf s.own (tableOf buffer)).map fun e => (e.source, e.signal) := by
  refine (loadEnd_runs s buffer din).sameLoad.1.2.2.trans ?_
  have own : (checkImage buffer s.loader).station = s.loader.station := by
    unfold checkImage
    split <;> rfl
  simp only [handOut, State.setSignal, State.setLoader, State.own, own]

theorem loadEnd_bindings (buffer : List Byte) (din : DinLevels) : (loadEnd buffer din s).signal.bindings = tableOf buffer :=
  (loadEnd_runs s buffer din).sameLoad.1.2.1

/-- At load end an enabled channel holds the level that its bindings make (R169). -/
theorem loadEnd_demandLevel (buffer : List Byte) (din : DinLevels) (enabled : ((loadEnd buffer din s).cfg c).enabled = true) :
    ((loadEnd buffer din s).ch c).demandLevel = (loadEnd buffer din s).level c := by
  have loader := (firstResolution_kept (readyState buffer din s)).loader
  have enabled : ((readyState buffer din s).cfg c).enabled = true := by
    rw [← cfg_congr (s := readyState buffer din s) loader c, ← cfg_congr (startListening_loader _) c, ← loadEnd_eq]
    exact enabled
  rw [loadEnd_eq, startListening_ch, startListening_level, firstResolution_ch, if_pos enabled, Channel.delivered_demandLevel]

theorem limpRecord_of_rejected {buffer : List Byte} (h : imageAccepted buffer = false) (din : DinLevels) :
    (loadEnd buffer din s).cfg c = limpRecord c := by
  rw [State.cfg, loadEnd_configuration, if_neg (by simp [h])]
  simp [limpConfiguration]

end

end Sys2Proof.Machine

namespace Sys2Proof
open Machine

/-- Settles O9: a rejected image hands out the fixed configuration and an empty table. -/
theorem limpRunsTheFixedConfiguration : Obligations.LimpRunsTheFixedConfiguration := by
  intro s memory din reading rejected
  refine ⟨_, exec_readStops reading memory din, ?_⟩
  generalize readImage memory = buffer at rejected
  have limp : (loadEnd buffer din s).loader.runMode = .limp := by
    simp [loadEnd_loader, handOut, checkImage, rejected]
  have table : tableOf buffer = [] := by rw [tableOf, if_neg (by simp [rejected])]
  have bindings : (loadEnd buffer din s).signal.bindings = [] := by rw [loadEnd_bindings, table]
  refine ⟨limp, ?_, ?_, ?_, fun c => ?_, bindings, ?_, fun c hc => ?_⟩
  · rw [State.own, loadEnd_loader]
    simp [handOut, checkImage, rejected, State.own]
  · simp [State.alone, limp]
  · rw [State.params, loadEnd_configuration, if_neg (by simp [rejected])]
    rfl
  · rw [limpRecord_of_rejected s c rejected]
    simp [limpRecord, Nat.lt_succ_iff]
  · have keys := loadEnd_keys s buffer din
    rw [table] at keys
    exact List.map_eq_nil_iff.mp keys
  · have enabled : ((loadEnd buffer din s).cfg c).enabled = true := by
      rw [limpRecord_of_rejected s c rejected]
      simp [limpRecord, Nat.lt_succ_iff, hc]
    rw [loadEnd_demandLevel s c buffer din enabled, State.level, if_pos limp, loadEnd_inputs, if_pos (Nat.lt_succ_iff.mpr hc)]
    rfl

end Sys2Proof


/-! The shares of the stations of a class (R122, R123): each cut rounds up, so that together they cover what is to be given up. -/

namespace Sys2Proof.Machine

section
variable {rem total : Nat}

theorem cutOf_mul_le (h : 0 < total) (d : Nat) : total * cutOf rem total d ≤ min rem total * d + (total - 1) := by
  rw [cutOf, if_neg (by omega), ceilDiv]
  exact (Nat.mul_div_le _ _).trans (by omega)

theorem le_cutOf_mul (h : 0 < total) (d : Nat) : min rem total * d ≤ total * cutOf rem total d := by
  rw [cutOf, if_neg (by omega), ceilDiv]
  have := Nat.lt_mul_div_succ (min rem total * d + total - 1) h
  rw [Nat.mul_succ] at this
  omega

theorem cutOf_zero (rem total : Nat) : cutOf rem total 0 = 0 := by
  unfold cutOf ceilDiv
  split
  · rfl
  · rw [Nat.mul_zero]
    exact Nat.div_eq_of_lt (by omega)

/-- No station cuts more than it draws (R122). -/
theorem cutOf_le (d : Nat) : cutOf rem total d ≤ d := by
  unfold cutOf ceilDiv
  split
  · exact Nat.zero_le d
  next some =>
    have pos : 0 < total := by omega
    have bound : min rem total * d ≤ total * d := Nat.mul_le_mul_right d (Nat.min_le_right _ _)
    refine Nat.le_of_lt_succ ((Nat.div_lt_iff_lt_mul pos).mpr ?_)
    rw [Nat.succ_mul, Nat.mul_comm d total]
    omega

theorem le_cuts_mul (h : 0 < total) (draws : List Nat) :
    min rem total * draws.sum ≤ total * (draws.map (cutOf rem total)).sum := by
  induction draws with
  | nil => simp
  | cons d rest ih =>
    rw [List.sum_cons, List.map_cons, List.sum_cons, Nat.mul_add, Nat.mul_add]
    exact Nat.add_le_add (le_cutOf_mul h d) ih

theorem cuts_mul_le (h : 0 < total) (draws : List Nat) : total * (draws.map (cutOf rem total)).sum ≤
    min rem total * draws.sum + (total - 1) * (draws.filter fun d => 0 < d).length := by
  induction draws with
  | nil => simp
  | cons d rest ih =>
    have each := cutOf_mul_le (rem := rem) h d
    rw [List.sum_cons, List.map_cons, List.sum_cons, Nat.mul_add, Nat.mul_add, List.filter_cons]
    split
    · rw [List.length_cons, Nat.mul_succ]
      omega
    next none =>
      have zero : d = 0 := by simpa using none
      rw [zero, cutOf_zero]
      omega

/-- Where a class draws, some station of it does. -/
theorem some_draws {draws : List Nat} (h : 0 < draws.sum) : 0 < (draws.filter fun d => 0 < d).length := by
  rw [List.length_pos_iff_exists_mem]
  by_contra none
  have idle : ∀ d ∈ draws, d = 0 := fun d hd => by
    by_contra some
    exact none ⟨d, List.mem_filter.mpr ⟨hd, by simpa [Nat.pos_iff_ne_zero] using some⟩⟩
  rw [List.sum_eq_zero idle] at h
  exact absurd h (by decide)

end

end Sys2Proof.Machine

namespace Sys2Proof
open Machine

/-- Settles O17: each cut lies between its exact share and that rounded up. -/
theorem sharesCoverTheExcess : Obligations.SharesCoverTheExcess := by
  intro rem draws total cuts
  refine ⟨?_, fun some => ?_, fun d _ => ⟨cutOf_le d, fun zero => zero ▸ cutOf_zero rem total⟩⟩
  · rcases Nat.eq_zero_or_pos total with none | some
    · simp [none]
    · refine Nat.le_of_mul_le_mul_left ?_ some
      rw [Nat.mul_comm]
      exact le_cuts_mul some draws
  · have above := cuts_mul_le (rem := rem) some draws
    have drawing := some_draws some
    refine Nat.lt_of_mul_lt_mul_left (a := total) ?_
    rw [Nat.mul_add]
    refine Nat.lt_of_le_of_lt above ?_
    rw [Nat.mul_comm (min rem total)]
    refine Nat.add_lt_add_left ?_ _
    exact Nat.mul_lt_mul_of_pos_right (by omega) drawing

end Sys2Proof


/-! The waits of peers and of the station (O23, O26), and what a period start does (O11, O12). -/

namespace Sys2Proof.Machine

section
variable (s : State)

theorem State.setPeer_self (p : Stn) : s.setPeer p (s.peer p) = s := by
  simp [State.setPeer, State.peer]

theorem State.setCh_self (c : Chan) : s.setCh c (s.ch c) = s := by
  simp [State.setCh, State.ch]

theorem publishes_iff : s.publishes = true ↔ s.params.dinPublish = true ∧ s.loader.runMode = .running := by
  simp [State.publishes]

/-- A publication handed over (R75, R88). -/
theorem handOver_signal (l : LinkController) (din : DinLevels) : l.handOver (.signal din) =
    if l.muted = true then l
    else if l.onLine = some .signal then { l with heldAside := some (.signal din) }
    else { l with slots := { l.slots with signal := some (.signal din) } } := rfl

theorem publish_of_publishes (h : s.publishes = true) : publish s =
    (s.handOver (.signal s.signal.inputs)).setSignal { s.signal with pubCount := 0 } := if_pos h

theorem publish_of_silent (h : s.publishes = false) : publish s = s := if_neg (by simp [h])

end

/-! ### A demand level delivered -/

section
variable (x : Channel) (k : ChannelConfig) (level : Nat)

theorem Channel.wanted_demandDuty : (x.wanted k).demandDuty = x.demandDuty := by
  unfold Channel.wanted
  split <;> rfl

theorem Channel.delivered_demandDuty : (x.delivered k level).demandDuty = demandDutyOf k.mode level := by
  unfold Channel.delivered
  extract_lets falls y z
  have held : z.demandDuty = demandDutyOf k.mode level := by
    unfold z
    split <;> rfl
  split
  · split
    · exact (z.wanted_demandDuty k).trans held
    · exact held
  · exact held
  · split <;> exact held

/-- A level that neither lets demand fall nor, in OFF, begins it has the duty computed again (R7). -/
theorem Channel.delivered_of_stays (falls : ¬(demandOn k.mode x.demandLevel = true ∧ demandOn k.mode level = false))
    (rises : ¬(x.state = .off ∧ demandOn k.mode x.demandLevel = false ∧ demandOn k.mode level = true)) :
    x.delivered k level = Channel.recompute { x with demandLevel := level, demandDuty := demandDutyOf k.mode level } := by
  have stays : (demandOn k.mode x.demandLevel && !demandOn k.mode level) = false := by simpa using falls
  unfold Channel.delivered
  rw [stays]
  split
  next off => exact if_neg (by simpa [off] using rises)
  next => rfl
  next => rfl

/-- What a delivered level makes of a channel (R7): its duty, its state by the table, and its record where demand falls. -/
theorem Channel.delivered_follows : x.FollowsDemand (x.delivered k level) k level := by
  refine ⟨x.delivered_demandLevel k level, (x.delivered_demandDuty k level).trans (by cases k.mode <;> rfl), ?_⟩
  unfold Channel.demandState
  by_cases cut : x.state = .cut
  · by_cases falls : demandOn k.mode x.demandLevel = true ∧ demandOn k.mode level = false <;>
      simp [Channel.delivered, Channel.recompute, Channel.resetAttempts, cut, falls]
  · by_cases falls : demandOn k.mode x.demandLevel = true ∧ demandOn k.mode level = false
    · by_cases off : x.state = .off
      · simp [Channel.delivered, Channel.recompute, Channel.resetAttempts, falls, off]
      · simp [Channel.delivered, Channel.recompute, Channel.resetAttempts, Channel.enter, ChState.immediateOff, cut, falls,
          Ne.symm off, effectiveDutyOf]
    · by_cases rises : x.state = .off ∧ demandOn k.mode x.demandLevel = false ∧ demandOn k.mode level = true
      · by_cases zero : k.cls = 0 <;>
          simp [Channel.delivered, Channel.wanted, Channel.recompute, Channel.enter, ChState.immediateOff, rises, zero,
            effectiveDutyOf]
      · rw [x.delivered_of_stays k level falls rises]
        simp only [Channel.recompute, cut, falls, rises, if_false, if_true, true_and]
        exact ⟨(if_neg fun ⟨tripped, off⟩ => absurd (tripped.symm.trans off) (by decide)).symm, trivial⟩

theorem Channel.resolvedTo_state : (x.resolvedTo k level).state =
    if level = x.demandLevel then x.state else x.demandState k level := by
  unfold Channel.resolvedTo
  split
  · rfl
  · exact (x.delivered_follows k level).2.2.1

end

/-! ### A period start that opens no epoch -/

theorem firstOnly_nodup (l : List EpochTask) : (firstOnly l).Nodup := by
  induction l with
  | nil => exact List.nodup_nil
  | cons t rest ih => exact List.nodup_cons.mpr ⟨by simp, ih.filter _⟩

theorem orderParts_nodup (o : EpochOrder) : (orderParts o).Nodup := firstOnly_nodup _

/-- A list without repetitions of two things holds them in one order or the other. -/
theorem eq_pair_of_nodup {α : Type} [DecidableEq α] {a b : α} (ne : a ≠ b) {l : List α} (once : l.Nodup)
    (mem : ∀ x, x ∈ l ↔ x = a ∨ x = b) : l = [a, b] ∨ l = [b, a] := by
  have perm : l.Perm [a, b] := (List.perm_ext_iff_of_nodup once (by simp [ne])).mpr fun x => by simp [mem]
  obtain ⟨x, y, rfl⟩ := List.length_eq_two.mp perm.length_eq
  obtain ⟨other, -⟩ := List.nodup_cons.mp once
  have first := (mem x).mp (by simp)
  have second := (mem y).mp (by simp)
  rcases first with rfl | rfl <;> rcases second with rfl | rfl <;> simp_all

/-- The two parts of a period start, in one order or the other (R26, R74). -/
theorem periodParts_cases (o : EpochOrder) : periodParts o = [.loadDuties, .readInputs] ∨ periodParts o = [.readInputs, .loadDuties] := by
  refine eq_pair_of_nodup (by decide) ((orderParts_nodup o).filter _) fun t => ?_
  simp only [periodParts, List.mem_filter, Bool.or_eq_true, decide_eq_true_eq, and_iff_right_iff_imp]
  rintro (rfl | rfl) <;> exact mem_orderParts (by decide) o

/-- The state in which the parts of such a period start are taken. -/
abbrev State.periodBegun (s : State) (charge : Bool) : State :=
  let s1 := (addPending s).atStep 0
  let s2 := s1.setTimer { s1.timer with completed := s1.timer.completed + 1 }
  s2.setPins { s2.pins with charge := charge }

theorem exec_periodCompleted {s : State} (loaded : s.isLoaded = true) (count : s.timer.completed < 3) (inp : Inputs) (ord : EpochOrder) :
    exec (.periodCompleted inp ord) s = .next (readInputs inp.din (loadDuties (s.periodBegun inp.charge))) ∨
    exec (.periodCompleted inp ord) s = .next (loadDuties (readInputs inp.din (s.periodBegun inp.charge))) := by
  have taken : exec (.periodCompleted inp ord) s = .next (runTasks 0 inp.din (periodParts ord) (s.periodBegun inp.charge)) :=
    congrArg Host.Outcome.next ((whenLoaded_of_loaded loaded).trans (if_pos count))
  rw [taken]
  rcases periodParts_cases ord with e | e <;> rw [e]
  · exact .inl rfl
  · exact .inr rfl

/-- Frames, signals and configuration are the same, and every channel has the same demand and state. -/
structure State.SameDemand (s t : State) : Prop where
  loader : t.loader = s.loader
  signal : t.signal = s.signal
  link : t.link = s.link
  level : ∀ c, (t.ch c).demandLevel = (s.ch c).demandLevel
  state : ∀ c, (t.ch c).state = (s.ch c).state

theorem loadDuties_sameDemand (s : State) : s.SameDemand (loadDuties s) where
  loader := by simp [loadDuties]
  signal := by simp [loadDuties]
  link := by simp [loadDuties]
  level c := by rw [loadDuties_ch]
  state c := by rw [loadDuties_ch]

theorem periodBegun_sameDemand (s : State) (charge : Bool) : s.SameDemand (s.periodBegun charge) where
  loader := by simp [addPending]
  signal := by simp [addPending]
  link := by simp [addPending]
  level c := by simp [addPending]
  state c := by simp [addPending]

theorem State.SameDemand.refl (s : State) : s.SameDemand s := ⟨rfl, rfl, rfl, fun _ => rfl, fun _ => rfl⟩

theorem State.SameDemand.trans {s t u : State} (h : s.SameDemand t) (g : t.SameDemand u) : s.SameDemand u :=
  ⟨g.loader.trans h.loader, g.signal.trans h.signal, g.link.trans h.link, fun c => (g.level c).trans (h.level c),
    fun c => (g.state c).trans (h.state c)⟩

/-- A period start that opens no epoch reads the inputs, before or after the duties are copied (log entry 3). -/
theorem exec_periodCompleted_reads {s : State} (loaded : s.isLoaded = true) (count : s.timer.completed < 3) (inp : Inputs)
    (ord : EpochOrder) : ∃ v t, exec (.periodCompleted inp ord) s = .next t ∧ s.SameDemand v ∧ (readInputs inp.din v).SameDemand t ∧
      t.timer.completed = s.timer.completed + 1 ∧ t.modulator.step = 0 := by
  have begun := periodBegun_sameDemand s inp.charge
  have kept (u : State) := readInputs_kept u inp.din
  rcases exec_periodCompleted loaded count inp ord with e | e
  · refine ⟨_, _, e, begun.trans (loadDuties_sameDemand _), .refl _, ?_, ?_⟩
    · rw [(kept _).timer]
      simp [loadDuties, addPending]
    · rw [(kept _).modulator]
      simp [loadDuties, addPending]
  · refine ⟨_, _, e, begun, loadDuties_sameDemand _, ?_, ?_⟩
    · simp [loadDuties, (kept _).timer, addPending]
    · simp [loadDuties, (kept _).modulator, addPending]

/-- A publication is made of the levels held (R75). -/
theorem publish_link {s : State} (h : s.publishes = true) (heard : s.link.muted = false) :
    if s.link.onLine = some .signal then (publish s).link.heldAside = some (.signal s.signal.inputs)
    else (publish s).link.slots.signal = some (.signal s.signal.inputs) := by
  have handed : (publish s).link = s.link.handOver (.signal s.signal.inputs) := by
    rw [publish_of_publishes s h]
    rfl
  rw [handed, handOver_signal]
  by_cases line : s.link.onLine = some .signal <;> simp [line, heard]

/-- Inputs that have changed are published (R75). -/
theorem readInputs_publishes {s : State} {din : DinLevels} (changed : din ≠ s.signal.inputs) (h : s.publishes = true) :
    (readInputs din s).signal.pubCount = 0 ∧ (s.link.muted = false →
      if s.link.onLine = some .signal then (readInputs din s).link.heldAside = some (.signal din)
      else (readInputs din s).link.slots.signal = some (.signal din)) := by
  obtain ⟨test, -, e⟩ := readInputs_of_ne changed
  generalize hw : resolve test (s.setSignal { s.signal with inputs := din }) = w at e
  have blank : w.blank = (s.setSignal { s.signal with inputs := din }).blank := hw ▸ resolve_blank test _
  have link : w.link.blank = s.link.blank := (link_of_blank blank).trans rfl
  have signal : w.signal = { s.signal with inputs := din } := (signal_of_blank blank).trans rfl
  have publishes : w.publishes = true := by
    rw [← h, State.publishes, State.publishes, params_congr (loader_of_blank blank), loader_of_blank blank]
    rfl
  rw [e]
  refine ⟨by rw [publish_of_publishes w publishes]; rfl, fun heard => ?_⟩
  have published := publish_link publishes ((LinkController.muted_of_blank link).trans heard)
  rwa [LinkController.onLine_of_blank link, signal] at published

end Sys2Proof.Machine

namespace Sys2Proof
open Machine

/-- Settles O23: each wait acts where its count has been reached, and otherwise puts back what it found. -/
theorem peerWaitsRunOut : Obligations.PeerWaitsRunOut := by
  intro s p ty loaded e
  refine ⟨?_, ?_, congrArg Host.Outcome.next (whenLoaded_of_loaded loaded)⟩
  · refine congrArg Host.Outcome.next ((whenLoaded_of_loaded loaded).trans ?_)
    simp only [PeerEntry.toStale, Bool.and_eq_true, decide_eq_true_eq]
    split
    · rfl
    · exact s.setPeer_self p
  · refine congrArg Host.Outcome.next ((whenLoaded_of_loaded loaded).trans ?_)
    simp only [PeerEntry.toAbsent, Bool.and_eq_true, decide_eq_true_eq]
    split
    · rfl
    · exact s.setPeer_self p

/-- Settles O26: each wait's guard holds, and its row is the statement's. -/
theorem stationWaitsRunOut : Obligations.StationWaitsRunOut := by
  intro s c loaded
  refine ⟨fun count => ?_, fun count joined => ?_, fun count din run => ?_⟩
  · exact congrArg Host.Outcome.next ((whenLoaded_of_loaded loaded).trans (if_pos count))
  · refine congrArg Host.Outcome.next ((whenLoaded_of_loaded loaded).trans ?_)
    rw [isolationDue, if_pos (by simp [count, joined])]
    simp [enterIsolated, State.refreshInUse, State.alone, LinkController.aloneByLink, State.setLink, State.setBudget]
  · refine congrArg Host.Outcome.next ((whenLoaded_of_loaded loaded).trans ?_)
    rw [periodicPublication, if_pos count, publish_of_publishes s ((publishes_iff s).mpr ⟨din, run⟩)]
    rw [← handOver_signal]
    rfl

/-- Settles O11: with the inputs at the levels held the reading of them changes nothing, so the duties are copied alone. -/
theorem periodCompletedBeginsTheNextPeriod : Obligations.PeriodCompletedBeginsTheNextPeriod := by
  intro s charge ord loaded count
  have begun : loadDuties (s.periodBegun charge) = { s with
      channels := Vector.ofFn fun c =>
        { s.ch c with
          drawAcc := (s.ch c).drawAcc + (match (s.ch c).pendingTerm with | some p => p.sample * p.duty | none => 0)
          pendingTerm := none
          activeDuty := (s.ch c).shadowDuty }
      sense := { s.sense with supplySum := s.sense.supplySum + s.sense.pendingSupply.getD 0, pendingSupply := none }
      modulator := { s.modulator with step := 0 }
      timer := { s.timer with completed := s.timer.completed + 1 }
      pins := { s.pins with charge := charge } } := by
    simp only [loadDuties, State.mapCh, State.ch]
    simp [addPending, State.mapCh, State.setTimer, State.atStep, State.setSense, State.ch] <;>
      rfl
  rcases exec_periodCompleted loaded count { din := s.signal.inputs, charge := charge } ord with e | e <;>
    rw [e, readInputs_of_eq (by simp [loadDuties, addPending])] <;> exact congrArg Host.Outcome.next begun

/-- Settles O12: the channels bound to a changed input are resolved, in whichever order with the copying of the duties. -/
theorem aPeriodStartReadsTheDirectInputs : Obligations.APeriodStartReadsTheDirectInputs := by
  intro s inp ord loaded count
  obtain ⟨v, t, taken, before, after, periods, edge⟩ := exec_periodCompleted_reads loaded count inp ord
  have kept := readInputs_kept v inp.din
  have moves (c : Chan) : v.InputMoves inp.din c ↔ s.InputMoves inp.din c :=
    inputMoves_congr before.loader (by rw [before.signal]) (by rw [before.signal]) inp.din
  refine ⟨t, taken, ?_, periods, edge, ?_, fun c => ?_, fun changed din run => ?_, fun same => ?_⟩
  · rw [after.signal, readInputs_inputs]
  · rw [after.signal, kept.store, before.signal]
  · have level : t.level c = (readInputs inp.din v).level c :=
      level_congr after.loader (by rw [after.signal]) fun _ _ _ => by rw [after.signal]
    refine ⟨fun hit => ⟨t.level c, levelIs_level t c, ?_, ?_⟩, fun idle => ⟨?_, ?_⟩⟩
    · rw [after.level, readInputs_ch_of_moves ((moves c).mpr hit), Channel.resolvedTo_demandLevel, level]
    · rw [after.state, readInputs_ch_of_moves ((moves c).mpr hit), Channel.resolvedTo_state, level]
      simp only [Channel.demandState, before.level, before.state, cfg_congr before.loader]
    · rw [after.level, readInputs_ch_of_not_moves (mt (moves c).mp idle), before.level]
    · rw [after.state, readInputs_ch_of_not_moves (mt (moves c).mp idle), before.state]
  · have publishes : v.publishes = true := by
      rw [publishes_iff, params_congr before.loader, before.loader]
      exact ⟨din, run⟩
    have published := readInputs_publishes (by rwa [before.signal]) publishes
    rwa [← after.signal, ← after.link, before.link] at published
  · rw [after.link, after.signal, readInputs_of_eq (by rw [before.signal, same])]
    exact ⟨before.link, before.signal⟩

end Sys2Proof


/-! One event at a channel: a Store entry that expires (O22), the end of a window (O24), a retry (O25). -/

namespace Sys2Proof.Machine

section
variable {s : State}

theorem State.setCh_setCh (s : State) (c : Chan) (x y : Channel) : (s.setCh c x).setCh c y = s.setCh c y := by
  simp [State.setCh]

/-! ### Resolution -/

/-- A resolution of the channels that its test names is the one the statements describe (R73). -/
theorem resolve_resolves {u : State} {test : Chan → Bool} {p : Chan → Prop} (loader : u.loader = s.loader)
    (channels : u.channels = s.channels) (picks : ∀ c, test c = true ↔ p c) : s.Resolves (resolve test u) p := by
  have levels := level_of_blank (resolve_blank test u)
  have resolved (c : Chan) := resolve_ch u c test
  generalize resolve test u = t at levels resolved ⊢
  intro c
  have level := levels c
  have ch := resolved c
  rw [cfg_congr loader, ch_congr channels] at ch
  refine ⟨t.level c, levelIs_level t c, fun ⟨enabled, named, away⟩ => ?_, fun still => ?_⟩ <;> rw [ch]
  · rw [if_pos ⟨enabled, (picks c).mpr named⟩, Channel.resolvedTo, if_neg (level ▸ away), level]
    exact Channel.delivered_follows _ _ _
  · split
    next named =>
      refine if_pos ?_
      by_contra away
      exact still ⟨named.1, (picks c).mp named.2, level ▸ away⟩
    next => rfl

theorem bound_iff (s : State) (test : Binding → Bool) (c : Chan) :
    s.bound test c = true ↔ ∃ b ∈ s.signal.bindings, b.chan = c ∧ test b = true := by
  simp [State.bound]

/-! ### The end of a window -/

theorem enter_on_surgeEnds {c : Chan} (h : (s.ch c).state = .inrush) (r : ShedReason) : s.SurgeEnds (enter c .on r s) c := by
  have ended : enter c .on r s = inrushEnded c (s.setCh c ((s.ch c).enter .on r (s.cfg c).window)) := by
    simp [enter, notices, h]
  rw [ended]
  exact inrushEnded_surgeEnds h _

/-! ### A retry -/

/-- A channel that waits for its retry, its timer stopped. -/
abbrev Channel.due (x : Channel) : Channel := { x with retryTimer := none }

theorem retryDue_eq {c : Chan} (timer : (s.ch c).retryTimer = some 0) (tripped : (s.ch c).state = .tripped)
    (wants : demandOn (s.cfg c).mode (s.ch c).demandLevel = true) :
    retryDue c s = switchOn c (s.setCh c (s.ch c).due) := by
  rw [retryDue, if_pos timer]
  exact if_pos (by simp [State.updCh, State.wants, tripped, wants])

/-- Leaving TRIPPED for REQUESTED joins the queue (R138). -/
theorem enter_requested_of_tripped {c : Chan} {x : Channel} (old : x.state = .tripped) (r : ShedReason) :
    enter c .requested r (s.setCh c x) = joined c (s.setCh c (x.enter .requested r (s.cfg c).window)) := by
  simp [enter, notices, old, State.setCh_setCh]

theorem enter_inrush_of_tripped {c : Chan} {x : Channel} (old : x.state = .tripped) (r : ShedReason) (zero : (s.cfg c).cls = 0) :
    enter c .inrush r (s.setCh c x) = inrushBegun c (s.setCh c (x.enter .inrush r (s.cfg c).window)) := by
  simp [enter, notices, old, State.setCh_setCh, zero]

/-- The frame with which a class 0 surge begins (R149). -/
theorem inrushBegun_link (c : Chan) (s : State) : (inrushBegun c s).link =
    if s.sched.announceAmount < s.surgeAmount ∨ 0 < s.surgeAmount ∧ s.sched.announceHold < s.surgeHold then
      s.link.handOver (.reserve .announce 0 c s.surgeAmount s.surgeHold) else s.link := by
  simp only [inrushBegun, Bool.or_eq_true, Bool.and_eq_true, decide_eq_true_eq, gt_iff_lt]
  split <;> rfl

end

end Sys2Proof.Machine

namespace Sys2Proof
open Machine

/-- Settles O22: the entry expires, and the channels bound to its key are resolved over the Store that it leaves. -/
theorem signalExpiryHandsOverToTheFallback : Obligations.SignalExpiryHandsOverToTheFallback := by
  intro s src sig loaded ⟨e, held, source, signal, fresh, age⟩
  have found : (s.signal.store.any fun e : StoreEntry =>
      e.hasKey src sig.val && (e.state = .fresh && s.params.lifetime ≤ e.age)) = true := by
    refine List.any_eq_true.mpr ⟨e, held, ?_⟩
    simp [StoreEntry.hasKey, source, signal, fresh, age]
  have expired : expireEntry src sig s = resolve _ _ := if_pos found
  have store : (s.signal.store.map fun e : StoreEntry =>
      if e.hasKey src sig.val && (e.state = .fresh && s.params.lifetime ≤ e.age) then e.expire s.params.lifetime else e) =
      s.signal.store.map fun e =>
        if e.source = src ∧ e.signal = sig ∧ e.state = .fresh ∧ s.params.lifetime ≤ e.age then { e with state := .expired } else e := by
    refine List.map_congr_left fun e _ => ?_
    simp only [StoreEntry.hasKey, StoreEntry.expire, Bool.and_eq_true, decide_eq_true_eq, Fin.ext_iff, and_assoc]
    split
    next due => exact if_pos due.2.2
    next => rfl
  rw [store] at expired
  refine ⟨_, congrArg Host.Outcome.next ((whenLoaded_of_loaded loaded).trans expired), ?_⟩
  generalize hu : s.setStore _ = u
  have kept := resolve_kept u (u.bound fun b => b.source = src && b.signal = sig)
  have blank := resolve_blank (u.bound fun b => b.source = src && b.signal = sig) u
  subst hu
  refine ⟨signal_of_blank blank, resolve_resolves rfl rfl fun c => by simp [bound_iff], kept.timer, kept.sense, kept.peers,
    kept.reservations, kept.budget, kept.diag, kept.cuts, kept.modulator, kept.loader⟩

/-- Settles O24: a last sample above the steady limit trips, any other lets the channel go on; both end the surge. -/
theorem anInrushWindowEndsInOnOrStall : Obligations.AnInrushWindowEndsInOnOrStall := by
  intro s c loaded inrush window x
  have live : (s.ch c).state.live = true := (ChState.live_iff _).mpr (.inl inrush)
  have ends : windowEnd c s = match (s.ch c).lastSample with
      | some v => if (s.cfg c).steadyLimit < v then trip c .stall v 0 s else enter c .on .none s
      | none => enter c .on .none s := if_pos (by simp [inrush, window])
  refine ⟨_, congrArg Host.Outcome.next (whenLoaded_of_loaded loaded), ?_⟩
  have kept := enter_kept c s .on .none
  have entered : x.enter .on .none (s.cfg c).window = { x with
      state := .on, cap := 255, shedReason := .none, effectiveDuty := min x.demandDuty 255
      shadowDuty := min x.demandDuty 255, openCount := 0, onEpochs := 0 } := by
    simp [Channel.enter, Channel.recompute, effectiveDutyOf, ChState.immediateOff, x, inrush, window]
  by_cases stalls : ∃ v, x.lastSample = some v ∧ (s.cfg c).steadyLimit < v
  · obtain ⟨v, sample, above⟩ := stalls
    have tripped : windowEnd c s = trip c .stall v 0 s := by rw [ends, sample]; exact if_pos above
    rw [tripped]
    have leaves := trip_leaves live .stall v 0
    refine ⟨fun w hw _ => ?_, fun below => absurd (below v sample) (Nat.not_le_of_lt above), trip_surgeEnds live .stall v 0⟩
    cases sample.symm.trans hw
    exact leaves
  · have goes : windowEnd c s = enter c .on .none s := by
      rw [ends]
      split
      next v sample => exact if_neg fun above => stalls ⟨v, sample, above⟩
      next => rfl
    rw [goes]
    refine ⟨fun v hv above => absurd ⟨v, hv, above⟩ stalls, fun _ => ⟨?_, fun d hd => enter_ch_ne c d s .on .none hd, kept.cuts,
      kept.sense, kept.pins, kept.modulator, kept.diag, keeps_of_blank (enter_blank c _ _ s)⟩, enter_on_surgeEnds inrush .none⟩
    rw [enter_ch_self, entered]

/-- Settles O25: a channel that wants power leaves TRIPPED by its class. -/
theorem aRetryRejoinsLikeANewTurnOn : Obligations.ARetryRejoinsLikeANewTurnOn := by
  intro s c loaded timer tripped wants x
  have taken : exec (.retryDue c) s = .next (switchOn c (s.setCh c x.due)) :=
    congrArg Host.Outcome.next ((whenLoaded_of_loaded loaded).trans (retryDue_eq timer tripped wants))
  have due : x.due.state = .tripped := tripped
  refine ⟨fun other => ?_, fun zero => ?_⟩
  · rw [taken, switchOn, if_neg (by simpa using other), enter_requested_of_tripped due]
    simp [Channel.enter, Channel.recompute, effectiveDutyOf, ChState.immediateOff, tripped, x, joined, State.setQueue, State.setSched,
      ChState.live]
  · rw [taken, switchOn, if_pos (by simpa using zero), enter_inrush_of_tripped due _ zero]
    generalize hy : x.due.enter .inrush .none (s.cfg c).window = y
    have amount : (s.setCh c y).surgeAmount = s.SurgeSum (inrushBegun c (s.setCh c y)) := by
      rw [surgeAmount_eq (s.setCh_cfg c y)]
      simp only [State.SurgeSum, inrushBegun_ch]
    have span : (s.setCh c y).surgeHold = s.SurgeSpan (inrushBegun c (s.setCh c y)) := by
      rw [surgeHold_eq (s.setCh_cfg c y)]
      simp only [State.SurgeSpan, inrushBegun_ch]
    have kept := (setCh_kept s c y).trans (inrushBegun_kept c _)
    refine ⟨_, rfl, ?_, fun d hd => by rw [inrushBegun_ch, State.setCh_ch, if_neg hd],
      by rw [inrushBegun_sched]; rfl, by rw [inrushBegun_sched]; rfl, kept.cuts, kept.sense,
      kept.modulator, kept.diag, keeps_of_blank (by simp), by rw [inrushBegun_sched, amount], by rw [inrushBegun_sched, span], ?_⟩
    · rw [inrushBegun_ch, State.setCh_ch_self, ← hy]
      simp [Channel.enter, Channel.recompute, effectiveDutyOf, ChState.immediateOff, tripped, x]
    · rw [inrushBegun_link, amount, span]
      rfl

end Sys2Proof


/-! A current sample: what it leaves where it trips nothing (O27), and the trip of the second high one (O28). -/

namespace Sys2Proof.Machine

section
variable {s : State} {c : Chan}

/-- The channel after a current sample is taken, before the limit is looked at (R42, R43, R56). -/
theorem Channel.sampled_eq (x : Channel) (v threshold : Nat) : x.sampled v threshold = { x with
    pendingTerm := some { sample := v, duty := x.activeDuty }
    lastSample := if x.state = .inrush ∨ x.state = .on then some v else x.lastSample
    openCount :=
      if x.state = .on ∧ 0 < threshold then (if v < threshold ∧ x.openCount < 3 then x.openCount + 1 else 0) else x.openCount
    openFlag :=
      if x.state = .on ∧ 0 < threshold then
        (if v < threshold then (if x.openCount < 3 then x.openFlag else true) else false) else x.openFlag } := by
  simp only [Channel.sampled, Channel.openLoad, ChState.live_iff]
  by_cases on : x.state = .on
  · rcases Nat.eq_zero_or_pos threshold with none | some
    · simp [on, none]
    · by_cases below : v < threshold
      · by_cases few : x.openCount < 3 <;> simp [on, some, below, few, Nat.ne_of_gt some]
      · simp [on, some, below, Nat.ne_of_gt some]
  · simp [on]

/-- The state after a current sample is taken, before the limit is looked at. -/
abbrev State.sampleTaken (s : State) (c : Chan) (v : Nat) : State :=
  (s.atStep (sampleStep s.own c (s.ch c).activeDuty)).setCh c ((s.ch c).sampled v (s.cfg c).openThreshold)

theorem takeSample_eq (running : s.modulator.running = true) (driven : 1 ≤ (s.ch c).activeDuty)
    (first : (s.ch c).pendingTerm = none) (current : Nat) : takeSample c current s =
      overcurrent c (min current 511) (sampleStep s.own c (s.ch c).activeDuty) (s.sampleTaken c (min current 511)) :=
  if_pos (by simp [running, driven, first])

/-- A sample that trips nothing sets or clears the overcurrent count in INRUSH and ON (R47). -/
theorem overcurrent_of_quiet {v step : Nat} (quiet : (s.ch c).state.live = true → limitInForce (s.cfg c) (s.ch c).state < v →
    (s.ch c).overCount = 0) : overcurrent c v step s = s.setCh c { s.ch c with
      overCount := if (s.ch c).state.live = true then (if limitInForce (s.cfg c) (s.ch c).state < v then 1 else 0)
        else (s.ch c).overCount } := by
  unfold overcurrent
  split
  next live =>
    split
    next high =>
      rw [if_pos (quiet live high)]
      rfl
    next => rfl
  next => exact (s.setCh_self c).symm

theorem overcurrent_of_high {v step : Nat} (live : (s.ch c).state.live = true)
    (high : limitInForce (s.cfg c) (s.ch c).state < v) (before : (s.ch c).overCount ≠ 0) :
    overcurrent c v step s = trip c .overcurrent v step s := by
  rw [overcurrent, if_pos live, if_pos high, if_neg before]

/-- A trip begins the overcurrent count afresh and keeps the last sample (R42, R47). -/
theorem Channel.trips_overCount {x : Channel} (live : x.state.live = true) (k : ChannelConfig) (kind : FaultKind)
    (current epoch step : Nat) : (x.trips k kind current epoch step).overCount = 0 := by
  rw [Channel.trips_eq, Channel.tripState]
  split <;> exact if_pos (by simp [Channel.tripped, live])

theorem Channel.trips_lastSample (x : Channel) (k : ChannelConfig) (kind : FaultKind) (current epoch step : Nat) :
    (x.trips k kind current epoch step).lastSample = x.lastSample := by
  rw [Channel.trips_eq, Channel.tripState]
  split <;> rfl

/-- What a trip leaves, over a channel that has just been sampled at the step that then stands (R42, R43). -/
theorem tripLeaves_of_sampled {t : State} {v step : Nat}
    (h : (s.sampleTaken c v).TripLeaves t c .overcurrent v step) : s.TripLeaves t c .overcurrent v step := by
  have ch : (s.sampleTaken c v).ch c = _ := (State.setCh_ch_self _ _ _).trans ((s.ch c).sampled_eq v (s.cfg c).openThreshold)
  simp only [State.TripLeaves, State.SurgeEnds, ch] at h ⊢
  obtain ⟨state, cap, window, effective, shadow, active, fault, timer, level, duty, asserted, others, rest⟩ := h
  exact ⟨state, cap, window, effective, shadow, active, fault, timer, level, duty, asserted,
    fun d hd => (others d hd).trans (State.setCh_ch_ne _ _ _ hd), rest⟩

end

end Sys2Proof.Machine

namespace Sys2Proof
open Machine

/-- Settles O27: the sample is taken at its step, and the limit in force moves the overcurrent count alone. -/
theorem aCurrentSampleIsTaken : Obligations.ACurrentSampleIsTaken := by
  rintro s c current _ limit loaded running driven first rfl x k live rfl quiet
  refine congrArg Host.Outcome.next ((whenLoaded_of_loaded loaded).trans ?_)
  have ch : (s.sampleTaken c (min current 511)).ch c = _ := (State.setCh_ch_self _ _ _).trans (x.sampled_eq (min current 511) k.openThreshold)
  have alive : x.state.live = true ↔ x.state = .inrush ∨ x.state = .on := ChState.live_iff _
  have calm : ((s.sampleTaken c (min current 511)).ch c).state.live = true →
      limitInForce ((s.sampleTaken c (min current 511)).cfg c) ((s.sampleTaken c (min current 511)).ch c).state < min current 511 →
      ((s.sampleTaken c (min current 511)).ch c).overCount = 0 := by
    rw [ch]
    exact fun l high => quiet (alive.mp l) high
  rw [takeSample_eq running driven first, overcurrent_of_quiet calm, ch, State.setCh_setCh]
  simp only [alive]
  rfl

/-- Settles O28: above the limit with the count set, the sample trips. -/
theorem theSecondHighSampleTrips : Obligations.TheSecondHighSampleTrips := by
  rintro s c current _ limit _ loaded running driven first rfl alive rfl high before rfl
  have ch : (s.sampleTaken c (min current 511)).ch c = _ :=
    (State.setCh_ch_self _ _ _).trans ((s.ch c).sampled_eq (min current 511) (s.cfg c).openThreshold)
  have live : ((s.sampleTaken c (min current 511)).ch c).state.live = true := by
    rw [ch]
    exact (ChState.live_iff _).mpr alive
  have trips : overcurrent c (min current 511) (sampleStep s.own c (s.ch c).activeDuty) (s.sampleTaken c (min current 511)) =
      trip c .overcurrent (min current 511) (sampleStep s.own c (s.ch c).activeDuty) (s.sampleTaken c (min current 511)) := by
    refine overcurrent_of_high live ?_ ?_ <;> rw [ch]
    · exact high
    · exact before
  have tripped := trip_ch_self live .overcurrent (min current 511) (sampleStep s.own c (s.ch c).activeDuty)
  refine ⟨_, congrArg Host.Outcome.next ((whenLoaded_of_loaded loaded).trans ((takeSample_eq running driven first current).trans trips)),
    tripLeaves_of_sampled (trip_leaves live .overcurrent (min current 511) _), ?_, ?_, ?_, ?_⟩
  · rw [tripped, Channel.trips_overCount live]
  · rw [tripped, Channel.trips_lastSample, ch]
    exact if_pos alive
  · rw [tripped, ch]
    rfl
  · exact modulator_of_blank (trip_blank ..)

end Sys2Proof


/-! ### Hand-over by kind: the slot, the frame held aside, and the pairing of RESERVE and RELEASE -/

namespace Sys2Proof.Machine

variable {l : LinkController}

theorem LinkController.handOver_muted (muted : l.muted = true) (f : Frame) : l.handOver f = l := if_pos muted

theorem LinkController.handOver_reserve (heard : l.muted = false) (ty : ResType) (cls : Cls) (c : Chan)
    (amount hold : Nat) :
    l.handOver (.reserve ty cls c amount hold) = (l.dropRelease ty).place (.reserve ty cls c amount hold) :=
  if_neg (Bool.eq_false_iff.mp heard)

theorem LinkController.handOver_release (heard : l.muted = false) (ty : ResType) (c : Chan) :
    l.handOver (.release ty c) = l.placeRelease ty (.release ty c) :=
  if_neg (Bool.eq_false_iff.mp heard)

theorem LinkController.waiting_iff (x : Slot) : l.waiting x = true ↔ l.slots.get x ≠ none ∧ l.onLine ≠ some x := by
  simp [LinkController.waiting, Option.isSome_iff_ne_none]

theorem LinkController.placeRelease_of_waiting {ty : ResType} (waits : l.slots.get (.reserve ty) ≠ none)
    (off : l.onLine ≠ some (.reserve ty)) (f : Frame) :
    l.placeRelease ty f =
      if l.standing ty = true then (l.setSlot (.reserve ty) none).place f else l.setSlot (.reserve ty) none :=
  if_pos (LinkController.waiting_iff _ |>.mpr ⟨waits, off⟩)

theorem LinkController.placeRelease_of_free {ty : ResType}
    (free : l.slots.get (.reserve ty) = none ∨ l.onLine = some (.reserve ty)) (f : Frame) :
    l.placeRelease ty f = l.place f :=
  if_neg fun waits => by
    obtain ⟨held, off⟩ := (LinkController.waiting_iff _).mp waits
    exact free.elim held off

/-- Where the pairing has nothing to remove, a hand-over fills the slot or is held aside. -/
theorem LinkController.handOver_unpaired (heard : l.muted = false) {f : Frame}
    (reserve : ∀ ty, f.slot = .reserve ty → l.slots.get (.release ty) = none ∧ l.onLine ≠ some (.release ty))
    (release : ∀ ty, f.slot = .release ty → l.slots.get (.reserve ty) = none) : l.handOver f = l.place f := by
  cases f with
  | reserve ty cls c amount hold =>
    obtain ⟨none, off⟩ := reserve ty rfl
    rw [handOver_reserve heard, dropRelease_offLine off, setSlot_none none]
  | release ty c => rw [handOver_release heard, placeRelease_of_free (.inl (release ty rfl))]
  | mark | signal | status | report => exact if_neg (Bool.eq_false_iff.mp heard)

end Sys2Proof.Machine

namespace Sys2Proof

open Machine

/-- Settles O36: hand-over case by case on what stands on the line and what waits. -/
theorem reserveAndReleaseArePaired : Obligations.ReserveAndReleaseArePaired := by
  intro l ty cls c amount hold reserve release
  refine ⟨fun f muted => l.handOver_muted muted f, fun f heard hr hs => l.handOver_unpaired heard hr hs,
    fun heard waits off clear => ?_, fun heard waits off clear => ?_, fun heard line => ⟨?_, ?_⟩,
    fun heard line => ⟨?_, fun free => ?_, fun waits => ?_⟩⟩
  · rw [l.handOver_release heard, LinkController.placeRelease_of_waiting waits off,
      LinkController.place_slot (f := release) (l := l.setSlot _ _) clear]
    rfl
  · rw [l.handOver_reserve heard, LinkController.dropRelease_offLine clear]
    exact LinkController.place_slot (f := reserve) (l := l.setSlot _ _) off
  · rw [l.handOver_release heard, LinkController.placeRelease_of_free (.inr line)]
    exact LinkController.place_slot (by simp [line, Frame.slot])
  · rw [l.handOver_reserve heard, LinkController.dropRelease_offLine (by simp [line])]
    exact if_pos line
  · rw [l.handOver_reserve heard, LinkController.dropRelease_onLine line]
    exact LinkController.place_slot (l := { l with heldAside := none }) (by simp [line, Frame.slot])
  · rw [l.handOver_release heard, LinkController.placeRelease_of_free (.inl free)]
    exact if_pos line
  · rw [l.handOver_release heard, LinkController.placeRelease_of_waiting waits (by simp [line])]
    exact if_congr Iff.rfl (if_pos line) rfl

end Sys2Proof


/-! ### The end of an attempt: what stays in the slots -/

namespace Sys2Proof.Machine

variable {l : LinkController}

theorem LinkController.pairAfterLoss_alone {x : Slot}
    (alone : ∀ ty, x = .reserve ty ∨ x = .release ty →
      l.slots.get (.reserve ty) = none ∨ l.slots.get (.release ty) = none) : l.pairAfterLoss x = l := by
  cases x with
  | reserve ty => exact if_neg (by simpa [Option.isSome_iff_ne_none, imp_iff_not_or] using alone ty (.inl rfl))
  | release ty => exact if_neg (by simpa [Option.isSome_iff_ne_none, imp_iff_not_or] using alone ty (.inr rfl))
  | mark | signal | status | report => rfl

theorem LinkController.pairAfterLoss_reserve {ty : ResType} (reserve : l.slots.get (.reserve ty) ≠ none)
    (release : l.slots.get (.release ty) ≠ none) :
    l.pairAfterLoss (.reserve ty) =
      if l.standing ty = true then l.setSlot (.reserve ty) none
      else (l.setSlot (.reserve ty) none).setSlot (.release ty) none :=
  if_pos (by simp [Option.isSome_iff_ne_none, reserve, release])

theorem LinkController.pairAfterLoss_release {ty : ResType} (reserve : l.slots.get (.reserve ty) ≠ none)
    (release : l.slots.get (.release ty) ≠ none) :
    l.pairAfterLoss (.release ty) = l.setSlot (.release ty) none :=
  if_pos (by simp [Option.isSome_iff_ne_none, reserve, release])

theorem LinkController.attemptLost_of_line {x : Slot} (line : l.onLine = some x) :
    l.attemptLost = ((l.setSlot x (l.afterLoss x)).offLine).pairAfterLoss x := by
  rw [LinkController.attemptLost, line]

/-- The slots once the attempt is over and before RESERVE and RELEASE are paired. -/
theorem LinkController.offLine_get (l : LinkController) (x y : Slot) (f : Option Frame) :
    ((l.setSlot x f).offLine).slots.get y = if y = x then f else l.slots.get y :=
  l.setSlot_get x y f

theorem LinkController.attemptLost_leaves {x : Slot} (line : l.onLine = some x) :
    l.AttemptLeaves l.attemptLost x := by
  unfold LinkController.AttemptLeaves
  intro after paired
  have kept : l.afterLoss x = after := rfl
  rw [LinkController.attemptLost_of_line line, kept]
  clear_value after
  refine ⟨fun alone y => ?_, ?_⟩
  · rw [LinkController.pairAfterLoss_alone, l.offLine_get]
    intro ty which
    by_contra both
    obtain ⟨reserve, release⟩ := not_or.mp both
    refine alone ⟨ty, ?_⟩
    obtain rfl | rfl := which <;> simp_all [l.offLine_get]
  · rintro ⟨ty, ⟨rfl, other⟩ | ⟨rfl, other⟩, held⟩
    · rw [LinkController.pairAfterLoss_reserve (by simpa [l.offLine_get] using held)
        (by simpa [l.offLine_get] using other)]
      have standing : (l.setSlot (.reserve ty) after).offLine.standing ty = l.standing ty := by cases ty <;> rfl
      rw [standing]
      split
      · next stands =>
        refine ⟨by simp [LinkController.setSlot_get], ?_, fun y off _ => by simp [LinkController.setSlot_get, l.offLine_get, off]⟩
        rintro _ ⟨⟩
        simp [LinkController.setSlot_get, l.offLine_get, stands]
      · next stands =>
        refine ⟨by simp [LinkController.setSlot_get], ?_, fun y off clear => by
          simp [LinkController.setSlot_get, l.offLine_get, off, clear ty rfl]⟩
        rintro _ ⟨⟩
        simp [LinkController.setSlot_get, stands]
    · rw [LinkController.pairAfterLoss_release (by simpa [l.offLine_get] using other)
        (by simpa [l.offLine_get] using held)]
      exact ⟨by simp [LinkController.setSlot_get], fun _ => nofun, fun y off _ => by
        simp [LinkController.setSlot_get, l.offLine_get, off]⟩

/-- The bits of a number stand most significant first. -/
theorem natBits_getD {width v i : Nat} (h : i < width) :
    (natBits width v).getD i false = decide (v / 2 ^ (width - 1 - i) % 2 = 1) := by
  induction width generalizing v with
  | zero => omega
  | succ width ih =>
    rw [natBits]
    obtain rfl | below := Nat.eq_or_lt_of_le (Nat.le_of_lt_succ h)
    · simp [List.getD_eq_getElem?_getD]
      rfl
    · have place : width + 1 - 1 - i = width - 1 - i + 1 := by omega
      rw [List.getD_append _ _ _ _ (by simpa using below), ih below, Nat.div_div_eq_div_mul, ← Nat.pow_succ', place]

theorem recessiveAt_of {own : Stn} {f : Frame} {bit : Nat} (first : 2 ≤ bit) (last : bit ≤ 8)
    (high : (f.kind.val * 16 + own.val) / 2 ^ (8 - bit) % 2 = 1) : recessiveAt own f bit = true := by
  have place : 7 - 1 - (bit - 2) = 8 - bit := by omega
  simp only [recessiveAt, first, last, decide_true, Bool.true_and, natBits_getD (show bit - 2 < 7 by omega), place]
  exact decide_eq_true high

theorem lineFrame_of {x : Slot} (line : l.onLine = some x) : l.lineFrame = l.slots.get x := by
  rw [LinkController.lineFrame, line]

end Sys2Proof.Machine

namespace Sys2Proof

open Machine

/-- Settles O34: the loss ends the attempt and the slots are those that the attempt leaves. -/
theorem lostContentionKeepsTheFrame : Obligations.LostContentionKeepsTheFrame := by
  intro s x f bit loaded line waits first last high
  have lost : contentionLost bit s = s.setLink s.link.attemptLost := by
    rw [contentionLost, lineFrame_of line, waits]
    exact if_pos (recessiveAt_of first last high)
  exact ⟨s.link.attemptLost, congrArg Host.Outcome.next ((whenLoaded_of_loaded loaded).trans lost),
    LinkController.attemptLost_leaves line, LinkController.attemptLost_eq line⟩

/-- Settles O35: the abort ends the attempt as a loss does, counts it, and at 128 the link falls silent. -/
theorem anAbortCountsAndMutes : Obligations.AnAbortCountsAndMutes := by
  intro s x f bit loaded line waits outside
  have out : outsideArbitration f bit = true := by simpa [outsideArbitration] using outside
  have ended : exec (.abort bit) s = .next (
      let s1 := s.setLink { s.link.attemptLost with txErr := s.link.txErr + 8 }
      if 128 ≤ s1.link.txErr then enterMuted s1 else s1) := by
    refine congrArg Host.Outcome.next ((whenLoaded_of_loaded loaded).trans ?_)
    rw [abortFrame, lineFrame_of line, waits]
    exact if_pos out
  refine ⟨fun few => ⟨{ s.link.attemptLost with txErr := s.link.txErr + 8 }, ?_,
    LinkController.attemptLost_leaves line, ?_⟩, fun many => ?_⟩
  · rw [ended]
    exact congrArg Host.Outcome.next (if_neg (Nat.not_le.mpr few))
  · rw [LinkController.attemptLost_eq line]
  · rw [ended]
    refine congrArg Host.Outcome.next ((if_pos many).trans ?_)
    rw [LinkController.attemptLost_eq line]
    rfl

end Sys2Proof


/-! ### Completion, and what the line offers -/

namespace Sys2Proof.Machine

variable {s : State}

/-- The link once the frame on the line is out: the frame held aside stands in its slot. -/
def LinkController.completed (l : LinkController) (x : Slot) : LinkController :=
  { l with slots := l.slots.set x l.heldAside, onLine := none, heldAside := none, lineWithdrawn := false, txErr := l.txErr - 1 }

theorem exec_transmitCompletion {x : Slot} {f : Frame} (loaded : s.isLoaded = true) (line : s.link.onLine = some x)
    (waits : s.link.slots.get x = some f) :
    exec .transmitCompletion s = .next (reportCompletion f (s.setLink (s.link.completed x))) := by
  refine congrArg Host.Outcome.next ((whenLoaded_of_loaded loaded).trans ?_)
  simp only [completeFrame, lineFrame_of line, line, waits]
  rfl

theorem reserveCompleted_unclaimed (none : s.sched.ordinary = none) (c : Chan) :
    reserveCompleted c s = s.handOver (.release .ordinary c) := by
  rw [reserveCompleted, none]

theorem reserveCompleted_claimed {y : Claim} (claim : s.sched.ordinary = some y) (c : Chan) :
    reserveCompleted c s =
      s.setClaim (some (if y.phase = .pendingTx ∧ y.chan = c then { y with phase := .settling } else y)) := by
  have same : s.setClaim (some y) = s := by rw [State.setClaim, ← claim]; rfl
  rw [reserveCompleted, claim]
  split_ifs <;> simp_all

/-- A RELEASE handed over to a free line waits in its slot where the station's entry stands. -/
theorem LinkController.handOver_release_waits {l : LinkController} (heard : l.muted = false) {ty : ResType}
    (free : l.onLine = none) (stands : l.standing ty = true) (c : Chan) :
    (l.handOver (.release ty c)).slots.get (.release ty) = some (.release ty c) := by
  have placed (m : LinkController) (off : m.onLine = none) :
      (m.place (.release ty c)).slots.get (.release ty) = some (.release ty c) := by
    rw [LinkController.place_slot (by simp [off])]
    exact (m.setSlot_get _ _ _).trans (if_pos rfl)
  rw [LinkController.handOver_release heard]
  by_cases waits : l.slots.get (.reserve ty) = none
  · rw [LinkController.placeRelease_of_free (.inl waits)]
    exact placed l free
  · rw [LinkController.placeRelease_of_waiting waits (by simp [free]), if_pos stands]
    exact placed _ free

end Sys2Proof.Machine

namespace Sys2Proof

open Machine

/-- Settles O37: the completion of each kind is reported, over the link that the frame has left. -/
theorem aCompletionIsReportedByKind : Obligations.ACompletionIsReportedByKind := by
  intro s x f loaded slots line waits l
  obtain ⟨own, -, -, -, -⟩ := slots
  have slot : f.slot = x := own x f waits
  have done : exec .transmitCompletion s = .next (reportCompletion f (s.setLink l)) :=
    exec_transmitCompletion loaded line waits
  cases f with
  | mark number =>
    refine done.trans (congrArg Host.Outcome.next ?_)
    obtain rfl : x = .mark := slot.symm
    rfl
  | signal | status | report | release => exact done
  | reserve ty cls c amount hold =>
    refine ⟨_, done, ?_⟩
    cases ty with
    | announce => exact ⟨rfl, rfl, fun _ => ⟨rfl, rfl⟩, nofun, nofun⟩
    | ordinary =>
      generalize hr : (s.setLink l).reserved .ordinary cls c amount hold = r at *
      have sched : r.sched = s.sched := by rw [← hr]; rfl
      have told : reportCompletion (.reserve .ordinary cls c amount hold) (s.setLink l) = reserveCompleted c r := by
        rw [← hr]; rfl
      rw [told]
      generalize claim : s.sched.ordinary = y
      cases y with
      | none =>
        rw [reserveCompleted_unclaimed (by rw [sched, claim]), ← hr]
        exact ⟨rfl, rfl, nofun, fun _ => nofun, fun _ _ => ⟨rfl, rfl, fun heard =>
          LinkController.handOver_release_waits (l := l.setStanding .ordinary true) (ty := .ordinary) heard rfl rfl c⟩⟩
      | some y =>
        rw [reserveCompleted_claimed (y := y) (by rw [sched, claim]), ← hr]
        refine ⟨rfl, rfl, nofun, ?_, fun _ => nofun⟩
        rintro _ _ ⟨⟩
        exact ⟨rfl, rfl⟩

end Sys2Proof


/-! ### Idle: the count of recessive bits, and the first slot in service order -/

namespace Sys2Proof.Machine

variable {s : State}

/-- The bits hold no start and end in just `m` recessive ones. -/
structure IdleFor (bits : List (Bool × Bool)) (m : Nat) : Prop where
  fits : m ≤ bits.length
  ends : ∀ j < bits.length, bits.length ≤ j + m → bitSamples bits j = (true, true)
  dominant : m < bits.length → bitSamples bits (bits.length - 1 - m) ≠ (true, true)
  clear : ∀ i, ¬StartAt bits i

theorem recessiveBit_iff (b : Bool × Bool) : recessiveBit b = true ↔ b = (true, true) := by
  obtain ⟨x, y⟩ := b
  simp [recessiveBit]

theorem bitSamples_append_left {bits : List (Bool × Bool)} {j : Nat} (h : j < bits.length) (b : Bool × Bool) :
    bitSamples (bits ++ [b]) j = bitSamples bits j :=
  List.getD_append _ _ _ _ h

theorem bitSamples_append_last (bits : List (Bool × Bool)) (b : Bool × Bool) :
    bitSamples (bits ++ [b]) bits.length = b := by
  simp [bitSamples, List.getD_eq_getElem?_getD]

theorem StartAt.append {bits : List (Bool × Bool)} {i : Nat} (h : StartAt bits i) (b : Bool × Bool) :
    StartAt (bits ++ [b]) i := by
  obtain ⟨waited, within, dominant, recessive⟩ := h
  refine ⟨waited, by simp; omega, by rwa [bitSamples_append_left within], fun j below near => ?_⟩
  rw [bitSamples_append_left (below.trans within), recessive j below near]

/-- A start in the longer read is one in the shorter, or its last bit is a dominant one after 10 recessive ones. -/
theorem startAt_append_iff (bits : List (Bool × Bool)) (b : Bool × Bool) (i : Nat) :
    StartAt (bits ++ [b]) i ↔ StartAt bits i ∨ i = bits.length ∧ 10 ≤ bits.length ∧ b ≠ (true, true) ∧
      ∀ j < bits.length, bits.length ≤ j + 10 → bitSamples bits j = (true, true) := by
  constructor
  · rintro ⟨waited, within, dominant, recessive⟩
    obtain rfl | below : i = bits.length ∨ i < bits.length := by
      simp at within
      omega
    · refine .inr ⟨rfl, waited, by rwa [bitSamples_append_last] at dominant, fun j below near => ?_⟩
      rw [← bitSamples_append_left below b, recessive j below near]
    · refine .inl ⟨waited, below, by rwa [bitSamples_append_left below] at dominant, fun j earlier near => ?_⟩
      rw [← bitSamples_append_left (earlier.trans below) b, recessive j earlier near]
  · rintro (h | ⟨rfl, waited, dominant, recessive⟩)
    · exact h.append b
    · refine ⟨waited, by simp, by rwa [bitSamples_append_last], fun j below near => ?_⟩
      rw [bitSamples_append_left below, recessive j below near]

theorem IdleFor.startAt_append_iff {bits : List (Bool × Bool)} {m : Nat} (h : IdleFor bits m) (b : Bool × Bool) (i : Nat) :
    StartAt (bits ++ [b]) i ↔ i = bits.length ∧ 10 ≤ m ∧ b ≠ (true, true) := by
  rw [Machine.startAt_append_iff, or_iff_right (h.clear i)]
  refine and_congr_right fun _ => ⟨fun ⟨long, dominant, recessive⟩ => ⟨?_, dominant⟩, fun ⟨long, dominant⟩ => ?_⟩
  · by_contra few
    exact h.dominant (by omega) (recessive _ (by omega) (by omega))
  · exact ⟨long.trans h.fits, dominant, fun j below near => h.ends j below (by omega)⟩

theorem IdleFor.recessive {bits : List (Bool × Bool)} {m : Nat} (h : IdleFor bits m) :
    IdleFor (bits ++ [(true, true)]) (m + 1) where
  fits := by simpa using h.fits
  ends j below near := by
    simp only [List.length_append, List.length_singleton] at below near
    obtain rfl | below : j = bits.length ∨ j < bits.length := by omega
    · exact bitSamples_append_last bits _
    · rw [bitSamples_append_left below, h.ends j below (by omega)]
  dominant below := by
    simp only [List.length_append, List.length_singleton] at below ⊢
    have fits := h.dominant (by omega)
    rwa [bitSamples_append_left (by omega), show bits.length + 1 - 1 - (m + 1) = bits.length - 1 - m by omega]
  clear i start := by simpa using (h.startAt_append_iff _ i).mp start

theorem IdleFor.restarts {bits : List (Bool × Bool)} {m : Nat} (h : IdleFor bits m) (few : m < 10) {b : Bool × Bool}
    (dominant : b ≠ (true, true)) : IdleFor (bits ++ [b]) 0 where
  fits := Nat.zero_le _
  ends j below near := absurd near (by omega)
  dominant _ := by
    simpa only [List.length_append, List.length_singleton, Nat.add_sub_cancel, Nat.sub_zero, bitSamples_append_last]
  clear i start := by
    obtain ⟨-, long, -⟩ := (h.startAt_append_iff b i).mp start
    omega

/-- What the count says of the bits read so far. -/
def CountSays (bits : List (Bool × Bool)) : Option Nat → Prop
  | some m => IdleFor bits m
  | none => ∃ i, StartAt bits i

theorem idleCount_says (bits : List (Bool × Bool)) : CountSays bits (idleCount 0 bits) := by
  induction bits using List.reverseRecOn with
  | nil => exact { fits := Nat.le_refl _, ends := nofun, dominant := nofun, clear := fun i h => by simpa using h.2.1 }
  | append_singleton bits b ih =>
    rw [idleCount_append]
    cases count : idleCount 0 bits with
    | none =>
      rw [count] at ih
      obtain ⟨i, start⟩ := ih
      exact ⟨i, start.append b⟩
    | some m =>
      rw [count] at ih
      rw [Option.bind_some, idleCount]
      split_ifs with high long
      · obtain rfl := (recessiveBit_iff b).mp high
        exact ih.recessive
      · exact ⟨_, (ih.startAt_append_iff b _).mpr ⟨rfl, long, mt (recessiveBit_iff b).mpr high⟩⟩
      · exact ih.restarts (Nat.not_le.mp long) (mt (recessiveBit_iff b).mpr high)

/-- The bits make the line idle for `n` of them where the count of recessive bits reaches `n`. -/
theorem idleRead_iff (n : Nat) (bits : List (Bool × Bool)) :
    IdleRead n bits ↔ ∃ m, idleCount 0 bits = some m ∧ n ≤ m := by
  have told := idleCount_says bits
  cases count : idleCount 0 bits with
  | none =>
    rw [count] at told
    obtain ⟨i, start⟩ := told
    exact ⟨fun ⟨_, _, clear⟩ => absurd start (clear i), fun ⟨_, counted, _⟩ => nomatch counted⟩
  | some m =>
    rw [count] at told
    constructor
    · rintro ⟨fits, ends, -⟩
      refine ⟨m, rfl, ?_⟩
      by_contra few
      exact told.dominant (by omega) (ends _ (by omega) (by omega))
    · rintro ⟨_, ⟨⟩, reach⟩
      exact ⟨reach.trans told.fits, fun j below near => told.ends j below (by omega), told.clear⟩

theorem lineIsIdle_iff_idleRead (bits : List (Bool × Bool)) : lineIsIdle bits = true ↔ IdleRead 11 bits :=
  (lineIsIdle_iff bits).trans (idleRead_iff 11 bits).symm

theorem startTaken_iff_idleRead (before samples : List (Bool × Bool)) :
    startTaken before samples = true ↔ IdleRead 10 before ∧ bitSamples samples 0 ≠ (true, true) :=
  (startTaken_iff before samples).trans
    (and_congr (idleRead_iff 10 before).symm (Bool.eq_false_iff.trans (recessiveBit_iff _).not))

/-- In a list without repetition the element found is the one of least place that passes. -/
theorem find?_eq_some_iff_idxOf {α : Type} [DecidableEq α] {l : List α} (once : l.Nodup) (p : α → Bool) {x : α}
    (mem : x ∈ l) : l.find? p = some x ↔ p x = true ∧ ∀ y, l.idxOf y < l.idxOf x → p y = false := by
  rw [List.find?_eq_some_iff_getElem]
  refine and_congr_right fun _ => ⟨?_, fun first => ?_⟩
  · rintro ⟨i, within, rfl, first⟩ y earlier
    rw [once.idxOf_getElem] at earlier
    have found := first _ earlier
    rw [List.getElem_idxOf] at found
    simpa using found
  · refine ⟨l.idxOf x, List.idxOf_lt_length_iff.mpr mem, List.getElem_idxOf _, fun j earlier => ?_⟩
    have below := first _ ((once.idxOf_getElem j (earlier.trans (List.idxOf_lt_length_iff.mpr mem))).trans_lt earlier)
    simp [below]

theorem mem_serviceOrder (x : Slot) : x ∈ serviceOrder := by
  cases x with
  | reserve ty | release ty => cases ty <;> decide
  | mark | signal | status | report => decide

theorem LinkController.offer_muted {l : LinkController} (muted : l.muted = true) : l.offer = none := if_pos muted

/-- What is offered is the occupied slot that stands first in the service order (R81). -/
theorem LinkController.offer_eq_some_iff {l : LinkController} (heard : l.muted = false) (x : Slot) :
    l.offer = some x ↔ l.slots.get x ≠ none ∧
      ∀ y, serviceOrder.idxOf y < serviceOrder.idxOf x → l.slots.get y = none := by
  rw [LinkController.offer, if_neg (Bool.eq_false_iff.mp heard),
    find?_eq_some_iff_idxOf (by decide) _ (mem_serviceOrder x)]
  simp [Option.isSome_iff_ne_none]

end Sys2Proof.Machine

namespace Sys2Proof

open Machine

/-- Settles O33: the bits make the line idle just where the count reaches 11, and the offer is the first slot. -/
theorem anIdleOffersTheFirstSlot : Obligations.AnIdleOffersTheFirstSlot := by
  intro s bits loaded free order
  have offered : exec (.lineIdle bits) s = .next (offerFrame bits s) :=
    congrArg Host.Outcome.next (whenLoaded_of_loaded loaded)
  refine ⟨fun idle => ⟨s.link.offer, ?_, fun muted => LinkController.offer_muted muted,
    fun heard x => LinkController.offer_eq_some_iff heard x⟩, fun busy => ?_⟩
  · rw [offered, offerFrame, if_pos ((lineIsIdle_iff_idleRead bits).mpr idle), free]
    rfl
  · rw [offered, offerFrame, if_neg (mt (lineIsIdle_iff_idleRead bits).mp busy)]

end Sys2Proof


/-! ### A valid frame, exactly -/

namespace Sys2Proof.Machine

variable {s : State}

theorem find?_allChans_iff (p : Chan → Bool) (c : Chan) :
    allChans.find? p = some c ↔ p c = true ∧ ∀ d < c, p d = false := by
  rw [find?_eq_some_iff_idxOf allChans_nodup p (mem_allChans c)]
  simp only [allChans, List.idxOf_finRange, Fin.val_fin_lt]

theorem announceAgain_silent (none : s.sched.announceAmount = 0) : announceAgain s = s := if_neg (by simp [none])

/-- With the line free, a RESERVE handed over moves the slots alone. -/
theorem LinkController.handOver_reserve_free {l : LinkController} (free : l.onLine = none) (ty : ResType) (cls : Cls)
    (c : Chan) (amount hold : Nat) :
    l.handOver (.reserve ty cls c amount hold) =
      { l with slots := (l.handOver (.reserve ty cls c amount hold)).slots } := by
  by_cases muted : l.muted = true
  · rw [LinkController.handOver_muted muted]
  · rw [LinkController.handOver_reserve (Bool.eq_false_iff.mpr muted), LinkController.dropRelease_offLine (by simp [free]),
      LinkController.place_slot (by simp [free, LinkController.setSlot])]
    rfl

/-- With the line free, announcing again moves the slots alone. -/
theorem announceAgain_slots (free : s.link.onLine = none) :
    announceAgain s = s.setLink { s.link with slots := (announceAgain s).link.slots } := by
  unfold announceAgain
  split
  · split
    · exact congrArg s.setLink (LinkController.handOver_reserve_free free _ _ _ _ _)
    · rfl
  · rfl

/-- Announcing again over empty slots fills that of the ANNOUNCE RESERVE, for the lowest channel that surges. -/
theorem announceAgain_reserves (heard : s.link.muted = false) (free : s.link.onLine = none)
    (empty : s.link.slots = LinkController.reset.slots) (announced : 0 < s.sched.announceAmount) {c : Chan}
    (cls : (s.cfg c).cls = 0) (surges : (s.ch c).state = .inrush) (amount : 0 < (s.cfg c).amount)
    (least : ∀ d < c, ¬((s.cfg d).cls = 0 ∧ (s.ch d).state = .inrush ∧ 0 < (s.cfg d).amount)) :
    (announceAgain s).link.slots = { s.link.slots with
      reserveAnnounce := some (.reserve .announce 0 c s.sched.announceAmount s.sched.announceHold) } := by
  have found : allChans.find? (fun c => s.surging c && (s.cfg c).amount > 0) = some c :=
    (find?_allChans_iff _ c).mpr ⟨by simp [State.surging, cls, surges, amount], fun d below => by
      simpa [State.surging, and_assoc] using least d below⟩
  rw [announceAgain, if_pos announced, found]
  show (s.link.handOver _).slots = _
  rw [LinkController.handOver_reserve heard, LinkController.dropRelease_offLine (by simp [free]),
    LinkController.place_slot (by simp [free, LinkController.setSlot])]
  simp only [LinkController.setSlot, empty]
  rfl

/-- The state a valid frame from another station leaves, for the slots that stand then. -/
def State.heardFrame (s : State) (slots : Slots) : State :=
  let leaves := s.link.muted = true ∧ 99 ≤ s.link.good
  let still := s.link.muted = true ∧ s.link.good < 99
  { s with
    link := { s.link with
      slots := slots, silence := 0, isolated := false, muted := still
      txErr := if leaves then 0 else s.link.txErr
      good := if leaves then 0 else if still then s.link.good + 1 else s.link.good }
    sched := { s.sched with listen := if s.link.isolated = true ∨ leaves then 2 else s.sched.listen }
    budget := { s.budget with
      inUse := if s.link.isolated = true ∨ leaves then
          (if still ∨ s.loader.runMode = .limp then .alone else .zone) else s.budget.inUse } }

theorem validFrame_of_heard (stays : ¬(s.link.muted = true ∧ 99 ≤ s.link.good)) :
    validFrame s = s.heardFrame s.link.slots := by
  have few (muted : s.link.muted = true) : ¬99 ≤ s.link.good := fun many => stays ⟨muted, many⟩
  unfold validFrame countGood State.heardFrame
  cases isolated : s.link.isolated <;> cases muted : s.link.muted <;>
    simp [isolated, muted, few, Nat.not_le.mp, leaveIsolated, State.refreshInUse, State.listenAgain, State.alone, LinkController.aloneByLink,
      State.setLink, State.setSched, State.setBudget]

theorem validFrame_of_leaving (leaves : s.link.muted = true ∧ 99 ≤ s.link.good) :
    validFrame s = announceAgain (s.heardFrame s.link.slots) := by
  obtain ⟨muted, many⟩ := leaves
  unfold validFrame countGood State.heardFrame
  cases isolated : s.link.isolated <;>
    simp [isolated, muted, many, Nat.not_lt.mpr many, leaveIsolated, leaveMuted, State.refreshInUse, State.listenAgain, State.alone, LinkController.aloneByLink,
      State.setLink, State.setSched, State.setBudget]

end Sys2Proof.Machine

namespace Sys2Proof

open Machine

/-- Settles O42: a frame that ends MUTED announces again, over empty slots; any other leaves the slots. -/
theorem aValidFrameIsCounted : Obligations.AValidFrameIsCounted := by
  intro s sender payload loaded muted leaves still
  have heard : exec (.kind7FrameReceived sender payload) s = .next (validFrame s) :=
    congrArg Host.Outcome.next (whenLoaded_of_loaded loaded)
  by_cases leaving : leaves
  · obtain ⟨blank, free, -⟩ := muted.1 leaving.1
    have after : (s.heardFrame s.link.slots).link.muted = false := by simp [State.heardFrame, leaving.2]
    refine ⟨(announceAgain (s.heardFrame s.link.slots)).link.slots, rfl, ?_, fun quiet => ?_,
      fun _ announced c cls surges amount least => ?_⟩
    · exact heard.trans (congrArg Host.Outcome.next ((validFrame_of_leaving leaving).trans
        (announceAgain_slots (s := s.heardFrame s.link.slots) free)))
    · have none : s.sched.announceAmount = 0 := by simpa [leaving] using quiet
      rw [announceAgain_silent (s := s.heardFrame s.link.slots) none]
      rfl
    · rw [announceAgain_reserves (s := s.heardFrame s.link.slots) (c := c) after free blank announced
        cls surges amount least]
      rfl
  · exact ⟨s.link.slots, rfl, heard.trans (congrArg _ (validFrame_of_heard leaving)), fun _ => rfl,
      fun leaves => absurd leaves leaving⟩

end Sys2Proof


/-! ### Frames turned away, and QUERY frames that are ignored or dropped -/

namespace Sys2Proof.Machine

variable {s : State}

/-- A command that waits for load end does its work from then on. -/
theorem next_of_loaded (loaded : s.isLoaded = true) (f : State → State) :
    (.next (whenLoaded f s) : Host.Outcome State Fault Refusal) = .next (f s) :=
  congrArg Host.Outcome.next (whenLoaded_of_loaded loaded)

theorem byteOf_toNat (n : Nat) : (byteOf n).toNat = n % 256 := BitVec.toNat_ofNat n 8

theorem queryTarget_queryByte (target : Stn) {item : Nat} (h : item < 16) :
    queryTarget (queryByte target item) = target := by
  apply Fin.ext
  simp only [queryTarget, queryByte, byteOf_toNat, Fin.ofNat]
  omega

theorem queryItem_queryByte (target : Stn) {item : Nat} (h : item < 16) : queryItem (queryByte target item) = item := by
  simp only [queryItem, queryByte, byteOf_toNat]
  omega

theorem itemOf_code (item : Item) : itemOf item.code = some item := by cases item <;> rfl

theorem Item.code_lt (item : Item) : item.code < 16 := by cases item <;> decide

theorem itemOf_of_large {n : Nat} (h : 7 ≤ n) : itemOf n = none := by
  simp only [itemOf, List.find?_eq_none, decide_eq_true_eq]
  intro item _
  cases item <;> simp [Item.code] <;> omega

theorem takeQuery_own (item : Item) {arg : Byte} (named : item.named = true → arg.toNat ≤ 15) :
    takeQuery (queryByte s.own item.code) arg s = takeItem item arg s := by
  have small : ¬(item.named && decide (16 ≤ arg.toNat)) = true := by simpa using fun h => Nat.lt_succ_of_le (named h)
  rw [takeQuery, queryTarget_queryByte _ item.code_lt, queryItem_queryByte _ item.code_lt, itemOf_code]
  simp only [ne_eq, not_true_eq_false, if_false, if_neg small]

theorem takeQuery_other {b0 : Byte} (other : queryTarget b0 ≠ s.own) (arg : Byte) : takeQuery b0 arg s = s := if_pos other

/-- A QUERY for the station is its item's, over what the valid frame leaves. -/
theorem receiveQuery_own (item : Item) {arg : Byte} (named : item.named = true → arg.toNat ≤ 15) :
    receiveQuery (queryByte s.own item.code) arg s = takeItem item arg (validFrame s) := by
  rw [receiveQuery, ← validFrame_own (s := s), takeQuery_own item named]

theorem receiveQuery_other {b0 : Byte} (other : queryTarget b0 ≠ s.own) (arg : Byte) :
    receiveQuery b0 arg s = validFrame s := takeQuery_other (by rwa [validFrame_own]) arg

theorem takeItem_pending (pending : s.diag.reportPending = true) (item : Item) (arg : Byte) :
    takeItem item arg s = { s with diag := { s.diag with overruns := min 255 (s.diag.overruns + 1) } } := if_pos pending

/-- An item that no query names, or a named one with an argument above 15, is ignored (R155). -/
theorem takeQuery_ignored {b0 arg : Byte}
    (bad : b0.toNat / 16 ≠ s.own.val ∨ 7 ≤ b0.toNat % 16 ∨
      (b0.toNat % 16 = 1 ∨ b0.toNat % 16 = 2 ∨ b0.toNat % 16 = 4 ∨ b0.toNat % 16 = 6) ∧ 16 ≤ arg.toNat) :
    takeQuery b0 arg s = s := by
  by_cases own : queryTarget b0 = s.own
  · have target : b0.toNat / 16 = s.own.val := by
      rw [← own, queryTarget, Fin.val_ofNat]
      omega
    rw [takeQuery, if_neg (not_not.mpr own)]
    obtain large | ⟨named, high⟩ := bad.resolve_left (not_not.mpr target)
    · rw [queryItem, itemOf_of_large large]
    · obtain ⟨item, code, isNamed⟩ : ∃ item : Item, b0.toNat % 16 = item.code ∧ item.named = true := by
        obtain h | h | h | h := named
        exacts [⟨.channel, h, rfl⟩, ⟨.peer, h, rfl⟩, ⟨.clear, h, rfl⟩, ⟨.record, h, rfl⟩]
      rw [queryItem, code, itemOf_code]
      exact if_pos (by simp [isNamed, high])
  · exact takeQuery_other own arg

theorem receiveChecked_clashes {sender : Stn} {payload : List Byte} {length : Nat} (fits : payload.length = length)
    (own : sender = s.own) (delivery : State → State) :
    receiveChecked length sender payload delivery s = clash (validFrame s) := by
  simp [receiveChecked, fits, own]

/-- A clash is counted and shown at the FAULT pin (R96, R160). -/
theorem clash_eq (s : State) : clash s = { s with
    link := { s.link with clash := min 255 (s.link.clash + 1) }
    diag := { s.diag with clashFlag := true, faultAsserted := true } } := by
  have shown (u : State) (h : u.diag.clashFlag = true) :
      u.refreshFault = u.setDiag { u.diag with faultAsserted := true } := by
    simp [State.refreshFault, State.faultCondition, h]
  exact shown _ rfl

/-- A discarded reception is counted, and while MUTED breaks the row of good frames (R85, R93). -/
theorem discardReception_eq (s : State) : discardReception s = { s with link := { s.link with
    rxErr := min 255 (s.link.rxErr + 1), good := if s.link.muted = true then 0 else s.link.good } } := by
  by_cases muted : s.link.muted = true <;> simp [discardReception, receiveError, State.setLink, muted]

end Sys2Proof.Machine

namespace Sys2Proof

open Machine

/-- Settles O41: what is discarded is a start that is read as no valid frame. -/
theorem aDiscardedReceptionIsCounted : Obligations.ADiscardedReceptionIsCounted := by
  intro s before samples inp ord loaded starts
  have taken : startTaken before samples = true ↔ starts := startTaken_iff_idleRead before samples
  have run : exec (.discardedReception samples before) s =
      .next (if discards before samples then discardReception s else s) := next_of_loaded loaded _
  refine ⟨fun start bad => ⟨?_, ?_⟩, fun start f good => ⟨?_, ?_⟩, fun no => ⟨?_, ?_⟩⟩
  · rw [lineCommand, if_pos (taken.mpr start)]
    cases read : verdict samples with
    | valid f => exact absurd read (bad f)
    | _ => rfl
  · rw [run, if_pos ((discards_iff before samples).mpr ⟨taken.mpr start, bad⟩), discardReception_eq]
  · rw [lineCommand, if_pos (taken.mpr start), good]
  · rw [run, if_neg fun h => ((discards_iff before samples).mp h).2 f good]
  · rw [lineCommand, if_neg (mt taken.mp no)]
  · rw [run, if_neg fun h => no (taken.mp ((discards_iff before samples).mp h).1)]

/-- Settles O45: the checks come after the frame has counted as valid. -/
theorem framesTurnedAwayAreCounted : Obligations.FramesTurnedAwayAreCounted := by
  intro s sender payload inp ord loaded
  have run := next_of_loaded loaded
  refine ⟨validFrame s, run _, fun kind misfit => (run _).trans ?_, fun own => ?_⟩
  · have required : payload.length ≠ requiredLength kind := by cases kind <;> exact misfit
    exact congrArg Host.Outcome.next (if_pos required)
  · have clashes {length : Nat} (fits : payload.length = length) (delivery : State → State) :=
      (run _).trans (congrArg Host.Outcome.next ((receiveChecked_clashes fits own delivery).trans (clash_eq _)))
    exact ⟨fun fits => ⟨clashes fits _, clashes fits _⟩, fun fits => clashes fits _, fun fits => clashes fits _⟩

/-- Settles O47: which QUERY is passed over, and which is dropped. -/
theorem queriesAreIgnoredOrDropped : Obligations.QueriesAreIgnoredOrDropped := by
  intro s sender target b0 arg loaded
  have run := next_of_loaded loaded
  refine ⟨validFrame s, run _, fun bad => (run _).trans ?_, fun pending => ?_, fun other => ?_⟩
  · exact congrArg Host.Outcome.next (takeQuery_ignored (s := validFrame s) (by rwa [validFrame_own]))
  · have drops (item : Item) (named : item.named = true → arg.toNat ≤ 15) :=
      (run _).trans (congrArg Host.Outcome.next
        ((receiveQuery_own (s := s) item named).trans (takeItem_pending pending item arg)))
    exact ⟨drops .summary nofun, drops .link nofun, drops .clearAll nofun, fun small =>
      ⟨drops .channel fun _ => small, drops .peer fun _ => small, drops .clear fun _ => small,
        drops .record fun _ => small⟩⟩
  · have passes (item : Item) :=
      (run _).trans (congrArg Host.Outcome.next
        (receiveQuery_other (s := s) (by rwa [queryTarget_queryByte target item.code_lt]) arg))
    exact ⟨passes .summary, passes .channel, passes .peer, passes .link, passes .clear, passes .clearAll, passes .record⟩

end Sys2Proof


/-! ### The answers to a QUERY -/

namespace Sys2Proof.Machine

variable {s : State}

/-- A report handed over while none is pending fills its slot, or is lost while MUTED. -/
theorem sendReport_eq (free : s.link.onLine ≠ some .report) (item : Item) (arg : Byte) :
    sendReport item arg s =
      if s.link.muted = true then s
      else { s with
        link := { s.link with slots := { s.link.slots with
          report := some (.report item.code arg (s.itemContent item arg)) } }
        diag := { s.diag with reportPending := true } } := by
  have placed (muted : ¬s.link.muted = true) (content : List Byte) : s.link.handOver (.report item.code arg content) =
      s.link.setSlot .report (some (.report item.code arg content)) :=
    (if_neg muted).trans (LinkController.place_slot free)
  unfold sendReport
  split
  · rfl
  · next muted =>
    simp only [State.handOver, placed muted]
    rfl

/-- The line holds no report while none is pending (R156). -/
theorem validFrame_report_free (slots : s.SlotsRuled) (report : s.ReportRuled) (idle : s.diag.reportPending = false) :
    (validFrame s).link.onLine ≠ some .report ∧ (validFrame s).diag = s.diag := by
  obtain ⟨-, -, occupied, -, -⟩ := slots
  obtain ⟨pending, -⟩ := report
  obtain ⟨l, x, b, heard, line, -, -⟩ := validFrame_eq s
  rw [heard]
  refine ⟨fun held => ?_, rfl⟩
  have := pending.mpr (occupied .report (line.symm.trans held))
  simp [idle] at this

theorem takeItem_idle (idle : s.diag.reportPending = false) (item : Item) (arg : Byte) :
    takeItem item arg s = sendReport item arg (itemAction item arg s) := if_neg (by simp [idle])

theorem linkCode_eq (l : LinkController) :
    (if l.muted = true then 2 else 0) + (if l.isolated = true then 1 else 0) = linkCode l := by
  cases muted : l.muted <;> cases isolated : l.isolated <;> simp [linkCode, muted, isolated]

theorem bit_eq (b : Bool) : (if b = true then 1 else 0) = b.toNat := by cases b <;> rfl

end Sys2Proof.Machine

namespace Sys2Proof

open Machine

/-- Settles O46: an item that acts on nothing answers with its content read after the frame has counted. -/
theorem queriesAreAnswered : Obligations.QueriesAreAnswered := by
  intro s sender arg n loaded slots report idle number
  have run := next_of_loaded loaded
  obtain ⟨free, diag⟩ := validFrame_report_free slots report idle
  refine ⟨validFrame s, run _, ?_⟩
  generalize hu : validFrame s = u at free diag
  intro answered link bit x state kind e ordinary announce sum figures
  have named : (Fin.ofNat 16 arg.toNat) = n := Fin.ext number.symm
  have answers (item : Item) (content : List Nat) (fits : item.named = true → arg.toNat ≤ 15)
      (acts : itemAction item arg u = u) (read : u.itemContent item arg = content.map (BitVec.ofNat 8)) :
      (.next (whenLoaded (receiveQuery (queryByte s.own item.code) arg) s) : Host.Outcome State Fault Refusal) =
        answered item.code content := by
    rw [run, receiveQuery_own item fits, hu, takeItem_idle (by rw [diag, idle]), acts, sendReport_eq free, read]
    exact apply_ite Host.Outcome.next _ _ _
  have hlink : link = linkCode u.link := linkCode_eq u.link
  have hbit : bit = Bool.toNat := funext bit_eq
  refine ⟨answers .summary _ nofun rfl ?_, answers .link _ nofun rfl ?_, fun small =>
    ⟨answers .channel _ (fun _ => small) rfl ?_, answers .peer _ (fun _ => small) rfl ?_,
      answers .record _ (fun _ => small) rfl ?_⟩⟩
  · rw [hlink, hbit]
    rfl
  · rw [hlink]
    rfl
  · rw [hbit, State.itemContent, named]
    rfl
  · have entries : u.entryOf n .ordinary = ordinary ∧ u.entryOf n .announce = announce := ⟨rfl, rfl⟩
    obtain ⟨ordinaryEntry, announceEntry⟩ := entries
    simp only [hbit, State.itemContent, named, State.peerContent, ordinaryEntry, announceEntry]
    clear_value ordinary announce
    cases ordinary <;> cases announce <;> rfl
  · rw [hbit, State.itemContent, named]
    rfl

end Sys2Proof


/-! ### The channels one after the other: what a cut gives up -/

namespace Sys2Proof.Machine

variable {s t : State} {c : Chan}

theorem allChans_take_succ (c : Chan) : allChans.take (c.val + 1) = allChans.take c.val ++ [c] := by
  rw [List.take_succ_eq_append_getElem (by simp [allChans])]
  simp [allChans]

/-- What holds of the first `k` channels, if every channel adds itself, holds of all sixteen. -/
theorem forChans_upTo {P : Nat → State → Prop} {f : Chan → State → State} (start : P 0 s)
    (next : ∀ (c : Chan) (t : State), P c.val t → P (c.val + 1) (f c t)) : P 16 (forChans f s) := by
  have prefixes (n : Nat) (small : n ≤ 16) : P n ((allChans.take n).foldl (fun s c => f c s) s) := by
    induction n with
    | zero => exact start
    | succ n ih =>
      rw [allChans_take_succ ⟨n, small⟩, List.foldl_append]
      exact next ⟨n, small⟩ _ (ih (by omega))
  have all := prefixes 16 (le_refl 16)
  rwa [List.take_of_length_le (by simp [allChans])] at all

/-- How a claim that ends leaves the link: its RESERVE withdrawn, or released where it was made by frame (R143). -/
def Claim.dropped (x : Claim) (l : LinkController) : LinkController :=
  if x.phase = .pendingTx then l.withdraw (.reserve .ordinary)
  else if x.byFrame = true then l.handOver (.release .ordinary x.chan)
  else l

theorem releaseClaim_dropped {x : Claim} (released : x.phase ≠ .pendingTx) (s : State) :
    (releaseClaim x s).link = x.dropped s.link := by
  rw [releaseClaim_link, Claim.dropped, if_neg released]

theorem leftQueue_link (c : Chan) (s : State) :
    (leftQueue c s).link = (s.sched.ordinary.filter fun x => x.chan = c).elim s.link fun x => x.dropped s.link := by
  unfold leftQueue
  extract_lets s1
  have claim : s1.sched.ordinary = s.sched.ordinary := rfl
  have link : s1.link = s.link := rfl
  rw [claim]
  cases s.sched.ordinary with
  | none => rfl
  | some x =>
    by_cases own : x.chan = c
    · cases phase : x.phase <;>
        simp [Option.filter_some, own, phase, State.setClaim, State.setSched, State.withdraw, State.setLink, Claim.dropped, releaseClaim_link, link]
    · simp [Option.filter_some, own, link]

/-- How a channel that enters CUT leaves the link. -/
theorem enter_cut_link (h : s.AdmissionRuled) (c : Chan) :
    (enter c .cut .none s).link =
      if (s.cfg c).cls = 0 then
        if (s.ch c).state = .inrush ∧ 0 < s.sched.announceAmount ∧ (enter c .cut .none s).surgeAmount = 0 then
          s.link.handOver (.release .announce c)
        else s.link
      else (s.sched.ordinary.filter fun x => x.chan = c).elim s.link fun x => x.dropped s.link := by
  obtain ⟨⟨classZero, -⟩, -, claims, -⟩ := h
  have claimed {x : Claim} (claim : s.sched.ordinary = some x) (own : x.chan = c) :
      if x.phase = .held then (s.ch c).state = .inrush else (s.ch c).state = .requested := own ▸ claims x claim
  let u := s.setCh c ((s.ch c).enter .cut .none (s.cfg c).window)
  have entered : enter c .cut .none s = notices c (s.ch c).state .cut u := rfl
  by_cases waits : (s.ch c).state = .requested
  · have other : (s.cfg c).cls ≠ 0 := fun zero => (classZero c zero).1 waits
    have left : notices c .requested .cut u = leftQueue c u := by simp [notices]
    rw [entered, if_neg other, waits, left, leftQueue_link]
    rfl
  · by_cases surges : (s.ch c).state = .inrush
    · by_cases zero : (s.cfg c).cls = 0
      · have ends : notices c .inrush .cut u = announceLowered c u := by simp [notices, inrushEnded, u, zero]
        have amount : (announceLowered c u).surgeAmount = u.surgeAmount :=
          surgeAmount_congr (by simp) (by simp)
        rw [entered, if_pos zero, surges, ends, announceLowered_link, amount]
        exact if_congr (by simp [u]) rfl rfl
      · have ends : notices c .inrush .cut u = surgeOver c u := by simp [notices, inrushEnded, u, zero]
        rw [entered, if_neg zero, surges, ends]
        generalize claim : s.sched.ordinary = y
        cases y with
        | none =>
          have free : ¬∃ y, u.sched.ordinary = some y ∧ y.chan = c ∧ y.phase = .held := fun ⟨y, held, _⟩ =>
            nomatch (show s.sched.ordinary = some y from held).symm.trans claim
          rw [surgeOver_of_not_held free]
          rfl
        | some x =>
          by_cases own : x.chan = c
          · have held : x.phase = .held := by
              by_contra other
              have requested := claimed claim own
              rw [if_neg other] at requested
              exact waits requested
            rw [surgeOver_of_held (s := u) claim own held, Option.filter_some, if_pos (by simp [own])]
            exact releaseClaim_dropped (by simp [held]) u
          · have free : ¬∃ y, u.sched.ordinary = some y ∧ y.chan = c ∧ y.phase = .held := fun ⟨y, held, of, _⟩ =>
              own ((Option.some.inj (claim.symm.trans held)) ▸ of)
            rw [surgeOver_of_not_held free, Option.filter_some, if_neg (by simp [own])]
            rfl
    · have still : notices c (s.ch c).state .cut u = u := by simp [notices, waits, surges]
      rw [entered, still]
      split
      · exact (if_neg fun h => surges h.1).symm
      · generalize claim : s.sched.ordinary = y
        cases y with
        | none => rfl
        | some x =>
          have other : x.chan ≠ c := fun own => by
            have state := claimed claim own
            split at state
            exacts [surges state, waits state]
          rw [Option.filter_some, if_neg (by simp [other])]
          rfl

end Sys2Proof.Machine


/-! ### The frames of one reservation type leave those of the other alone -/

namespace Sys2Proof.Machine

variable {l m : LinkController}

theorem Slots.ext_get {x y : Slots} (h : ∀ slot, x.get slot = y.get slot) : x = y := by
  cases x
  cases y
  congr
  exacts [h .mark, h (.reserve .announce), h (.reserve .ordinary), h (.release .announce), h (.release .ordinary),
    h .signal, h .status, h .report]

/-- Two links that agree but for the slots and what is held aside agree where those do. -/
theorem LinkController.ext_get (blank : l.blank = m.blank) (slots : ∀ x, l.slots.get x = m.slots.get x)
    (aside : l.heldAside = m.heldAside) (withdrawn : l.lineWithdrawn = m.lineWithdrawn) : l = m := by
  have same := Slots.ext_get slots
  cases l
  cases m
  simp_all [LinkController.blank]

theorem LinkController.standing_of_blank (h : m.blank = l.blank) (ty : ResType) : m.standing ty = l.standing ty := by
  cases ty
  exacts [(congrArg LinkController.standingOrd h :), (congrArg LinkController.standingAnn h :)]

/-- A RELEASE is dropped where its RESERVE waits and no entry stands (R90). -/
def LinkController.cancels (l : LinkController) (ty : ResType) : Bool := l.waiting (.reserve ty) && !l.standing ty

theorem LinkController.place_get (l : LinkController) (f : Frame) (x : Slot) :
    (l.place f).slots.get x = if x = f.slot ∧ l.onLine ≠ some f.slot then some f else l.slots.get x := by
  by_cases line : l.onLine = some f.slot
  · simp [LinkController.place, line]
  · simp [LinkController.place, line, LinkController.setSlot_get]

theorem LinkController.place_heldAside (l : LinkController) (f : Frame) :
    (l.place f).heldAside = if l.onLine = some f.slot then some f else l.heldAside := by
  unfold LinkController.place
  split <;> rfl

theorem LinkController.handOver_release_get (heard : l.muted = false) (ty : ResType) (c : Chan) (x : Slot) :
    (l.handOver (.release ty c)).slots.get x =
      if x = .reserve ty ∧ l.onLine ≠ some (.reserve ty) then none
      else if x = .release ty ∧ l.onLine ≠ some (.release ty) ∧ l.cancels ty = false then some (.release ty c)
      else l.slots.get x := by
  rw [LinkController.handOver_release heard, LinkController.placeRelease]
  have placed (m : LinkController) (y : Slot) : (m.place (.release ty c)).slots.get y =
      if y = .release ty ∧ m.onLine ≠ some (.release ty) then some (.release ty c) else m.slots.get y :=
    m.place_get _ y
  by_cases waits : l.waiting (.reserve ty) = true
  · obtain ⟨-, off⟩ := (LinkController.waiting_iff _).mp waits
    have emptied : ((l.setSlot (.reserve ty) none).onLine = l.onLine) := rfl
    by_cases reserve : x = .reserve ty <;> by_cases stands : l.standing ty = true <;>
      simp [waits, stands, off, reserve, LinkController.cancels, placed, emptied, LinkController.setSlot_get]
  · have kept (slot : x = .reserve ty) (off : l.onLine ≠ some (.reserve ty)) : l.slots.get x = none := by
      by_contra held
      exact waits ((LinkController.waiting_iff _).mpr ⟨slot ▸ held, off⟩)
    by_cases reserve : x = .reserve ty ∧ l.onLine ≠ some (.reserve ty)
    · obtain ⟨rfl, off⟩ := reserve
      simp [waits, placed, off, kept rfl off]
    · simp [waits, placed, reserve, LinkController.cancels]

theorem LinkController.handOver_release_heldAside (heard : l.muted = false) (ty : ResType) (c : Chan) :
    (l.handOver (.release ty c)).heldAside =
      if l.onLine = some (.release ty) ∧ l.cancels ty = false then some (.release ty c) else l.heldAside := by
  rw [LinkController.handOver_release heard, LinkController.placeRelease]
  by_cases waits : l.waiting (.reserve ty) = true <;> by_cases stands : l.standing ty = true <;>
    simp [waits, stands, LinkController.cancels, LinkController.place_heldAside, LinkController.setSlot, Frame.slot] <;>
    rfl

theorem LinkController.handOver_release_lineWithdrawn (l : LinkController) (ty : ResType) (c : Chan) :
    (l.handOver (.release ty c)).lineWithdrawn = l.lineWithdrawn := by
  have placed (m : LinkController) (f : Frame) : (m.place f).lineWithdrawn = m.lineWithdrawn := by
    unfold LinkController.place
    split <;> rfl
  simp only [LinkController.handOver, LinkController.placeRelease]
  split_ifs <;> simp [placed, LinkController.setSlot]

/-- Handing over the RELEASE of the other type leaves whether this one is dropped. -/
theorem LinkController.handOver_release_cancels {ty other : ResType} (h : other ≠ ty) (c : Chan) :
    (l.handOver (.release other c)).cancels ty = l.cancels ty := by
  have blank : (l.handOver (.release other c)).blank = l.blank := by simp
  by_cases muted : l.muted = true
  · rw [LinkController.handOver_muted muted]
  · have heard := Bool.eq_false_iff.mpr muted
    simp [LinkController.cancels, LinkController.waiting, LinkController.handOver_release_get heard,
      LinkController.standing_of_blank blank, LinkController.onLine_of_blank blank, h.symm]

/-- Which of the two RELEASE frames is handed over first makes no difference. -/
theorem LinkController.handOver_releases_comm (l : LinkController) (c d : Chan) :
    (l.handOver (.release .announce c)).handOver (.release .ordinary d) =
      (l.handOver (.release .ordinary d)).handOver (.release .announce c) := by
  by_cases muted : l.muted = true
  · simp [LinkController.handOver_muted muted]
  have heard := Bool.eq_false_iff.mpr muted
  have still (ty : ResType) (e : Chan) : (l.handOver (.release ty e)).muted = false ∧
      (l.handOver (.release ty e)).onLine = l.onLine :=
    have blank : (l.handOver (.release ty e)).blank = l.blank := by simp
    ⟨(LinkController.muted_of_blank blank).trans heard, LinkController.onLine_of_blank blank⟩
  refine LinkController.ext_get (by simp) (fun x => ?_) ?_ ?_
  · simp only [LinkController.handOver_release_get heard, LinkController.handOver_release_get (still _ _).1, (still _ _).2,
      LinkController.handOver_release_cancels (show ResType.announce ≠ .ordinary from nofun),
      LinkController.handOver_release_cancels (show ResType.ordinary ≠ .announce from nofun)]
    cases x with
    | reserve ty | release ty => cases ty <;> simp
    | mark | signal | status | report => simp
  · simp only [LinkController.handOver_release_heldAside heard, LinkController.handOver_release_heldAside (still _ _).1,
      (still _ _).2, LinkController.handOver_release_cancels (show ResType.announce ≠ .ordinary from nofun),
      LinkController.handOver_release_cancels (show ResType.ordinary ≠ .announce from nofun)]
    split_ifs with first second second <;> simp_all
  · simp only [LinkController.handOver_release_lineWithdrawn]

theorem LinkController.withdraw_get (l : LinkController) (slot x : Slot) :
    (l.withdraw slot).slots.get x = if x = slot ∧ l.onLine ≠ some slot then none else l.slots.get x := by
  by_cases line : l.onLine = some slot
  · simp [LinkController.withdraw_of_onLine line, line]
  · simp [LinkController.withdraw_of_offLine line, line, LinkController.setSlot_get]

theorem LinkController.withdraw_heldAside (l : LinkController) (slot : Slot) :
    (l.withdraw slot).heldAside = if l.onLine = some slot then none else l.heldAside := by
  unfold LinkController.withdraw
  split <;> rfl

theorem LinkController.withdraw_lineWithdrawn (l : LinkController) (slot : Slot) :
    (l.withdraw slot).lineWithdrawn = if l.onLine = some slot then true else l.lineWithdrawn := by
  unfold LinkController.withdraw
  split <;> rfl

theorem LinkController.withdraw_cancels (l : LinkController) {slot : Slot} {ty : ResType} (h : slot ≠ .reserve ty) :
    (l.withdraw slot).cancels ty = l.cancels ty := by
  have blank : (l.withdraw slot).blank = l.blank := by simp
  simp [LinkController.cancels, LinkController.waiting, LinkController.withdraw_get, LinkController.standing_of_blank blank,
    LinkController.onLine_of_blank blank, h.symm]

/-- Withdrawing the ORDINARY RESERVE and handing over the ANNOUNCE RELEASE do not meet. -/
theorem LinkController.withdraw_handOver_comm (l : LinkController) (c : Chan) :
    (l.handOver (.release .announce c)).withdraw (.reserve .ordinary) =
      (l.withdraw (.reserve .ordinary)).handOver (.release .announce c) := by
  have blank : (l.withdraw (.reserve .ordinary)).blank = l.blank := by simp
  by_cases muted : l.muted = true
  · have still : (l.withdraw (.reserve .ordinary)).muted = true := (LinkController.muted_of_blank blank).trans muted
    simp [LinkController.handOver_muted muted, LinkController.handOver_muted still]
  have heard := Bool.eq_false_iff.mpr muted
  have still : (l.withdraw (.reserve .ordinary)).muted = false := (LinkController.muted_of_blank blank).trans heard
  have line := LinkController.onLine_of_blank blank
  have lineToo : (l.handOver (.release .announce c)).onLine = l.onLine :=
    LinkController.onLine_of_blank (LinkController.handOver_blank _ _)
  have cancels := l.withdraw_cancels (show Slot.reserve .ordinary ≠ .reserve .announce from nofun)
  refine LinkController.ext_get (by simp) (fun x => ?_) ?_ ?_
  · simp only [LinkController.handOver_release_get heard, LinkController.handOver_release_get still,
      LinkController.withdraw_get, line, lineToo, cancels]
    cases x with
    | reserve ty | release ty => cases ty <;> simp
    | mark | signal | status | report => simp
  · simp only [LinkController.handOver_release_heldAside heard, LinkController.handOver_release_heldAside still,
      LinkController.withdraw_heldAside, line, lineToo, cancels]
    split_ifs with first second second <;> simp_all
  · simp only [LinkController.handOver_release_lineWithdrawn, LinkController.withdraw_lineWithdrawn, lineToo]

theorem Claim.dropped_handOver (x : Claim) (l : LinkController) (c : Chan) :
    x.dropped (l.handOver (.release .announce c)) = (x.dropped l).handOver (.release .announce c) := by
  unfold Claim.dropped
  split_ifs
  · exact l.withdraw_handOver_comm c
  · exact l.handOver_releases_comm c x.chan
  · rfl

end Sys2Proof.Machine


/-! ### A cut, channel by channel -/

namespace Sys2Proof.Machine

variable {s t : State} {c : Chan}

/-- The channel adds to the announce amount (R149). -/
abbrev State.announced (s : State) (c : Chan) : Prop :=
  (s.cfg c).cls = 0 ∧ (s.ch c).state = .inrush ∧ 0 < (s.cfg c).amount

theorem surgeAmount_eq_zero_iff : s.surgeAmount = 0 ↔ ∀ c, ¬s.announced c := by
  have zero : s.surgeAmount = 0 ↔ ∀ c, s.surging c = true → (s.cfg c).amount = 0 := by
    simp [State.surgeAmount, sumChans, List.sum_eq_zero_iff_forall_eq_nat, mem_allChans]
  simpa [State.surging] using zero

theorem surgeHold_of_quiet (quiet : ∀ c, s.surging c = false) : s.surgeHold = 0 := by
  have empty : allChans.filter s.surging = [] := List.filter_eq_nil_iff.mpr fun c _ => by simp [quiet c]
  rw [State.surgeHold, empty]
  rfl

/-- The claim's frames that end with the channel, if the claim is the channel's. -/
def State.dropsClaim (s : State) (c : Chan) (l : LinkController) : LinkController :=
  (s.sched.ordinary.filter fun x => x.chan = c).elim l fun x => x.dropped l

/-- The link once the first `k` channels have given up the claim. -/
def State.cutLink (s : State) (k : Nat) : LinkController :=
  (s.sched.ordinary.filter fun x => x.chan.val < k).elim s.link fun x => x.dropped s.link

theorem State.cutLink_succ (s : State) (c : Chan) : s.cutLink (c.val + 1) = s.dropsClaim c (s.cutLink c.val) := by
  unfold State.cutLink State.dropsClaim
  cases s.sched.ordinary with
  | none => rfl
  | some x =>
    simp only [Option.filter_some, decide_eq_true_eq, Fin.ext_iff]
    split_ifs <;> first | rfl | omega

theorem State.dropsClaim_of_other (other : ∀ x, s.sched.ordinary = some x → x.chan ≠ c) (l : LinkController) :
    s.dropsClaim c l = l := by
  have gone : (s.sched.ordinary.filter fun x => x.chan = c) = none :=
    Option.filter_eq_none_iff.mpr fun x claim => by simpa using other x claim
  rw [State.dropsClaim, gone]
  rfl

theorem State.dropsClaim_handOver (s : State) (c d : Chan) (l : LinkController) :
    s.dropsClaim c (l.handOver (.release .announce d)) = (s.dropsClaim c l).handOver (.release .announce d) := by
  unfold State.dropsClaim
  cases s.sched.ordinary.filter fun x => x.chan = c with
  | none => rfl
  | some x => exact x.dropped_handOver l d

theorem State.dropsClaim_of_zero (hs : s.AdmissionRuled) (zero : (s.cfg c).cls = 0) (l : LinkController) :
    s.dropsClaim c l = l := by
  obtain ⟨⟨-, claimed⟩, -⟩ := hs
  exact State.dropsClaim_of_other (fun x claim own => claimed x claim (own ▸ zero)) l

/-- A cut ends the claim of its channel, whatever its phase (R13, R143). -/
theorem endsClaim_cut (hs : s.AdmissionRuled) {x : Claim} (claim : s.sched.ordinary = some x) :
    endsClaim c (s.cfg c).cls (s.ch c).state .cut x = decide (x.chan = c) := by
  obtain ⟨⟨-, claimed⟩, -, claims, -⟩ := hs
  by_cases own : x.chan = c
  · have ruled := claims x claim
    have other := claimed x claim
    rw [own] at ruled other
    by_cases held : x.phase = .held <;> simp_all [endsClaim]
  · simp [endsClaim, own]

theorem enter_cut_announceHold (c : Chan) (s : State) : (enter c .cut .none s).sched.announceHold =
    if s.surging c = true then (enter c .cut .none s).surgeHold else s.sched.announceHold := by
  have same : (enter c .cut .none s).surgeHold = (s.setCh c ((s.ch c).enter .cut .none (s.cfg c).window)).surgeHold :=
    surgeHold_congr (by simp [enter]) (by simp [enter])
  rw [same]
  refine (notices_announce c _ _ .cut).2.trans (if_congr ?_ rfl rfl)
  simp [State.surging]

/-- Where a cut stands once the first `k` channels have entered CUT. -/
structure CutProgress (s : State) (k : Nat) (t : State) : Prop where
  admits : t.AdmissionRuled
  loader : t.loader = s.loader
  states : ∀ c, (t.ch c).state = if c.val < k then .cut else (s.ch c).state
  claim : t.sched.ordinary = s.sched.ordinary.filter fun x => k ≤ x.chan.val
  holdKept : (∀ c, c.val < k → s.surging c = false) → t.sched.announceHold = s.sched.announceHold
  holdOver : (∃ c, c.val < k ∧ s.surging c = true) → (∀ c, k ≤ c.val → s.surging c = false) → t.sched.announceHold = 0
  quiet : (∀ c, c.val < k → s.announced c → ∃ d, c < d ∧ s.announced d) → t.link = s.cutLink k
  released : ∀ c, c.val < k → s.announced c → (∀ d, c < d → ¬s.announced d) →
    t.link = (s.cutLink k).handOver (.release .announce c)

theorem CutProgress.cfg {k : Nat} (h : CutProgress s k t) (c : Chan) : t.cfg c = s.cfg c := cfg_congr h.loader c

theorem CutProgress.start (hs : s.AdmissionRuled) : CutProgress s 0 s where
  admits := hs
  loader := rfl
  states c := by simp
  claim := by simp [option_filter_true]
  holdKept _ := rfl
  holdOver := by simp
  quiet _ := by simp [State.cutLink]
  released := by simp

section
variable (h : CutProgress s c.val t)
include h

theorem CutProgress.state_self : (t.ch c).state = (s.ch c).state := by simp [h.states c]

theorem CutProgress.enter_states (d : Chan) :
    ((enter c .cut .none t).ch d).state = if d.val < c.val + 1 then .cut else (s.ch d).state := by
  rw [enter_state, h.states d]
  simp only [Fin.ext_iff]
  split_ifs <;> first | rfl | omega

theorem CutProgress.enter_announced (d : Chan) :
    (enter c .cut .none t).announced d ↔ c < d ∧ s.announced d := by
  simp only [State.announced, enter_cfg, h.cfg, h.enter_states, Fin.lt_def]
  split_ifs with below
  · simp
    omega
  · simp
    omega

theorem CutProgress.enter_surging (d : Chan) :
    (enter c .cut .none t).surging d = (decide (c < d) && s.surging d) := by
  simp only [State.surging, enter_cfg, h.cfg, h.enter_states, Fin.lt_def]
  split_ifs with below
  · simp [Nat.not_lt.mpr (Nat.le_of_lt_succ below)]
  · simp [Nat.lt_of_not_le fun le => below (Nat.lt_succ_of_le le)]

theorem CutProgress.amount_pos_iff : 0 < t.sched.announceAmount ↔ ∃ d, c ≤ d ∧ s.announced d := by
  obtain ⟨-, -, -, amount⟩ := h.admits
  rw [Nat.pos_iff_ne_zero, amount, ← surgeAmount_eq (s := t) fun _ => rfl, Ne, surgeAmount_eq_zero_iff]
  simp only [State.announced, h.cfg, h.states, Fin.le_def, not_forall, not_not]
  refine exists_congr fun d => ?_
  split_ifs with below
  · simp
    omega
  · simp
    omega

theorem CutProgress.dropsClaim : t.dropsClaim c t.link = s.dropsClaim c t.link := by
  have same : (t.sched.ordinary.filter fun x => x.chan = c) = s.sched.ordinary.filter fun x => x.chan = c := by
    rw [h.claim]
    cases s.sched.ordinary with
    | none => rfl
    | some x => by_cases own : x.chan = c <;> simp [Option.filter_some, own]
  rw [State.dropsClaim, same, State.dropsClaim]

/-- How the next channel's cut moves the link: its claim's frames, then the ANNOUNCE RELEASE of the last one announced. -/
theorem CutProgress.enter_link (hs : s.AdmissionRuled) : (enter c .cut .none t).link =
    if s.announced c ∧ ∀ d, c < d → ¬s.announced d then t.link.handOver (.release .announce c)
    else s.dropsClaim c t.link := by
  have last : (enter c .cut .none t).surgeAmount = 0 ↔ ∀ d, c < d → ¬s.announced d := by
    simp only [surgeAmount_eq_zero_iff, h.enter_announced, not_and]
  rw [enter_cut_link h.admits, h.cfg, h.state_self]
  simp only [h.amount_pos_iff, last]
  by_cases zero : (s.cfg c).cls = 0
  · rw [if_pos zero, State.dropsClaim_of_zero hs zero]
    refine if_congr ⟨fun ⟨surges, ⟨d, above, announced⟩, alone⟩ => ?_, fun ⟨announced, alone⟩ => ?_⟩ rfl rfl
    · obtain rfl : c = d := (eq_or_lt_of_le above).resolve_right fun later => alone d later announced
      exact ⟨announced, alone⟩
    · exact ⟨announced.2.1, ⟨c, le_refl c, announced⟩, alone⟩
  · rw [if_neg zero, if_neg fun announced => zero announced.1.1]
    exact h.dropsClaim

theorem CutProgress.next (hs : s.AdmissionRuled) : CutProgress s (c.val + 1) (enter c .cut .none t) where
  admits := (admissionRuled_iff _).mpr
    (enter_admits ((admissionRuled_iff _).mp h.admits) c .cut .none nofun nofun nofun)
  loader := (enter_loader c .cut .none t).trans h.loader
  states := h.enter_states
  claim := by
    rw [enter_ordinary, h.claim]
    have claim := h.claim
    cases held : s.sched.ordinary with
    | none => rfl
    | some x =>
      rw [held, Option.filter_some] at claim
      by_cases later : c.val ≤ x.chan.val
      · rw [if_pos (by simpa using later)] at claim
        simp only [Option.filter_some, later, decide_true, if_true, endsClaim_cut h.admits claim, Fin.ext_iff]
        exact if_congr (by simp; omega) rfl rfl
      · simp [Option.filter_some, show ¬c ≤ x.chan from later, show ¬c < x.chan from fun above => later (le_of_lt above)]
  holdKept idle := by
    have surges : t.surging c = false := by
      simpa [State.surging, h.cfg, h.state_self] using idle c (Nat.lt_succ_self _)
    rw [enter_cut_announceHold, surges, if_neg nofun]
    exact h.holdKept fun d below => idle d (Nat.lt_succ_of_lt below)
  holdOver surged idle := by
    by_cases surges : t.surging c = true
    · rw [enter_cut_announceHold, if_pos surges]
      refine surgeHold_of_quiet fun d => ?_
      rw [h.enter_surging]
      by_cases above : c < d
      · simp [idle d above]
      · simp [above]
    · have own : s.surging c = false := by simpa [State.surging, h.cfg, h.state_self] using surges
      obtain ⟨d, below, surging⟩ := surged
      have before : d.val < c.val := (Nat.lt_succ_iff_lt_or_eq.mp below).resolve_right fun same => by
        simp [Fin.ext same, own] at surging
      rw [enter_cut_announceHold, if_neg surges]
      refine h.holdOver ⟨d, before, surging⟩ fun e above => ?_
      obtain rfl | later := eq_or_lt_of_le (show c ≤ e from above)
      exacts [own, idle e later]
  quiet followed := by
    rw [h.enter_link hs, State.cutLink_succ, if_neg ?_, h.quiet ?_]
    · intro d below announced
      exact followed d (Nat.lt_succ_of_lt below) announced
    · rintro ⟨announced, last⟩
      obtain ⟨d, above, other⟩ := followed c (Nat.lt_succ_self _) announced
      exact last d above other
  released d below announced last := by
    rw [h.enter_link hs, State.cutLink_succ]
    obtain before | same := Nat.lt_succ_iff_lt_or_eq.mp below
    · rw [if_neg fun own => last c before own.1, h.released d before announced last, State.dropsClaim_handOver]
    · obtain rfl : d = c := Fin.ext same
      rw [if_pos ⟨announced, last⟩, h.quiet fun e earlier _ => ⟨d, earlier, announced⟩,
        State.dropsClaim_of_zero hs announced.1]

end

theorem cutBegins_progress (hs : s.AdmissionRuled) : CutProgress s 16 (cutBegins s) :=
  forChans_upTo (CutProgress.start hs) fun _ _ h => h.next hs

end Sys2Proof.Machine


/-! ### The cut as a whole -/

namespace Sys2Proof.Machine

variable {s t : State}

theorem Scheduler.eq_of_sameCounts {x y : Scheduler} (h : x.sameCounts y) :
    y = { x with queue := y.queue, ordinary := y.ordinary, announceAmount := y.announceAmount
                 announceHold := y.announceHold } := by
  obtain ⟨rotation, deferral, listen⟩ := h
  cases x
  cases y
  simp_all

theorem State.cutLink_all (s : State) : s.cutLink 16 = s.sched.ordinary.elim s.link fun x => x.dropped s.link := by
  simp [State.cutLink, Fin.is_lt, option_filter_true]

theorem cutBegins_releases (hs : s.AdmissionRuled) : s.CutReleases (cutBegins s) := by
  have progress := cutBegins_progress hs
  unfold State.CutReleases
  intro l announced
  have same : l = s.cutLink 16 := by
    rw [State.cutLink_all]
    cases claim : s.sched.ordinary with
    | none => simp [l, claim]
    | some x => simp [l, claim, Claim.dropped, LinkController.withdraw]
  rw [same]
  exact ⟨fun idle => progress.quiet fun c _ surges => absurd surges (idle c),
    fun c surges last => progress.released c c.isLt surges last⟩

theorem cutBegins_sched (hs : s.AdmissionRuled) : (cutBegins s).sched = { s.sched with
    queue := [], ordinary := none, announceAmount := 0
    announceHold := if ∃ c, (s.cfg c).cls = 0 ∧ (s.ch c).state = .inrush then 0 else s.sched.announceHold } := by
  have progress := cutBegins_progress hs
  have dark (c : Chan) : ((cutBegins s).ch c).state = .cut := (progress.states c).trans (if_pos c.isLt)
  obtain ⟨-, ⟨-, queue⟩, -, amount⟩ := progress.admits
  have waits : (cutBegins s).sched.queue = [] :=
    List.eq_nil_iff_forall_not_mem.mpr fun c waiting => by simpa [dark c] using (queue c).mp waiting
  have claim : (cutBegins s).sched.ordinary = none := by
    rw [progress.claim]
    exact Option.filter_eq_none_iff.mpr fun x _ => by simp
  have zero : (cutBegins s).sched.announceAmount = 0 := by
    rw [amount, ← surgeAmount_eq fun _ => rfl, surgeAmount_eq_zero_iff]
    exact fun c ⟨_, surges, _⟩ => by simp [dark c] at surges
  have hold : (cutBegins s).sched.announceHold =
      if ∃ c, (s.cfg c).cls = 0 ∧ (s.ch c).state = .inrush then 0 else s.sched.announceHold := by
    split
    · next surges =>
      exact progress.holdOver (surges.imp fun c h => ⟨c.isLt, by simp [State.surging, h]⟩) fun c above => absurd c.isLt (by omega)
    · next idle =>
      exact progress.holdKept fun c _ => by simpa [State.surging] using not_exists.mp idle c
  rw [Scheduler.eq_of_sameCounts (cutBegins_kept s).counts, waits, claim, zero, hold]

theorem cutBegins_leaves (hs : s.AdmissionRuled) : s.CutLeaves (cutBegins s) := by
  have rest := (cutBegins_kept s).rest
  refine ⟨fun c => ?_, cutBegins_sched hs, cutBegins_releases hs, ?_, ?_⟩
  · rw [cutBegins_ch]
    simp [Channel.enter, Channel.recompute, effectiveDutyOf, ChState.immediateOff]
  · rw [rest]
  · exact keeps_of_blank (cutBegins_blank s)

/-- A cause that joins none begins the cut; one that joins another only stands beside it. -/
theorem changeCauses_joins {x : CutCauses} (stands : x.isEmpty = false) (s : State) :
    changeCauses x s =
      if s.cuts = { isolate := false, supply := false } then cutBegins (s.setCauses x) else s.setCauses x := by
  have first : s.cuts.isEmpty = true ↔ s.cuts = { isolate := false, supply := false } := by
    cases s.cuts
    simp [CutCauses.isEmpty]
  simp [changeCauses, stands, first]

/-- Outside the channels, the Scheduler and the link the cut of a cause joined changes nothing but the causes. -/
theorem changeCauses_joins_keeps {x : CutCauses} (stands : x.isEmpty = false) (hs : s.AdmissionRuled) :
    (changeCauses x s).pins = s.pins ∧ (changeCauses x s).cuts = x ∧ (changeCauses x s).sense = s.sense ∧
    (changeCauses x s).modulator = s.modulator ∧
    (s.cuts = { isolate := false, supply := false } → s.CutLeaves (changeCauses x s)) ∧
    (s.cuts ≠ { isolate := false, supply := false } →
      (changeCauses x s).channels = s.channels ∧ (changeCauses x s).sched = s.sched ∧
      (changeCauses x s).link = s.link) := by
  have kept := changeCauses_kept x s
  refine ⟨kept.pins, kept.cuts, kept.sense, kept.modulator, fun first => ?_, fun other => ?_⟩
  · rw [changeCauses_joins stands, if_pos first]
    exact cutBegins_leaves (s := s.setCauses x) hs
  · rw [changeCauses_joins stands, if_neg other]
    exact ⟨rfl, rfl, rfl⟩

end Sys2Proof.Machine

namespace Sys2Proof

open Machine

/-- Settles O31: the cause joins; where it is the first, the channels are cut one after the other. -/
theorem isolateCutsEveryChannel : Obligations.IsolateCutsEveryChannel := by
  intro s loaded low ruled
  have run : exec (.isolateChange true) s =
      .next (changeCauses { s.cuts with isolate := true } (s.setPins { s.pins with isolate := true })) :=
    congrArg Host.Outcome.next (if_pos (by simp [State.isLoaded] at loaded; simp [State.isLoaded, loaded, low]))
  obtain ⟨pins, cuts, sense, modulator, first, other⟩ :=
    changeCauses_joins_keeps (s := s.setPins { s.pins with isolate := true }) (x := { s.cuts with isolate := true }) rfl ruled
  exact ⟨_, run, pins, cuts, sense, modulator, first, other⟩

/-- Settles O30: the second low sample in a row joins SUPPLY to the causes; any other only counts. -/
theorem aSupplySampleIsTaken : Obligations.ASupplySampleIsTaken := by
  intro s voltage v loaded running idle hv m
  subst hv
  have run : exec (.supplySample voltage) s = .next (takeSupply voltage s) := next_of_loaded loaded _
  rw [run, takeSupply, if_pos (by simp [running, idle])]
  refine ⟨fun cut => ?_, fun live enough => ?_, fun live low first => ?_, fun live low second ruled => ?_⟩
  · rw [if_pos cut]
    rfl
  · rw [if_neg live, if_neg (Nat.not_lt.mpr enough)]
    rfl
  · rw [if_neg live, if_pos low, if_pos first]
    rfl
  · rw [if_neg live, if_pos low, if_neg second]
    have joined := changeCauses_joins_keeps (x := { s.cuts with supply := true })
      (s := { s with modulator := m, sense :=
        { s.sense with supply := .cut, pendingSupply := some (min voltage 400), lowSamples := 0 } })
      (by simp [CutCauses.isEmpty]) ruled
    obtain ⟨pins, cuts, sense, modulator, first, other⟩ := joined
    exact ⟨_, rfl, modulator, pins, sense, cuts, first, other⟩

end Sys2Proof



/-! ### Demand taken again -/

namespace Sys2Proof.Machine

variable {s t : State} {c : Chan}

/-- The channel's held demand wants power. -/
abbrev State.takesDemand (s : State) (c : Chan) : Prop :=
  (s.cfg c).enabled = true ∧ demandOn (s.cfg c).mode (s.ch c).demandLevel = true

/-- Leaving a dark state, a channel takes its demand again: class 0 begins its surge, another joins the queue (R15, R20). -/
theorem retake_eq (waits : (s.ch c).state ≠ .requested) (surges : (s.ch c).state ≠ .inrush) :
    retake c s =
      if s.takesDemand c then
        if (s.cfg c).cls = 0 then inrushBegun c (s.setCh c ((s.ch c).retaken (s.cfg c)))
        else joined c (s.setCh c ((s.ch c).retaken (s.cfg c)))
      else s.setCh c ((s.ch c).retaken (s.cfg c)) := by
  have off : enter c .off .none s = s.setCh c ((s.ch c).enter .off .none (s.cfg c).window) := by
    simp [enter, notices, waits, surges]
  have level : ((s.ch c).enter .off .none (s.cfg c).window).demandLevel = (s.ch c).demandLevel := rfl
  have wants : (enter c .off .none s).wants c = demandOn (s.cfg c).mode (s.ch c).demandLevel := by
    simp [State.wants, off, level]
  by_cases takes : s.takesDemand c
  · have retaken : (s.ch c).retaken (s.cfg c) = ((s.ch c).enter .off .none (s.cfg c).window).wanted (s.cfg c) :=
      if_pos (by simpa using takes)
    rw [if_pos takes, retaken]
    simp only [retake, wants, enter_cfg, takes, Bool.and_self, if_true]
    rw [off]
    by_cases zero : (s.cfg c).cls = 0
    · rw [if_pos zero]
      simp [switchOn, zero, Channel.wanted, enter, notices, State.setCh_setCh, Channel.enter, Channel.recompute]
    · rw [if_neg zero]
      simp [switchOn, zero, Channel.wanted, enter, notices, State.setCh_setCh, Channel.enter, Channel.recompute]
  · have retaken : (s.ch c).retaken (s.cfg c) = (s.ch c).enter .off .none (s.cfg c).window :=
      if_neg (by simpa using takes)
    rw [if_neg takes, retaken, ← off]
    simp only [retake, wants, enter_cfg]
    exact if_neg (by simpa using takes)

theorem Channel.retaken_state (x : Channel) (k : ChannelConfig) : (x.retaken k).state =
    if k.enabled = true ∧ demandOn k.mode x.demandLevel = true then (if k.cls = 0 then .inrush else .requested) else .off := by
  simp only [Channel.retaken, Channel.wanted, Bool.and_eq_true]
  split_ifs <;> rfl

theorem Channel.retaken_requested_iff (x : Channel) (k : ChannelConfig) : (x.retaken k).state = .requested ↔
    (k.enabled = true ∧ demandOn k.mode x.demandLevel = true) ∧ k.cls ≠ 0 := by
  rw [Channel.retaken_state]
  split_ifs with takes zero
  · simp [zero]
  · simp [zero, takes]
  · simp [takes]

/-- What a channel is that takes its demand again (R15, R20). -/
theorem Channel.retaken_from_dark (x : Channel) (k : ChannelConfig) :
    let wants := k.enabled = true ∧ demandOn k.mode x.demandLevel = true
    (x.retaken k).state = (if wants then (if k.cls = 0 then .inrush else .requested) else .off) ∧
    (x.retaken k).inrushRemaining = (if wants ∧ k.cls = 0 then k.window else 0) ∧
    (x.retaken k).effectiveDuty = (if wants ∧ k.cls = 0 then x.demandDuty else 0) ∧
    (x.retaken k).shadowDuty = (x.retaken k).effectiveDuty ∧ (x.retaken k).demandLevel = x.demandLevel ∧
    (x.retaken k).demandDuty = x.demandDuty ∧ (x.retaken k).fault = x.fault ∧ (x.retaken k).cap = 255 := by
  intro wants
  refine ⟨x.retaken_state k, ?_⟩
  by_cases takes : wants
  · have retaken : x.retaken k = (x.enter .off .none k.window).wanted k := if_pos (by simpa [wants] using takes)
    by_cases zero : k.cls = 0 <;>
      simp [retaken, takes, zero, Channel.wanted, Channel.enter, Channel.recompute, effectiveDutyOf]
  · have retaken : x.retaken k = x.enter .off .none k.window := if_neg (by simpa [wants] using takes)
    simp [retaken, takes, Channel.enter, Channel.recompute, effectiveDutyOf]

/-- A later RESERVE of a type takes the place of the earlier one. -/
theorem LinkController.handOver_reserve_twice (l : LinkController) (ty : ResType) (cls cls' : Cls) (c c' : Chan)
    (amount amount' hold hold' : Nat) :
    (l.handOver (.reserve ty cls c amount hold)).handOver (.reserve ty cls' c' amount' hold') =
      l.handOver (.reserve ty cls' c' amount' hold') := by
  by_cases muted : l.muted = true
  · simp [LinkController.handOver_muted muted]
  have heard := Bool.eq_false_iff.mpr muted
  have still : (l.handOver (.reserve ty cls c amount hold)).muted = false :=
    (LinkController.muted_of_blank (LinkController.handOver_blank _ _)).trans heard
  rw [LinkController.handOver_reserve still, LinkController.handOver_reserve heard, LinkController.handOver_reserve heard]
  by_cases release : l.onLine = some (.release ty)
  · cases ty <;> simp [LinkController.dropRelease, LinkController.place, LinkController.setSlot, Frame.slot, Slots.set, release]
  · by_cases reserve : l.onLine = some (.reserve ty) <;>
      cases ty <;>
        simp [LinkController.dropRelease, LinkController.place, LinkController.setSlot, Frame.slot, Slots.set, release, reserve]

theorem sumChans_eq_sum (test : Chan → Bool) (f : Chan → Nat) :
    sumChans test f = ∑ c, if test c = true then f c else 0 := by
  rw [Fin.sum_univ_def, sumChans, allChans]
  induction List.finRange 16 with
  | nil => rfl
  | cons c rest ih => by_cases h : test c = true <;> simp [h, ih]

theorem surgeAmount_mono (cfg : ∀ d, t.cfg d = s.cfg d) (more : ∀ d, s.surging d = true → t.surging d = true) :
    s.surgeAmount ≤ t.surgeAmount := by
  refine min_le_min_left _ ?_
  simp only [sumChans_eq_sum, cfg]
  refine Finset.sum_le_sum fun d _ => ?_
  split_ifs with surges begun
  exacts [le_refl _, absurd (more d surges) begun, Nat.zero_le _, le_refl _]

/-- A surge that begins with an amount raises the sum, below its bound. -/
theorem surgeAmount_lt (cfg : ∀ d, t.cfg d = s.cfg d) (more : ∀ d, s.surging d = true → t.surging d = true)
    (idle : s.surging c = false) (begins : t.surging c = true) (amount : 0 < (s.cfg c).amount)
    (bound : t.surgeAmount < 4095) : s.surgeAmount < t.surgeAmount := by
  have sum : sumChans s.surging (fun d => (s.cfg d).amount) < sumChans t.surging (fun d => (t.cfg d).amount) := by
    simp only [sumChans_eq_sum, cfg]
    refine Finset.sum_lt_sum (fun d _ => ?_) ⟨c, Finset.mem_univ c, by simpa [idle, begins] using amount⟩
    split_ifs with surges begun
    exacts [le_refl _, absurd (more d surges) begun, Nat.zero_le _, le_refl _]
  simp only [State.surgeAmount] at bound ⊢
  omega

/-- Amount and hold are those of the channels that surge. -/
theorem surge_congr (cfg : ∀ d, t.cfg d = s.cfg d) (same : ∀ d, t.surging d = s.surging d)
    (spans : ∀ d, s.surging d = true → (t.ch d).inrushRemaining = (s.ch d).inrushRemaining) :
    t.surgeAmount = s.surgeAmount ∧ t.surgeHold = s.surgeHold := by
  have surging : t.surging = s.surging := funext same
  refine ⟨by simp only [State.surgeAmount, surging, cfg], ?_⟩
  simp only [State.surgeHold, surging]
  exact List.foldl_ext _ _ _ fun h d mem => by rw [spans d (List.mem_filter.mp mem).2]

theorem retake_queue (waits : (s.ch c).state ≠ .requested) (surges : (s.ch c).state ≠ .inrush) :
    (retake c s).sched.queue = s.sched.queue ++ if s.takesDemand c ∧ (s.cfg c).cls ≠ 0 then [c] else [] := by
  rw [retake_eq waits surges]
  split_ifs with takes zero both both both <;> simp_all [inrushBegun_sched, joined]

theorem retake_ordinary (waits : (s.ch c).state ≠ .requested) (surges : (s.ch c).state ≠ .inrush) :
    (retake c s).sched.ordinary = s.sched.ordinary := by
  rw [retake_eq waits surges]
  split_ifs <;> simp [inrushBegun_sched, joined]

/-- Only a class 0 channel that takes its demand announces. -/
theorem retake_silent (waits : (s.ch c).state ≠ .requested) (surges : (s.ch c).state ≠ .inrush)
    (idle : ¬(s.takesDemand c ∧ (s.cfg c).cls = 0)) :
    (retake c s).link = s.link ∧ (retake c s).sched.announceAmount = s.sched.announceAmount ∧
      (retake c s).sched.announceHold = s.sched.announceHold := by
  rw [retake_eq waits surges]
  split_ifs with takes zero
  · exact absurd ⟨takes, zero⟩ idle
  · exact ⟨rfl, rfl, rfl⟩
  · exact ⟨rfl, rfl, rfl⟩

/-- A class 0 channel that takes its demand announces the amount and the hold of all that surge (R149). -/
theorem retake_announces (waits : (s.ch c).state ≠ .requested) (surges : (s.ch c).state ≠ .inrush)
    (takes : s.takesDemand c) (zero : (s.cfg c).cls = 0) :
    (retake c s).sched.announceAmount = (retake c s).surgeAmount ∧
    (retake c s).sched.announceHold = (retake c s).surgeHold ∧
    (retake c s).link =
      if s.sched.announceAmount < (retake c s).surgeAmount ∨
          0 < (retake c s).surgeAmount ∧ s.sched.announceHold < (retake c s).surgeHold then
        s.link.handOver (.reserve .announce 0 c (retake c s).surgeAmount (retake c s).surgeHold)
      else s.link := by
  have begun : retake c s = inrushBegun c (s.setCh c ((s.ch c).retaken (s.cfg c))) := by
    rw [retake_eq waits surges, if_pos takes, if_pos zero]
  obtain ⟨u, held⟩ : ∃ u, u = s.setCh c ((s.ch c).retaken (s.cfg c)) := ⟨_, rfl⟩
  have link : u.link = s.link := by rw [held, State.setCh_link]
  have sched : u.sched = s.sched := by rw [held, State.setCh_sched]
  have amount : (inrushBegun c u).surgeAmount = u.surgeAmount := surgeAmount_congr (by simp) (by simp)
  have hold : (inrushBegun c u).surgeHold = u.surgeHold := surgeHold_congr (by simp) (by simp)
  rw [begun, ← held, amount, hold, inrushBegun_link, inrushBegun_sched, link, sched]
  exact ⟨rfl, rfl, rfl⟩

/-- Where the end of a cut stands once the first `k` channels have taken their demand again. -/
structure RetakeProgress (s : State) (k : Nat) (t : State) : Prop where
  loader : t.loader = s.loader
  channels : ∀ c, t.ch c = if c.val < k then (s.ch c).retaken (s.cfg c) else s.ch c
  queue : t.sched.queue = s.sched.queue ++ (allChans.take k).filter fun c => s.takesDemand c ∧ (s.cfg c).cls ≠ 0
  ordinary : t.sched.ordinary = s.sched.ordinary

theorem RetakeProgress.cfg {k : Nat} (h : RetakeProgress s k t) (c : Chan) : t.cfg c = s.cfg c := cfg_congr h.loader c

theorem RetakeProgress.start (s : State) : RetakeProgress s 0 s where
  loader := rfl
  channels c := by simp
  queue := by simp
  ordinary := rfl

theorem RetakeProgress.self (h : RetakeProgress s c.val t) : t.ch c = s.ch c := by simp [h.channels c]

theorem RetakeProgress.takesDemand (h : RetakeProgress s c.val t) : t.takesDemand c ↔ s.takesDemand c := by
  rw [State.takesDemand, h.cfg, h.self]

theorem RetakeProgress.next (dark : (s.ch c).state = .cut) (h : RetakeProgress s c.val t) :
    RetakeProgress s (c.val + 1) (retake c t) where
  loader := by simp [h.loader]
  channels d := by
    rw [retake_ch, h.channels d, h.self, h.cfg]
    simp only [Fin.ext_iff]
    split_ifs with same below later earlier
    · rw [Fin.ext same]
    · omega
    · rfl
    · omega
    · omega
    · rfl
  queue := by
    rw [retake_queue (by simp [h.self, dark]) (by simp [h.self, dark]), h.queue, allChans_take_succ, List.filter_append,
      List.append_assoc]
    have same : (if t.takesDemand c ∧ (t.cfg c).cls ≠ 0 then [c] else []) =
        if s.takesDemand c ∧ (s.cfg c).cls ≠ 0 then [c] else [] := by
      simp only [State.takesDemand, h.cfg, h.self]
    rw [same, List.filter_singleton, Bool.cond_decide]
  ordinary := (retake_ordinary (by simp [h.self, dark]) (by simp [h.self, dark])).trans h.ordinary

/-- What the channels that begin their surge then announce, nothing having been announced before. -/
structure AnnounceProgress (s : State) (k : Nat) (t : State) : Prop where
  amount : t.sched.announceAmount = t.surgeAmount
  quiet : t.surgeAmount = 0 → t.link = s.link
  handed : t.link = s.link ∨ ∃ d a h, t.link = s.link.handOver (.reserve .announce 0 d a h)
  last : t.surgeAmount < 4095 → ∀ c, c.val < k → (t.ch c).state = .inrush → 0 < (s.cfg c).amount →
    (∀ d, c < d → (t.ch d).state ≠ .inrush) → t.sched.announceHold = t.surgeHold ∧
      t.link = s.link.handOver (.reserve .announce 0 c t.surgeAmount t.surgeHold)

theorem retake_other {d : Chan} (other : d ≠ c) : (retake c t).ch d = t.ch d := by
  rw [retake_ch, if_neg other]

section
variable (h : RetakeProgress s c.val t) (a : AnnounceProgress s c.val t)
include h

theorem RetakeProgress.retake_state : ((retake c t).ch c).state =
    if s.takesDemand c then (if (s.cfg c).cls = 0 then .inrush else .requested) else .off := by
  rw [retake_ch, if_pos rfl, Channel.retaken_state, h.cfg, h.self]

theorem RetakeProgress.retake_surging (d : Chan) : (retake c t).surging d =
    if d = c then decide (s.takesDemand c ∧ (s.cfg c).cls = 0) else t.surging d := by
  by_cases own : d = c
  · subst own
    rw [if_pos rfl, State.surging, h.retake_state, retake_cfg, h.cfg]
    by_cases takes : s.takesDemand d
    · by_cases zero : (s.cfg d).cls = 0 <;> simp [takes, zero]
    · rw [if_neg takes]
      simp [takes]
  · rw [if_neg own, State.surging, retake_cfg, retake_other own]
    rfl

include a

theorem AnnounceProgress.next_silent (dark : (s.ch c).state = .cut) (idle : ¬(s.takesDemand c ∧ (s.cfg c).cls = 0)) :
    AnnounceProgress s (c.val + 1) (retake c t) := by
  have state : (t.ch c).state = .cut := by rw [h.self, dark]
  have still : t.surging c = false := by simp [State.surging, state]
  obtain ⟨link, amount, hold⟩ := retake_silent (s := t) (c := c) (by simp [state]) (by simp [state])
    (by rwa [h.takesDemand, h.cfg])
  obtain ⟨sum, span⟩ := surge_congr (s := t) (t := retake c t) (retake_cfg c t)
    (fun d => by
      rw [h.retake_surging]
      split_ifs with own
      · rw [own, still, decide_eq_false idle]
      · rfl)
    (fun d surges => by rw [retake_other fun own => by simp [own, still] at surges])
  refine ⟨by rw [amount, a.amount, sum], fun zero => by rw [link, a.quiet (sum ▸ zero)], by rw [link]; exact a.handed,
    fun bound d below surges rises after => ?_⟩
  have other : d ≠ c := by
    rintro rfl
    rw [h.retake_state] at surges
    split_ifs at surges with takes zero
    exact idle ⟨takes, zero⟩
  have below : d.val < c.val := (Nat.lt_succ_iff_lt_or_eq.mp below).resolve_right fun same => other (Fin.ext same)
  rw [hold, link, sum, span]
  refine a.last (sum ▸ bound) d below ?_ rises fun e above => ?_
  · rwa [← retake_other other]
  · by_cases own : e = c
    · simp [own, state]
    · rw [← retake_other (t := t) own]
      exact after e above

theorem AnnounceProgress.next_announced (dark : (s.ch c).state = .cut) (begins : s.takesDemand c ∧ (s.cfg c).cls = 0) :
    AnnounceProgress s (c.val + 1) (retake c t) := by
  have state : (t.ch c).state = .cut := by rw [h.self, dark]
  have still : t.surging c = false := by simp [State.surging, state]
  obtain ⟨amount, hold, link⟩ := retake_announces (s := t) (c := c) (by simp [state]) (by simp [state])
    (h.takesDemand.mpr begins.1) (by rw [h.cfg, begins.2])
  have more (d : Chan) (surges : t.surging d = true) : (retake c t).surging d = true := by
    rw [h.retake_surging, if_neg fun own => by simp [own, still] at surges, surges]
  refine ⟨amount, fun zero => ?_, ?_, fun bound d below surges rises after => ?_⟩
  · rw [link, if_neg (by omega)]
    exact a.quiet (Nat.le_zero.mp (zero ▸ surgeAmount_mono (retake_cfg c t) more))
  · rw [link]
    split
    · refine .inr ⟨c, (retake c t).surgeAmount, (retake c t).surgeHold, ?_⟩
      obtain same | ⟨_, _, _, same⟩ := a.handed
      · rw [same]
      · rw [same, LinkController.handOver_reserve_twice]
    · exact a.handed
  · have began : ((retake c t).ch c).state = .inrush := by rw [h.retake_state, if_pos begins.1, if_pos begins.2]
    have own : d = c := by
      by_contra other
      have earlier : d < c := lt_of_le_of_ne (Nat.le_of_lt_succ below) other
      exact after c earlier began
    subst own
    have raised := surgeAmount_lt (retake_cfg d t) more still
      (by rw [h.retake_surging, if_pos rfl, decide_eq_true begins]) (by rwa [h.cfg]) bound
    refine ⟨hold, ?_⟩
    rw [link, if_pos (.inl (a.amount ▸ raised))]
    obtain same | ⟨_, _, _, same⟩ := a.handed
    · rw [same]
    · rw [same, LinkController.handOver_reserve_twice]

theorem AnnounceProgress.next (dark : (s.ch c).state = .cut) : AnnounceProgress s (c.val + 1) (retake c t) := by
  by_cases begins : s.takesDemand c ∧ (s.cfg c).cls = 0
  · exact AnnounceProgress.next_announced h a dark begins
  · exact AnnounceProgress.next_silent h a dark begins

end

/-- The end of a cut, in which every channel takes its demand again. -/
theorem cutEnds_progress (dark : ∀ c, (s.ch c).state = .cut) : RetakeProgress s 16 (cutEnds s) := by
  refine forChans_upTo (P := RetakeProgress s) (RetakeProgress.start s) fun c t h => ?_
  rw [if_pos (by rw [h.self, dark])]
  exact h.next (dark c)

theorem AnnounceProgress.start (dark : ∀ c, (s.ch c).state = .cut) (zero : s.sched.announceAmount = 0) :
    AnnounceProgress s 0 s where
  amount := by rw [zero, eq_comm, surgeAmount_eq_zero_iff]; exact fun c ⟨_, surges, _⟩ => by simp [dark c] at surges
  quiet _ := rfl
  handed := .inl rfl
  last _ c none := absurd none (Nat.not_lt_zero _)

theorem cutEnds_announces (dark : ∀ c, (s.ch c).state = .cut) (zero : s.sched.announceAmount = 0) :
    AnnounceProgress s 16 (cutEnds s) := by
  have both : RetakeProgress s 16 (cutEnds s) ∧ AnnounceProgress s 16 (cutEnds s) := by
    refine forChans_upTo (P := fun k t => RetakeProgress s k t ∧ AnnounceProgress s k t)
      ⟨RetakeProgress.start s, AnnounceProgress.start dark zero⟩ fun c t ⟨h, a⟩ => ?_
    rw [if_pos (by rw [h.self, dark])]
    exact ⟨h.next (dark c), AnnounceProgress.next h a (dark c)⟩
  exact both.2

/-- The cause that leaves last ends the cut. -/
theorem changeCauses_leaves {x : CutCauses} (stood : s.cuts.isEmpty = false) :
    changeCauses x s = if x.isEmpty = true then cutEnds (s.setCauses x) else s.setCauses x := by
  simp [changeCauses, stood]

end Sys2Proof.Machine

namespace Sys2Proof

open Machine

/-- Settles O32: the last cause gone, each channel takes its held demand, one after the other. -/
theorem theEndOfTheCutTakesDemandAgain : Obligations.TheEndOfTheCutTakesDemandAgain := by
  intro s loaded high stood dark empty
  let x : CutCauses := { s.cuts with isolate := false }
  let u := s.setPins { s.pins with isolate := false }
  have run : exec (.isolateChange false) s = .next (changeCauses x u) :=
    congrArg Host.Outcome.next (if_pos (by simp [State.isLoaded] at loaded; simp [State.isLoaded, loaded, high]))
  have kept := changeCauses_kept x u
  refine ⟨_, run, kept.pins, kept.cuts, kept.sense, kept.modulator, kept.diag, keeps_of_blank (s := u) (changeCauses_blank x u),
    fun other => ?_, fun last => ?_⟩
  · rw [changeCauses_leaves (by simp [u, State.setPins, CutCauses.isEmpty, stood]), if_neg (by simp [x, CutCauses.isEmpty, other])]
    exact ⟨rfl, rfl, rfl⟩
  · rw [changeCauses_leaves (by simp [u, State.setPins, CutCauses.isEmpty, stood]), if_pos (by simp [x, CutCauses.isEmpty, last])]
    have progress := cutEnds_progress (s := u.setCauses x) dark
    have announces := cutEnds_announces (s := u.setCauses x) dark
    have counts := (cutEnds_kept (u.setCauses x)).counts
    generalize cutEnds (u.setCauses x) = t at progress announces counts
    have retaken (c : Chan) : t.ch c = (s.ch c).retaken (s.cfg c) := (progress.channels c).trans (if_pos c.isLt)
    have sum : t.surgeAmount = s.SurgeSum t := surgeAmount_eq progress.cfg
    have span : t.surgeHold = s.SurgeSpan t := surgeHold_eq progress.cfg
    refine ⟨fun c => ?_, ?_, progress.ordinary, counts.2.2, counts.2.1, fun zero => ?_⟩
    · rw [retaken c]
      exact (s.ch c).retaken_from_dark (s.cfg c)
    · have all : allChans.take 16 = allChans := List.take_of_length_le (by simp [allChans])
      rw [progress.queue, all, show (u.setCauses x).sched.queue = [] from empty, List.nil_append]
      refine List.filter_congr fun c _ => ?_
      rw [retaken c, decide_eq_decide, Channel.retaken_requested_iff]
      rfl
    · have a := announces zero
      rw [← sum, ← span]
      refine ⟨a.amount, a.quiet, fun bound c surges rises after => ?_⟩
      exact a.last bound c c.isLt surges rises after

end Sys2Proof


/-! ### A SIGNAL frame: the last value written for a key -/

namespace Sys2Proof.Machine

variable {s : State}

theorem signalPairs_eq : ∀ payload : List Byte, signalPairs payload =
    (List.range (payload.length / 2)).map fun i =>
      ((payload.getD (2 * i) 0).toNat, (payload.getD (2 * i + 1) 0).toNat)
  | [] => rfl
  | [_] => by simp [signalPairs]
  | n :: v :: rest => by
    have pairs : (n :: v :: rest).length / 2 = rest.length / 2 + 1 := by simp only [List.length_cons]; omega
    rw [signalPairs, signalPairs_eq rest, pairs, List.range_succ_eq_map, List.map_cons, List.map_map]
    rfl

/-- The value last written for a signal number. -/
def lastValue (pairs : List (Nat × Nat)) (sig : Nat) : Option Nat :=
  ((pairs.filter fun p => p.1 = sig).getLast?).map Prod.snd

theorem lastValue_append (pairs : List (Nat × Nat)) (p : Nat × Nat) (sig : Nat) :
    lastValue (pairs ++ [p]) sig = if p.1 = sig then some p.2 else lastValue pairs sig := by
  by_cases h : p.1 = sig <;> simp [lastValue, h]

theorem lastValue_ne_none_iff (pairs : List (Nat × Nat)) (sig : Nat) :
    lastValue pairs sig ≠ none ↔ ∃ p ∈ pairs, p.1 = sig := by
  simp [lastValue]

theorem lastValue_signalPairs (payload : List Byte) (sig : Nat) : lastValue (signalPairs payload) sig =
    (((List.range (payload.length / 2)).filter fun i => (payload.getD (2 * i) 0).toNat = sig).getLast?).map
      fun i => (payload.getD (2 * i + 1) 0).toNat := by
  rw [signalPairs_eq, lastValue, List.filter_map, List.getLast?_map, Option.map_map]
  rfl

/-- An entry once the pairs of a frame from `sender` are written (R67). -/
def StoreEntry.written (e : StoreEntry) (sender : Stn) (value : Option Nat) : StoreEntry :=
  value.elim e fun v => if e.source = sender then { e with value := v, age := 0, state := .fresh } else e

theorem StoreEntry.written_source (e : StoreEntry) (sender : Stn) (value : Option Nat) :
    (e.written sender value).source = e.source := by
  cases value with
  | none => rfl
  | some v => exact apply_ite StoreEntry.source _ _ _ |>.trans (ite_self _)

theorem StoreEntry.written_signal (e : StoreEntry) (sender : Stn) (value : Option Nat) :
    (e.written sender value).signal = e.signal := by
  cases value with
  | none => rfl
  | some v => exact apply_ite StoreEntry.signal _ _ _ |>.trans (ite_self _)

theorem writePairs_eq (sender : Stn) (store : List StoreEntry) (pairs : List (Nat × Nat)) :
    pairs.foldl (writePair sender) store = store.map fun e => e.written sender (lastValue pairs e.signal.val) := by
  induction pairs using List.reverseRecOn with
  | nil => exact (List.map_id store).symm
  | append_singleton pairs p ih =>
    rw [List.foldl_append, ih, List.foldl_cons, List.foldl_nil, writePair, List.map_map]
    refine List.map_congr_left fun e _ => ?_
    simp only [Function.comp_apply, StoreEntry.hasKey, StoreEntry.written_source, StoreEntry.written_signal, lastValue_append]
    by_cases source : e.source = sender <;> by_cases number : p.1 = e.signal.val
    · simp [source, number, StoreEntry.written]
    · simp [source, number, Ne.symm number]
    · cases lastValue pairs e.signal.val <;> simp [source, number, StoreEntry.written]
    · simp [source, number]

theorem wholePairs_iff (payload : List Byte) : wholePairs payload = true ↔
    payload.length = 2 ∨ payload.length = 4 ∨ payload.length = 6 ∨ payload.length = 8 := by
  simp only [wholePairs, Bool.and_eq_true, decide_eq_true_eq]
  omega

/-- The channel is bound to a key of the Store that the pairs of a frame from `sender` name. -/
def State.reaches (s : State) (sender : Stn) (pairs : List (Nat × Nat)) (c : Chan) : Bool :=
  s.bound (fun b => b.source = sender && (pairs.filter (keyHeld sender s.signal.store)).any fun p => p.1 = b.signal.val) c

theorem State.reaches_iff (s : State) (sender : Stn) (pairs : List (Nat × Nat)) (c : Chan) :
    s.reaches sender pairs c = true ↔ ∃ b ∈ s.signal.bindings, b.chan = c ∧ b.source = sender ∧
      lastValue pairs b.signal.val ≠ none ∧ ∃ e ∈ s.signal.store, e.source = sender ∧ e.signal = b.signal := by
  simp only [State.reaches, bound_iff, lastValue_ne_none_iff, Bool.and_eq_true, decide_eq_true_eq, List.any_eq_true,
    List.mem_filter, keyHeld, StoreEntry.hasKey, Fin.ext_iff]
  refine exists_congr fun b => and_congr_right fun _ => and_congr_right fun _ => and_congr_right fun _ => ?_
  constructor
  · rintro ⟨p, ⟨mem, e, held, source, key⟩, number⟩
    exact ⟨⟨p, mem, number⟩, e, held, source, key.trans number⟩
  · rintro ⟨⟨p, mem, number⟩, e, held, source, key⟩
    exact ⟨p, ⟨mem, e, held, source, key.trans number.symm⟩, number⟩

theorem takeSignalFrame_broken {sender : Stn} {payload : List Byte} (broken : ¬wholePairs payload = true) (s : State) :
    takeSignalFrame sender payload s = s := if_neg broken

theorem takeSignalFrame_whole {sender : Stn} {payload : List Byte} (fits : wholePairs payload = true) (s : State) :
    takeSignalFrame sender payload s =
      resolve (s.reaches sender (signalPairs payload))
        (s.setStore (s.signal.store.map fun e => e.written sender (lastValue (signalPairs payload) e.signal.val))) := by
  rw [← writePairs_eq, takeSignalFrame, if_pos fits]
  rfl

end Sys2Proof.Machine

namespace Sys2Proof

open Machine

/-- Settles O44: the pairs are written one after the other, and the channels bound to a key they reach are resolved. -/
theorem aSignalFrameIsTaken : Obligations.ASignalFrameIsTaken := by
  intro s sender payload loaded
  have run := next_of_loaded loaded
  refine ⟨validFrame s, run _, ?_⟩
  intro whole written
  have last (sig : Nat) : lastValue (signalPairs payload) sig = written sig := lastValue_signalPairs payload sig
  obtain ⟨l, x, b, heard, -⟩ := validFrame_eq s
  refine ⟨fun broken => (run _).trans (congrArg Host.Outcome.next
    (takeSignalFrame_broken (mt (wholePairs_iff payload).mp broken) _)),
    fun fits => ⟨_, (run _).trans (congrArg Host.Outcome.next
      (takeSignalFrame_whole ((wholePairs_iff payload).mpr fits) _)), ?_⟩⟩
  generalize htest : State.reaches _ sender _ = test
  rw [heard] at htest ⊢
  generalize hu : State.setStore _ _ = u
  have kept := resolve_kept u test
  have blank := resolve_blank test u
  have picks (c : Chan) : test c = true ↔ ∃ b ∈ s.signal.bindings, b.chan = c ∧ b.source = sender ∧
      written b.signal.val ≠ none ∧ ∃ e ∈ s.signal.store, e.source = sender ∧ e.signal = b.signal := by
    rw [← htest, State.reaches_iff]
    simp only [last]
  refine ⟨(signal_of_blank blank).trans ?_, resolve_resolves (by rw [← hu]; rfl) (by rw [← hu]; rfl) picks,
    kept.timer.trans ?_, kept.sense.trans ?_, kept.peers.trans ?_, kept.reservations.trans ?_, kept.budget.trans ?_,
    kept.diag.trans ?_, kept.cuts.trans ?_, kept.modulator.trans ?_, kept.loader.trans ?_, kept.counts.2.2.trans ?_⟩
  all_goals rw [← hu]
  · refine congrArg (fun store => { s.signal with store := store }) (List.map_congr_left fun e _ => ?_)
    rw [last]
    cases written e.signal.val <;> rfl
  all_goals rfl

end Sys2Proof


/-! ### CLEAR and CLEAR ALL -/

namespace Sys2Proof.Machine

variable {s t : State} {c : Chan}

/-- A channel whose record is cleared (R159). -/
abbrev Channel.cleared (x : Channel) : Channel :=
  { x with fault := { x.fault with attempts := 0, persistNoted := false, isNew := false } }

/-- A channel whose record is cleared and whose latch, if it has one, is released (R55, R159). -/
def Channel.freed (x : Channel) (k : ChannelConfig) : Channel :=
  if x.state = .latched then x.cleared.retaken k else x.cleared

theorem clearChannel_latched (latched : (s.ch c).state = .latched) :
    clearChannel c s = retake c (s.setCh c (s.ch c).cleared) := by
  have still : (clearRecord c s).ch c = (s.ch c).cleared := by simp [clearRecord, State.updCh]
  exact if_pos ((congrArg Channel.state still).trans latched)

theorem clearChannel_unlatched (other : (s.ch c).state ≠ .latched) :
    clearChannel c s = s.setCh c (s.ch c).cleared := by
  have still : (clearRecord c s).ch c = (s.ch c).cleared := by simp [clearRecord, State.updCh]
  exact if_neg (still ▸ other)

theorem clearChannel_ch (c d : Chan) (s : State) :
    (clearChannel c s).ch d = if d = c then (s.ch c).freed (s.cfg c) else s.ch d := by
  by_cases latched : (s.ch c).state = .latched
  · rw [clearChannel_latched latched, retake_ch, Channel.freed, if_pos latched]
    by_cases own : d = c
    · simp [own]
    · rw [if_neg own, if_neg own, State.setCh_ch, if_neg own]
  · rw [clearChannel_unlatched latched, Channel.freed, if_neg latched, State.setCh_ch]

theorem clearChannel_queue (c : Chan) (s : State) : (clearChannel c s).sched.queue =
    s.sched.queue ++ if (s.ch c).state = .latched ∧ s.takesDemand c ∧ (s.cfg c).cls ≠ 0 then [c] else [] := by
  by_cases latched : (s.ch c).state = .latched
  · rw [clearChannel_latched latched, retake_queue (by simp [latched]) (by simp [latched])]
    simp [State.takesDemand, latched]
  · rw [clearChannel_unlatched latched]
    simp [latched]

theorem clearChannel_ordinary (c : Chan) (s : State) : (clearChannel c s).sched.ordinary = s.sched.ordinary := by
  by_cases latched : (s.ch c).state = .latched
  · rw [clearChannel_latched latched, retake_ordinary (by simp [latched]) (by simp [latched]), State.setCh_sched]
  · rw [clearChannel_unlatched latched, State.setCh_sched]

theorem clearChannel_kept (c : Chan) (s : State) : s.KeptByParts (clearChannel c s) :=
  (updCh_kept s c _).trans (ite_kept (retake_kept c _))

theorem Channel.freed_fault (x : Channel) (k : ChannelConfig) : (x.freed k).fault = x.cleared.fault := by
  unfold Channel.freed
  split
  · obtain ⟨-, -, -, -, -, -, fault, -⟩ := x.cleared.retaken_from_dark k
    exact fault
  · rfl

theorem Channel.retaken_retryTimer {x : Channel} (latched : x.state = .latched) (k : ChannelConfig) :
    (x.retaken k).retryTimer = x.retryTimer := by
  simp only [Channel.retaken, Channel.wanted]
  split_ifs <;> simp [Channel.enter, Channel.recompute, latched]

/-- A report handed over to a line that holds none fills its slot and is pending, or is lost while MUTED. -/
theorem sendReport_fills (free : s.link.onLine ≠ some .report) (item : Item) (arg : Byte) :
    ∃ slots pending, sendReport item arg s =
        { s with link := { s.link with slots := slots }, diag := { s.diag with reportPending := pending } } ∧
      (s.link.muted = true → pending = s.diag.reportPending) ∧
      (s.link.muted = false → pending = true ∧ slots.report = some (.report item.code arg (s.itemContent item arg))) := by
  rw [sendReport_eq free]
  by_cases muted : s.link.muted = true
  · exact ⟨s.link.slots, s.diag.reportPending, if_pos muted, fun _ => rfl, fun heard => by simp [muted] at heard⟩
  · exact ⟨_, true, if_neg muted, fun held => absurd held muted, fun _ => ⟨rfl, rfl⟩⟩

theorem faultCondition_iff (s : State) : s.faultCondition = true ↔
    (∃ c, (s.ch c).fault.isNew = true) ∨ s.budget.overload = true ∨ s.diag.clashFlag = true := by
  simp [State.faultCondition, State.anyNewFault, mem_allChans]

end Sys2Proof.Machine

namespace Sys2Proof

open Machine

/-- Settles O48: the record is cleared, a latch released, the pin refreshed, and the answer read after that. -/
theorem aClearFreesALatchedChannel : Obligations.AClearFreesALatchedChannel := by
  intro s sender arg c loaded slots report idle number
  obtain ⟨free, diag⟩ := validFrame_report_free slots report idle
  have named : Fin.ofNat 16 arg.toNat = c := Fin.ext (by simp [number])
  have small : arg.toNat ≤ 15 := number ▸ Nat.le_of_lt_succ c.isLt
  have taken : exec (.clear sender s.own arg) s = .next (sendReport .clear arg (clearOne c (validFrame s))) := by
    refine (next_of_loaded loaded _).trans (congrArg Host.Outcome.next ?_)
    rw [receiveQuery_own .clear fun _ => small, takeItem_idle (by rw [diag, idle]), itemAction, named]
  refine ⟨validFrame s, next_of_loaded loaded _, ?_⟩
  generalize validFrame s = u at free diag taken
  intro x cleared wants
  have kept := clearChannel_kept c u
  have channels (d : Chan) := clearChannel_ch c d u
  have unlatched (other : x.state ≠ .latched) : (clearChannel c u).sched = u.sched := by
    rw [clearChannel_unlatched other, State.setCh_sched]
  have queue := clearChannel_queue c u
  have ordinary := clearChannel_ordinary c u
  have link := link_of_blank (clearChannel_blank c u)
  have signal := signal_of_blank (clearChannel_blank c u)
  have cleared : clearOne c u = (clearChannel c u).refreshFault := rfl
  rw [cleared] at taken
  generalize clearChannel c u = w at *
  obtain ⟨filled, pending, sent, lost, held⟩ := sendReport_fills (s := w.refreshFault)
    (by rw [State.refreshFault_link, LinkController.onLine_of_blank link]; exact free) .clear arg
  have muted : w.refreshFault.link.muted = u.link.muted := LinkController.muted_of_blank link
  have own : w.ch c = x.freed (u.cfg c) := (channels c).trans (if_pos rfl)
  have overruns : w.diag.overruns = u.diag.overruns := by rw [kept.diag]
  have clashFlag : w.diag.clashFlag = u.diag.clashFlag := by rw [kept.diag]
  have waiting : w.diag.reportPending = false := by rw [kept.diag, diag, idle]
  have clash : w.link.clash = u.link.clash := (congrArg LinkController.clash link :)
  refine ⟨_, taken, ?_⟩
  rw [sent]
  refine ⟨fun d other => (channels d).trans (if_neg other), fun other => ⟨own.trans (if_neg other), unlatched other⟩,
    fun latched => ?_, faultCondition_iff w, ?_, fun heard => ?_, overruns, clashFlag, clash, kept.timer, kept.sense, signal, kept.peers,
    kept.reservations, kept.budget, kept.cuts, kept.loader⟩
  · obtain ⟨state, -, -, -, level, duty, fault, -⟩ := x.cleared.retaken_from_dark (u.cfg c)
    have retaken : w.ch c = x.cleared.retaken (u.cfg c) := own.trans (if_pos latched)
    have timer := Channel.retaken_retryTimer (x := x.cleared) latched (u.cfg c)
    rw [← retaken] at state level duty fault timer
    exact ⟨state, fault, level, duty, timer, ordinary, queue.trans
      (congrArg _ (if_congr (and_iff_right latched) rfl rfl))⟩
  · cases h : u.link.muted with
    | true => exact (lost (muted.trans h)).trans waiting
    | false => exact (held (muted.trans h)).1
  · exact (held (muted.trans heard)).2.trans (by rw [State.itemContent, named]; rfl)

end Sys2Proof


/-! ### CLEAR ALL, channel by channel -/

namespace Sys2Proof.Machine

variable {s t : State} {c : Chan}

/-- Where CLEAR ALL stands once the first `k` channels are cleared. -/
structure ClearProgress (s : State) (k : Nat) (t : State) : Prop where
  loader : t.loader = s.loader
  channels : ∀ c, t.ch c = if c.val < k then (s.ch c).freed (s.cfg c) else s.ch c
  queue : t.sched.queue = s.sched.queue ++ (allChans.take k).filter fun c =>
    (s.ch c).state = .latched ∧ s.takesDemand c ∧ (s.cfg c).cls ≠ 0
  ordinary : t.sched.ordinary = s.sched.ordinary

theorem ClearProgress.start (s : State) : ClearProgress s 0 s where
  loader := rfl
  channels c := by simp
  queue := by simp
  ordinary := rfl

theorem ClearProgress.next (h : ClearProgress s c.val t) : ClearProgress s (c.val + 1) (clearChannel c t) := by
  have self : t.ch c = s.ch c := by simp [h.channels c]
  have cfg : t.cfg c = s.cfg c := cfg_congr h.loader c
  refine ⟨by simp [h.loader], fun d => ?_, ?_, (clearChannel_ordinary c t).trans h.ordinary⟩
  · rw [clearChannel_ch, h.channels d, self, cfg]
    simp only [Fin.ext_iff]
    split_ifs with same below later earlier
    · rw [Fin.ext same]
    · omega
    · rfl
    · omega
    · omega
    · rfl
  · rw [clearChannel_queue, h.queue, allChans_take_succ, List.filter_append, List.append_assoc, List.filter_singleton,
      Bool.cond_decide]
    simp only [State.takesDemand, self, cfg]

theorem clearChannels_progress (s : State) : ClearProgress s 16 (forChans clearChannel s) :=
  forChans_upTo (ClearProgress.start s) fun _ _ h => h.next

/-- The clash is cleared with the records, and the pin follows (R159, R160). -/
def unclash (s : State) : State :=
  { s with link := { s.link with clash := 0 }, diag := { s.diag with clashFlag := false } }

theorem clearEvery_eq (s : State) : clearEvery s = (unclash (forChans clearChannel s)).refreshFault := by
  unfold clearEvery
  generalize forChans clearChannel s = w
  rfl

theorem faultCondition_of_cleared (none : ∀ c, (s.ch c).fault.isNew = false) (clash : s.diag.clashFlag = false) :
    s.faultCondition = s.budget.overload := by
  simp [State.faultCondition, State.anyNewFault, none, clash]

theorem Channel.freed_from (x : Channel) (k : ChannelConfig) :
    (x.freed k).fault = { x.fault with attempts := 0, persistNoted := false, isNew := false } ∧
    (x.freed k).state = (if x.state = .latched then
      (if k.enabled = true ∧ demandOn k.mode x.demandLevel = true then (if k.cls = 0 then .inrush else .requested) else .off)
      else x.state) ∧
    (x.freed k).demandDuty = x.demandDuty ∧ (x.freed k).retryTimer = x.retryTimer := by
  refine ⟨x.freed_fault k, ?_⟩
  by_cases latched : x.state = .latched
  · obtain ⟨state, -, -, -, -, duty, -, -⟩ := x.cleared.retaken_from_dark k
    rw [Channel.freed, if_pos latched, if_pos latched]
    exact ⟨state, duty, Channel.retaken_retryTimer (x := x.cleared) latched k⟩
  · rw [Channel.freed, if_neg latched, if_neg latched]
    exact ⟨rfl, rfl, rfl⟩

end Sys2Proof.Machine

namespace Sys2Proof

open Machine

/-- Settles O49: the records are cleared and latches released one after the other, then the clash; the pin follows. -/
theorem aClearAllClearsEveryRecord : Obligations.AClearAllClearsEveryRecord := by
  intro s sender arg loaded slots report idle
  obtain ⟨free, diag⟩ := validFrame_report_free slots report idle
  have taken : exec (.clearAll sender s.own arg) s = .next (sendReport .clearAll arg (clearEvery (validFrame s))) := by
    refine (next_of_loaded loaded _).trans (congrArg Host.Outcome.next ?_)
    rw [receiveQuery_own .clearAll nofun, takeItem_idle (by rw [diag, idle]), itemAction]
  refine ⟨validFrame s, next_of_loaded loaded _, ?_⟩
  generalize validFrame s = u at free diag taken
  intro wants
  have progress := clearChannels_progress u
  have kept : u.KeptByParts (forChans clearChannel u) := forChans_kept clearChannel_kept u
  have blank := forChans_blank (f := clearChannel) (s := u) (fun c t => clearChannel_blank c t)
  have link := link_of_blank blank
  have signal := signal_of_blank blank
  rw [clearEvery_eq] at taken
  generalize forChans clearChannel u = w at *
  obtain ⟨filled, pending, sent, lost, held⟩ := sendReport_fills (s := (unclash w).refreshFault)
    (fun line => free (LinkController.onLine_of_blank link ▸ line)) .clearAll arg
  have muted : w.link.muted = u.link.muted := LinkController.muted_of_blank link
  have overruns : w.diag.overruns = u.diag.overruns := by rw [kept.diag]
  have waiting : w.diag.reportPending = false := by rw [kept.diag, diag, idle]
  have freed (c : Chan) : w.ch c = (u.ch c).freed (u.cfg c) := (progress.channels c).trans (if_pos c.isLt)
  have shown : (unclash w).faultCondition = u.budget.overload := by
    have budget : (unclash w).budget = u.budget := kept.budget
    rw [faultCondition_of_cleared (s := unclash w) (fun c => ?_) rfl, budget]
    exact (congrArg (fun x : Channel => x.fault.isNew) (freed c)).trans (by rw [Channel.freed_fault])
  refine ⟨_, taken, ?_⟩
  rw [sent]
  refine ⟨fun c => ?_, ?_, progress.ordinary, rfl, rfl, shown, kept.budget, overruns, ?_, fun heard => ?_, kept.timer,
    kept.sense, signal, kept.peers, kept.reservations, kept.cuts, kept.loader⟩
  · have after := (u.ch c).freed_from (u.cfg c)
    rw [← freed c] at after
    exact after
  · refine progress.queue.trans (congrArg _ ?_)
    rw [List.take_of_length_le (by simp [allChans])]
    exact List.filter_congr fun c _ => by simp [State.takesDemand, and_assoc]
  · cases h : u.link.muted with
    | true => exact (lost (muted.trans h)).trans waiting
    | false => exact (held (muted.trans h)).1
  · exact (held (muted.trans heard)).2

end Sys2Proof


/-! ### Contention: the first bit in which two frames differ -/

namespace Sys2Proof.Machine

/-- Of two numbers the lower has a 0 at the first bit where they differ. -/
theorem natBits_first_difference {width a b : Nat} (less : a < b) (fits : b < 2 ^ width) :
    ∃ i < width, (natBits width a)[i]? = some false ∧ (natBits width b)[i]? = some true ∧
      ∀ j < i, (natBits width a)[j]? = (natBits width b)[j]? := by
  induction width generalizing a b with
  | zero => omega
  | succ width ih =>
    have early (v : Nat) {j : Nat} (h : j < width) : (natBits (width + 1) v)[j]? = (natBits width (v / 2))[j]? :=
      List.getElem?_append_left (by simpa using h)
    have last (v : Nat) : (natBits (width + 1) v)[width]? = some (v % 2 == 1) := by
      rw [natBits, List.getElem?_append_right (by simp)]
      simp
    obtain halves | halves : a / 2 < b / 2 ∨ a / 2 = b / 2 := by omega
    · obtain ⟨i, below, low, high, same⟩ := ih halves (by omega)
      exact ⟨i, by omega, by rw [early a below, low], by rw [early b below, high], fun j earlier => by
        rw [early a (earlier.trans below), early b (earlier.trans below), same j earlier]⟩
    · refine ⟨width, by omega, ?_, ?_, fun j earlier => by rw [early a earlier, early b earlier, halves]⟩
      · rw [last, show a % 2 = 0 by omega]
        rfl
      · rw [last, show b % 2 = 1 by omega]
        rfl

theorem RawFrame.arbitration_lt (f : RawFrame) : f.arbitration < 2 ^ 7 := by
  have kind := f.kind.isLt
  have station := f.station.isLt
  simp only [RawFrame.arbitration]
  omega

theorem RawFrame.bits_zero (f : RawFrame) : f.bits[0]? = some false := rfl

/-- The arbitration field follows the start bit (R170). -/
theorem RawFrame.bits_arbitration (f : RawFrame) {i : Nat} (h : i < 7) :
    f.bits[i + 1]? = (natBits 7 f.arbitration)[i]? := by
  rw [RawFrame.bits, RawFrame.checkedBits, List.append_assoc, List.append_assoc, List.singleton_append,
    List.getElem?_cons_succ, List.append_assoc, List.append_assoc, List.getElem?_append_left (by simpa using h)]

end Sys2Proof.Machine

namespace Sys2Proof

open Machine

/-- Settles O39: the arbitration field orders frames by kind and then station, and its bits compare as it does. -/
theorem theLowerArbitrationFieldWins : Obligations.TheLowerArbitrationFieldWins := by
  intro f g
  have stations := f.station.isLt
  have stationsToo := g.station.isLt
  simp only [Fin.ext_iff, Fin.lt_def]
  refine ⟨?_, fun kinds => ?_, fun kinds less => ?_, fun less => ?_⟩
  · simp only [RawFrame.arbitration]
    omega
  · simp only [RawFrame.arbitration]
    omega
  · simp only [RawFrame.arbitration]
    omega
  · obtain ⟨i, below, low, high, same⟩ := natBits_first_difference less g.arbitration_lt
    refine ⟨i + 1, by omega, by omega, by rw [f.bits_arbitration below, low], by rw [g.bits_arbitration below, high], ?_⟩
    rintro (_ | j) earlier
    · rw [f.bits_zero, g.bits_zero]
    · rw [f.bits_arbitration (by omega), g.bits_arbitration (by omega), same j (by omega)]

end Sys2Proof


/-! ### Payloads, read as they were composed -/

namespace Sys2Proof.Machine

theorem payloadByte_zero (b : Byte) (rest : List Byte) : payloadByte (b :: rest) 0 = b.toNat := rfl

theorem payloadByte_succ (b : Byte) (rest : List Byte) (i : Nat) : payloadByte (b :: rest) (i + 1) = payloadByte rest i := rfl

theorem resTypeOf_code (ty : ResType) : resTypeOf (resTypeCode ty) = ty := by cases ty <;> rfl

theorem resTypeCode_le (ty : ResType) : resTypeCode ty ≤ 1 := by cases ty <;> decide

theorem reserveOf_payload (sender : Stn) (ty : ResType) (cls : Cls) (c : Chan) {amount hold : Nat} (small : amount ≤ 4095)
    (first : 1 ≤ hold) (last : hold ≤ 16) : reserveOf sender (reservePayload ty cls c amount hold) =
      { station := sender, ty := ty, cls := cls, chan := c, amount := amount, hold := hold } := by
  have code := resTypeCode_le ty
  have k := cls.isLt
  have n := c.isLt
  have bytes : payloadByte (reservePayload ty cls c amount hold) 0 = resTypeCode ty * 128 + cls.val * 32 + c.val ∧
      payloadByte (reservePayload ty cls c amount hold) 1 = (hold - 1) * 16 + amount / 256 ∧
      payloadByte (reservePayload ty cls c amount hold) 2 = amount % 256 := by
    simp only [reservePayload, payloadByte_succ, payloadByte_zero, byteOf_toNat]
    exact ⟨by omega, by omega, trivial⟩
  obtain ⟨b0, b1, b2⟩ := bytes
  have type : (resTypeCode ty * 128 + cls.val * 32 + c.val) / 128 = resTypeCode ty := by omega
  simp only [reserveOf, b0, b1, b2, type, resTypeOf_code, Reservation.mk.injEq, Fin.ext_iff, Fin.val_ofNat, true_and]
  omega

theorem releasePayload_byte (ty : ResType) (c : Chan) :
    payloadByte (releasePayload ty c) 0 = resTypeCode ty * 128 + c.val := by
  have code := resTypeCode_le ty
  have n := c.isLt
  simp only [releasePayload, payloadByte_zero, byteOf_toNat]
  omega

theorem releaseTypeOf_payload (ty : ResType) (c : Chan) : releaseTypeOf (releasePayload ty c) = ty := by
  have n := c.isLt
  rw [releaseTypeOf, releasePayload_byte, show (resTypeCode ty * 128 + c.val) / 128 = resTypeCode ty by omega, resTypeOf_code]

theorem statusDrawsOf_payload (st : StatusContent) (small : ∀ k, st.draws.get k ≤ 4095) :
    statusDrawsOf st.payload = st.draws := by
  obtain ⟨d0, d1, d2, d3⟩ : st.draws.d0 ≤ 4095 ∧ st.draws.d1 ≤ 4095 ∧ st.draws.d2 ≤ 4095 ∧ st.draws.d3 ≤ 4095 :=
    ⟨small 0, small 1, small 2, small 3⟩
  generalize hd : st.draws = d at *
  cases d
  simp only [statusDrawsOf, unpackFirst, unpackSecond, StatusContent.payload, packDraws, List.cons_append, List.nil_append,
    payloadByte_succ, payloadByte_zero, byteOf_toNat, hd, Draws.mk.injEq] at d0 d1 d2 d3 ⊢
  omega

theorem statusPayload_flags (st : StatusContent) : payloadByte st.payload 6 = st.flags := by
  simp only [StatusContent.payload, packDraws, List.cons_append, List.nil_append, payloadByte_succ, payloadByte_zero, byteOf_toNat]
  have bound (b : Bool) : b.toNat ≤ 1 := Bool.toNat_le b
  have h := bound st.overload
  have h := bound st.limp
  have h := bound st.isolated
  have h := bound st.settling
  have h := bound st.lowSupply
  simp only [StatusContent.flags]
  omega

theorem statusPayload_lowestNew (st : StatusContent) :
    payloadByte st.payload 7 = st.lowestNew.elim 255 Fin.val := by
  simp only [StatusContent.payload, packDraws, List.cons_append, List.nil_append, payloadByte_succ, payloadByte_zero, byteOf_toNat]
  cases st.lowestNew with
  | none => rfl
  | some c => exact Nat.mod_eq_of_lt (c.isLt.trans (by decide))

theorem signalPairs_publication (d : DinLevels) : signalPairs (publicationPayload d) =
    [(60, levelOf d.din0), (61, levelOf d.din1), (62, levelOf d.din2), (63, levelOf d.din3)] := by
  have level (b : Bool) : levelOf b % 256 = levelOf b := by cases b <;> rfl
  simp [signalPairs, publicationPayload, byteOf_toNat, level]

theorem queryTarget_iff (b0 : Byte) (own : Stn) : queryTarget b0 = own ↔ b0.toNat / 16 = own.val := by
  have byte := b0.isLt
  rw [queryTarget, Fin.ext_iff, Fin.val_ofNat, Nat.mod_eq_of_lt (by omega)]

/-- The items of a QUERY that name a channel or a peer in their argument (R155). -/
theorem Item.named_iff (item : Item) : item.named = true ↔ item.code = 1 ∨ item.code = 2 ∨ item.code = 4 ∨ item.code = 6 := by
  cases item <;> decide

theorem exists_item {n : Nat} (h : n < 7) : ∃ item : Item, n = item.code := by
  interval_cases n
  exacts [⟨.summary, rfl⟩, ⟨.channel, rfl⟩, ⟨.peer, rfl⟩, ⟨.link, rfl⟩, ⟨.clear, rfl⟩, ⟨.clearAll, rfl⟩, ⟨.record, rfl⟩]

/-- The command of an item's QUERY for the station. -/
def Item.command (item : Item) (sender own : Stn) (arg : Byte) : Instr :=
  match item with
  | .summary => .summary sender own arg
  | .channel => .channel sender own arg
  | .peer => .peer sender own arg
  | .link => .link sender own arg
  | .clear => .clear sender own arg
  | .clearAll => .clearAll sender own arg
  | .record => .record sender own arg

/-- A QUERY is ignored that is for another station, of no item, or of a named item with an argument above 15 (R155). -/
def queryIgnores (own : Stn) (b0 b1 : Byte) : Prop :=
  b0.toNat / 16 ≠ own.val ∨ 7 ≤ b0.toNat % 16 ∨
    (b0.toNat % 16 = 1 ∨ b0.toNat % 16 = 2 ∨ b0.toNat % 16 = 4 ∨ b0.toNat % 16 = 6) ∧ 16 ≤ b1.toNat

theorem queryCommand_ignored {own : Stn} {b0 b1 : Byte} (ignored : queryIgnores own b0 b1) (sender : Stn) :
    queryCommand own sender b0 b1 = .queryIgnored sender b0 b1 := by
  by_cases large : 7 ≤ b0.toNat % 16
  · rw [queryCommand, queryItem, itemOf_of_large large]
  · obtain ⟨item, code⟩ := exists_item (Nat.not_le.mp large)
    rw [queryIgnores, code, ← Item.named_iff] at ignored
    rw [queryCommand, queryItem, code, itemOf_code]
    refine if_pos ?_
    obtain other | none | ⟨named, high⟩ := ignored
    · simp [mt (queryTarget_iff b0 own).mp other]
    · exact absurd (code ▸ none) large
    · simp [named, high]

theorem queryCommand_item {own : Stn} {b0 b1 : Byte} (taken : ¬queryIgnores own b0 b1) (sender : Stn) {item : Item}
    (code : b0.toNat % 16 = item.code) : queryCommand own sender b0 b1 = item.command sender own b1 := by
  rw [queryIgnores, code, ← Item.named_iff, not_or, not_or, not_and, not_not] at taken
  obtain ⟨target, -, small⟩ := taken
  have own' : queryTarget b0 = own := (queryTarget_iff b0 own).mpr target
  have here : ¬(decide (queryTarget b0 ≠ own) || (item.named && decide (16 ≤ b1.toNat))) = true := by
    simpa [own'] using small
  rw [queryCommand, queryItem, code, itemOf_code]
  simp only
  rw [if_neg (by simpa using here), own']
  cases item <;> rfl

end Sys2Proof.Machine

namespace Sys2Proof

open Machine

/-- Settles O40: each payload byte by byte, and each kind code as the command it comes as. -/
theorem payloadsReadAsTheyWereComposed : Obligations.PayloadsReadAsTheyWereComposed := by
  intro sender ty cls c amount hold number st d small first last byte draws bit
  have hbit : bit = Bool.toNat := funext bit_eq
  refine ⟨reserveOf_payload sender ty cls c small first last, rfl, releaseTypeOf_payload ty c, rfl, ?_,
    statusDrawsOf_payload st draws, rfl, ?_, ?_, signalPairs_publication d, ?_, rfl, ?_, ?_, ?_⟩
  · have n := c.isLt
    have byte := releasePayload_byte ty c
    rw [Frame.payload, byte]
    omega
  · rw [hbit]
    exact statusPayload_flags st
  · refine (statusPayload_lowestNew st).trans ?_
    cases st.lowestNew <;> rfl
  · exact (byteOf_toNat number).trans (Nat.mod_eq_of_lt (by omega))
  · intro item arg content fits
    rw [Frame.payload, Nat.mod_eq_of_lt (by omega)]
    rfl
  · intro f
    cases f <;> exact ⟨rfl, rfl, rfl⟩
  · intro own f inp ord i p fits
    have received : i = receivedCommand own f inp ord := rfl
    refine ⟨fun kind => ?_, fun kind => ?_, fun kind => ?_, fun kind => ?_, fun kind => ?_, fun kind misfit => ?_,
      fun kind b0 b1 pair => ?_, fun kind => ?_, fun kind => ?_⟩
    all_goals rw [receivedCommand, kind] at received
    any_goals exact received
    · exact received.trans (if_neg misfit)
    · have query : i = queryCommand own f.station b0 b1 := by
        rw [received]
        refine (if_pos (congrArg List.length pair)).trans ?_
        rw [show f.payload = [b0, b1] from pair]
        rfl
      rw [query]
      intro item ignored
      refine ⟨fun bad => queryCommand_ignored bad _, fun taken => ?_⟩
      have asked (x : Item) (code : item = x.code) := queryCommand_item taken f.station code
      exact ⟨asked .summary, asked .channel, asked .peer, asked .link, asked .clear, asked .clearAll, asked .record⟩

end Sys2Proof


/-! ### Selection -/

namespace Sys2Proof.Machine

variable {s : State} {c : Chan}

theorem State.rotates_iff (s : State) : s.rotates = true ↔
    1 ≤ s.params.rotationN ∧ s.sched.rotation = s.params.rotationN ∧ ∃ c ∈ s.sched.queue, 2 ≤ (s.cfg c).cls.val := by
  simp [State.rotates, State.lowerWaits, Nat.one_le_iff_ne_zero, Nat.pos_iff_ne_zero]

theorem State.maySelect_iff (s : State) : s.maySelect = true ↔
    s.sched.ordinary = none ∧ s.sched.deferral = 0 ∧ s.sched.listen = 0 ∧ s.budget.settle = 0 := by
  simp [State.maySelect]

/-- The first that passes stands behind ones that do not. -/
theorem find?_splits {α : Type} {l : List α} {p : α → Bool} {a : α} (found : l.find? p = some a) :
    p a = true ∧ ∃ before after, l = before ++ a :: after ∧ ∀ d ∈ before, p d = false := by
  obtain ⟨passes, before, after, split, none⟩ := List.find?_eq_some_iff_append.mp found
  exact ⟨passes, before, after, split, fun d mem => by simpa using none d mem⟩

/-- Where nothing rotates the choice is the earliest channel of the lowest class that waits (R140). -/
theorem ordinaryChoice_lowest (own : ∀ d ∈ s.sched.queue, (s.cfg d).cls ≠ 0) (waits : s.sched.queue ≠ []) :
    ∃ before c after, s.ordinaryChoice = some c ∧ s.sched.queue = before ++ c :: after ∧
      (∀ d ∈ before, (s.cfg c).cls.val < (s.cfg d).cls.val) ∧ ∀ d ∈ after, (s.cfg c).cls.val ≤ (s.cfg d).cls.val := by
  have least (d : Chan) (mem : d ∈ s.sched.queue) : 1 ≤ (s.cfg d).cls.val := by
    have zero : (s.cfg d).cls.val ≠ 0 := Fin.val_ne_of_ne (own d mem)
    omega
  unfold State.ordinaryChoice
  cases first : s.firstWaiting fun c => (s.cfg c).cls = 1 with
  | some c =>
    obtain ⟨one, before, after, split, others⟩ := find?_splits first
    have cls : (s.cfg c).cls.val = 1 := congrArg Fin.val (of_decide_eq_true one)
    refine ⟨before, c, after, rfl, split, fun d mem => ?_, fun d mem => ?_⟩
    · have other : (s.cfg d).cls.val ≠ 1 := Fin.val_ne_of_ne (of_decide_eq_false (others d mem))
      have := least d (by simp [split, mem])
      rw [cls]
      omega
    · rw [cls]
      exact least d (by simp [split, mem])
  | none =>
    have noOne (d : Chan) (mem : d ∈ s.sched.queue) : (s.cfg d).cls.val ≠ 1 :=
      Fin.val_ne_of_ne (by simpa using List.find?_eq_none.mp first d mem)
    cases second : s.firstWaiting fun c => (s.cfg c).cls = 2 with
    | some c =>
      obtain ⟨two, before, after, split, others⟩ := find?_splits second
      have cls : (s.cfg c).cls.val = 2 := congrArg Fin.val (of_decide_eq_true two)
      have above (d : Chan) (mem : d ∈ s.sched.queue) : 2 ≤ (s.cfg d).cls.val := by
        have := least d mem
        have := noOne d mem
        omega
      refine ⟨before, c, after, rfl, split, fun d mem => ?_, fun d mem => ?_⟩
      · have other : (s.cfg d).cls.val ≠ 2 := Fin.val_ne_of_ne (of_decide_eq_false (others d mem))
        have := above d (by simp [split, mem])
        rw [cls]
        omega
      · rw [cls]
        exact above d (by simp [split, mem])
    | none =>
      obtain ⟨c, rest, queue⟩ := List.exists_cons_of_ne_nil waits
      have three (d : Chan) (mem : d ∈ s.sched.queue) : (s.cfg d).cls.val = 3 := by
        have noTwo : (s.cfg d).cls.val ≠ 2 := Fin.val_ne_of_ne (by simpa using List.find?_eq_none.mp second d mem)
        have := least d mem
        have := noOne d mem
        omega
      refine ⟨[], c, rest, by simp [State.firstWaiting, queue], queue, nofun, fun d mem => ?_⟩
      rw [three c (by simp [queue]), three d (by simp [queue, mem])]

theorem rotatedChoice_first (rotates : s.rotates = true) : ∃ before c after, s.choice = some c ∧
    s.sched.queue = before ++ c :: after ∧ 2 ≤ (s.cfg c).cls.val ∧ ∀ d ∈ before, (s.cfg d).cls.val < 2 := by
  have chosen : s.choice = s.sched.queue.find? fun c => 2 ≤ (s.cfg c).cls.val := if_pos rotates
  obtain ⟨-, -, lower⟩ := s.rotates_iff.mp rotates
  rw [chosen]
  cases found : s.sched.queue.find? fun c => 2 ≤ (s.cfg c).cls.val with
  | none =>
    obtain ⟨c, mem, cls⟩ := lower
    exact absurd (by simpa using cls) (List.find?_eq_none.mp found c mem)
  | some c =>
    obtain ⟨low, before, after, split, others⟩ := find?_splits found
    exact ⟨before, c, after, rfl, split, of_decide_eq_true low, fun d mem => Nat.not_le.mp (of_decide_eq_false (others d mem))⟩

/-- A selection claims its choice, by an ORDINARY RESERVE unless the station is alone (R141, R142). -/
theorem select_of_choice (may : s.maySelect = true) (chosen : s.choice = some c) :
    select s = { s with
      sched := { s.sched with
        rotation := if s.rotates = true then 0 else s.sched.rotation
        ordinary := some (s.claimOf c) }
      link := if s.alone = true then s.link
        else s.link.handOver (.reserve .ordinary (s.cfg c).cls c (s.cfg c).amount ((s.cfg c).window + 1)) } := by
  rw [select, if_pos may, chosen]
  by_cases rotates : s.rotates = true <;> by_cases alone : s.alone = true <;>
    simp [rotates, alone, State.claimOf, State.setRotation, State.setClaim, State.handOver, State.setSched, State.setLink]

theorem select_of_not (may : ¬s.maySelect = true) : select s = s := if_neg may

theorem select_of_empty (empty : s.sched.queue = []) : select s = s := by
  have nothing : s.choice = none := by
    simp [State.choice, State.ordinaryChoice, State.firstWaiting, empty]
  rw [select, nothing]
  exact ite_self _

end Sys2Proof.Machine

namespace Sys2Proof

open Machine

/-- Settles O21: a selection is made where the counts are 0 and a channel waits, and claims the choice of R140. -/
theorem aSelectionClaimsTheLowestClass : Obligations.ASelectionClaimsTheLowestClass := by
  intro s t ruled ht may rotates
  obtain ⟨⟨zeroFree, -⟩, ⟨-, queued⟩, -, -⟩ := ruled
  have own (d : Chan) (mem : d ∈ s.sched.queue) : (s.cfg d).cls ≠ 0 := fun zero =>
    (zeroFree d zero).1 ((queued d).mp mem)
  have calls : s.rotates = true ↔ rotates := s.rotates_iff
  subst ht
  refine ⟨fun no => ?_, fun ⟨claim, deferral, listen, settle, waits⟩ => ?_⟩
  · by_cases selects : s.maySelect = true
    · obtain ⟨claim, deferral, listen, settle⟩ := s.maySelect_iff.mp selects
      exact select_of_empty (not_not.mp fun waits => no ⟨claim, deferral, listen, settle, waits⟩)
    · exact select_of_not selects
  · have selects := s.maySelect_iff.mpr ⟨claim, deferral, listen, settle⟩
    by_cases rotate : s.rotates = true
    · obtain ⟨before, c, after, chosen, split, low, others⟩ := rotatedChoice_first rotate
      refine ⟨before, c, after, split, fun _ => ⟨low, others⟩, fun no => absurd (calls.mp rotate) no, ?_⟩
      rw [select_of_choice selects chosen, if_pos rotate]
      exact ⟨fun _ => rfl, fun no => absurd (calls.mp rotate) no, rfl⟩
    · obtain ⟨before, c, after, chosen, split, below, rest⟩ := ordinaryChoice_lowest own waits
      refine ⟨before, c, after, split, fun yes => absurd (calls.mpr yes) rotate, fun _ => ⟨below, rest⟩, ?_⟩
      rw [select_of_choice selects ((if_neg rotate).trans chosen), if_neg rotate]
      exact ⟨fun yes => absurd (calls.mpr yes) rotate, fun _ => rfl, rfl⟩

end Sys2Proof


/-! ### The admission decision -/

namespace Sys2Proof.Machine

variable {s t : State} {c : Chan}

theorem State.alone_iff (s : State) :
    s.alone = true ↔ s.link.muted = true ∨ s.link.isolated = true ∨ s.loader.runMode = .limp := by
  simp [State.alone, LinkController.aloneByLink, or_assoc]

theorem isOf_iff (r : Reservation) (station : Stn) (ty : ResType) : r.isOf station ty = true ↔ r.station = station ∧ r.ty = ty := by
  simp [Reservation.isOf]

/-- The entries ahead of the first that passes are those before it. -/
theorem takeWhile_split {α : Type} {p : α → Bool} {before after : List α} {a : α} (none : ∀ d ∈ before, p d = false)
    (passes : p a = true) : (before ++ a :: after).takeWhile (fun d => !p d) = before := by
  rw [List.takeWhile_append_of_pos (by simpa using none), List.takeWhile_cons_of_neg (by simp [passes]), List.append_nil]

theorem State.amountAhead_of_split (s : State) {ahead behind : List Reservation} {r : Reservation}
    (split : s.standingEntries = ahead ++ r :: behind) (others : ∀ q ∈ ahead, q.isOf s.own .ordinary = false)
    (own : r.isOf s.own .ordinary = true) : s.amountAhead = (ahead.map Reservation.amount).sum := by
  rw [State.amountAhead, split, takeWhile_split others own]

/-- The test of the link: the own entry and all that stand ahead of it fit under the limit (R144). -/
theorem State.linkTest_iff (s : State) : s.linkTest = true ↔
    s.budget.carried.zone.excess = 0 ∧ s.budget.carried.settle = 0 ∧ ∃ ahead r behind,
      (s.reservations.filter fun q => q.hold ≠ 0) = ahead ++ r :: behind ∧
      (∀ q ∈ ahead, ¬(q.station = s.own ∧ q.ty = .ordinary)) ∧ r.station = s.own ∧ r.ty = .ordinary ∧
      s.budget.carried.zone.steady + (ahead.map Reservation.amount).sum + r.amount ≤ s.budget.carried.zone.limit := by
  have entries : s.standingEntries = s.reservations.filter fun q => q.hold ≠ 0 := rfl
  rw [← entries]
  unfold State.linkTest
  extract_lets e
  cases found : s.entryOf s.own .ordinary with
  | none =>
    refine ⟨nofun, fun ⟨_, _, ahead, r, behind, split, _, station, ty, _⟩ => ?_⟩
    have other := List.find?_eq_none.mp found r (by simp [split])
    exact absurd ((isOf_iff r s.own .ordinary).mpr ⟨station, ty⟩) other
  | some r =>
    obtain ⟨own, ahead, behind, split, others⟩ := find?_splits found
    simp only [Bool.and_eq_true, decide_eq_true_eq]
    refine and_congr_right fun _ => and_congr_right fun _ => ⟨fun fits => ?_, ?_⟩
    · rw [s.amountAhead_of_split split others own] at fits
      obtain ⟨station, ty⟩ := (isOf_iff r s.own .ordinary).mp own
      exact ⟨ahead, r, behind, split, fun q mem of =>
        Bool.eq_false_iff.mp (others q mem) ((isOf_iff q s.own .ordinary).mpr of), station, ty, fits⟩
    · rintro ⟨ahead', r', behind', split', others', station, ty, fits⟩
      have apart (q : Reservation) (mem : q ∈ ahead') : q.isOf s.own .ordinary = false :=
        Bool.eq_false_iff.mpr (mt (isOf_iff q s.own .ordinary).mp (others' q mem))
      have own' := (isOf_iff r' s.own .ordinary).mpr ⟨station, ty⟩
      have same : s.entryOf s.own .ordinary = some r' :=
        List.find?_eq_some_iff_append.mpr ⟨own', ahead', behind', split', by simpa using apart⟩
      obtain rfl : r = r' := Option.some.inj (found.symm.trans same)
      rwa [s.amountAhead_of_split split' apart own']

theorem State.aloneTest_iff (s : State) (amount : Nat) : s.aloneTest amount = true ↔
    s.budget.carried.alone.excess = 0 ∧ s.budget.carried.settle = 0 ∧
      s.budget.carried.alone.steady + amount ≤ s.budget.carried.alone.limit := by
  simp [State.aloneTest]

/-- The claim is admitted where it passes the test in force (R144). -/
theorem State.admits_iff (s : State) (x : Claim) : s.admits x = true ↔ s.ClaimPasses x := by
  unfold State.admits State.ClaimPasses
  simp only [← s.alone_iff]
  by_cases alone : s.alone = true
  · rw [if_pos alone, if_pos alone, State.aloneTest_iff]
  · rw [if_neg alone, if_neg alone, Bool.and_eq_true, State.linkTest_iff]

theorem rotationAfter_eq (rotation n : Nat) (cls : Cls) (lowerWaits : Bool) :
    rotationAfter rotation n cls lowerWaits = if cls = 1 ∧ lowerWaits = true then min (rotation + 1) n else 0 := by
  simp [rotationAfter]

/-- The state as a claim is HELD and its grant not yet arrived (R145). -/
theorem holdClaim_eq (x : Claim) (s : State) : holdClaim x s = { s with
    sched := { s.sched with
      queue := s.sched.queue.filter fun c => c ≠ x.chan
      ordinary := some { x with phase := .held }
      rotation := (holdClaim x s).sched.rotation } } := rfl

theorem holdClaim_rotation (x : Claim) (s : State) : (holdClaim x s).sched.rotation =
    if x.cls = 1 ∧ ∃ c ∈ s.sched.queue, c ≠ x.chan ∧ 2 ≤ (s.cfg c).cls.val then
      min (s.sched.rotation + 1) s.params.rotationN
    else 0 := by
  refine (rotationAfter_eq _ _ _ _).trans (if_congr (and_congr_right fun _ => ?_) rfl rfl)
  simp [State.lowerWaits]

/-- A grant that finds its channel in REQUESTED puts it into INRUSH, and the Scheduler hears of nothing (R13, R145). -/
theorem enter_inrush_of_requested (waits : (s.ch c).state = .requested) (other : (s.cfg c).cls ≠ 0) :
    enter c .inrush .none s = s.setCh c { s.ch c with
      state := .inrush, cap := 255, shedReason := .none, inrushRemaining := (s.cfg c).window
      effectiveDuty := (s.ch c).demandDuty, shadowDuty := (s.ch c).demandDuty, overCount := 0
      runningMarker := true, lastSample := none } := by
  have entered : (s.ch c).enter .inrush .none (s.cfg c).window = { s.ch c with
      state := .inrush, cap := 255, shedReason := .none, inrushRemaining := (s.cfg c).window
      effectiveDuty := (s.ch c).demandDuty, shadowDuty := (s.ch c).demandDuty, overCount := 0
      runningMarker := true, lastSample := none } := by
    simp [Channel.enter, Channel.recompute, effectiveDutyOf, ChState.immediateOff, waits]
  rw [enter, entered]
  simp [notices, waits, other]

/-- A fall of demand takes a waiting channel out of the queue (R8). -/
theorem deliver_of_requested_falls {level : Nat} (waits : (s.ch c).state = .requested)
    (wants : demandOn (s.cfg c).mode (s.ch c).demandLevel = true) (falls : demandOn (s.cfg c).mode level = false) :
    deliver c level s = leftQueue c (s.setCh c ((s.ch c).delivered (s.cfg c) level)) := by
  have is : s.wants c = true := wants
  have delivered : (s.ch c).delivered (s.cfg c) level =
      ({ s.ch c with demandLevel := level, demandDuty := demandDutyOf (s.cfg c).mode level }.resetAttempts).enter
        .off .none (s.cfg c).window := by
    simp [Channel.delivered, waits, wants, falls]
  rw [delivered]
  simp [deliver, is, falls, waits, State.updCh, State.setCh_setCh, enter, notices, Channel.resetAttempts]

theorem Channel.delivered_of_requested_falls {x : Channel} {k : ChannelConfig} {level : Nat} (waits : x.state = .requested)
    (wants : demandOn k.mode x.demandLevel = true) (falls : demandOn k.mode level = false) :
    (x.delivered k level).state = .off ∧ (x.delivered k level).runningMarker = x.runningMarker := by
  simp [Channel.delivered, waits, wants, falls, Channel.enter, Channel.recompute, Channel.resetAttempts]

/-- A HELD claim whose channel leaves the queue ends, released where it was made by frame (R143). -/
theorem leftQueue_of_held {x : Claim} (claim : s.sched.ordinary = some x) (own : x.chan = c) (held : x.phase = .held) :
    leftQueue c s = { s with
      sched := { s.sched with queue := s.sched.queue.filter fun d => d ≠ c, ordinary := none }
      link := if x.byFrame = true then s.link.handOver (.release .ordinary c) else s.link } := by
  subst own
  unfold leftQueue
  extract_lets s1
  have still : s1.sched.ordinary = some x := claim
  rw [still]
  simp only [if_true, held, releaseClaim]
  split <;> rfl

theorem refuse_eq (x : Claim) (s : State) : refuse x s = { s with
    sched := { s.sched with ordinary := none, deferral := 2 + s.own.val % 4 }
    link := if x.byFrame = true then s.link.handOver (.release .ordinary x.chan) else s.link } := by
  cases frame : x.byFrame <;> simp [refuse, releaseClaim, frame, deferralOf] <;> rfl

theorem decideAdmissionAmid_pass {x : Claim} (claim : s.sched.ordinary = some x) (settling : x.phase = .settling)
    (passes : s.ClaimPasses x) (between : List (State → State)) :
    decideAdmissionAmid between s = grantAfter x.chan between (holdClaim x s) := by
  rw [decideAdmissionAmid, claim]
  simp only [settling, if_true, (s.admits_iff x).mpr passes]
  rfl

theorem decideAdmissionAmid_fail {x : Claim} (claim : s.sched.ordinary = some x) (settling : x.phase = .settling)
    (fails : ¬s.ClaimPasses x) (between : List (State → State)) :
    decideAdmissionAmid between s = between.foldl (fun s event => event s) (refuse x s) := by
  rw [decideAdmissionAmid, claim]
  simp only [settling, if_true, mt (s.admits_iff x).mp fails]
  rfl

end Sys2Proof.Machine

namespace Sys2Proof

open Machine

/-- Settles O20: what passes is held and then granted, whatever comes between; what fails is refused. -/
theorem admissionNeedsRoomInTheFeed : Obligations.AdmissionNeedsRoomInTheFeed := by
  intro s t x ruled claim settling ht e alone passes lowerWaits y
  obtain ⟨⟨-, notZero⟩, -, claims, -⟩ := ruled
  have waits : (s.ch x.chan).state = .requested := by
    have := claims x claim
    rwa [if_neg (by simp [settling])] at this
  have other : (s.cfg x.chan).cls ≠ 0 := notZero x claim
  have granted {u : State} (state : (u.ch x.chan).state = .requested) :
      grantAfter x.chan [] u = enter x.chan .inrush .none u := if_pos state
  refine ⟨fun pass => ?_, fun fail => ?_⟩
  · have decided := decideAdmissionAmid_pass claim settling (show s.ClaimPasses x from pass)
    have entered : t = (holdClaim x s).setCh x.chan { y with
        state := .inrush, cap := 255, shedReason := .none, inrushRemaining := (s.cfg x.chan).window
        effectiveDuty := y.demandDuty, shadowDuty := y.demandDuty, overCount := 0
        runningMarker := true, lastSample := none } := by
      rw [ht, decideAdmission, decided [], granted (by exact waits), enter_inrush_of_requested (s := holdClaim x s) waits other]
      rfl
    have rotation : t.sched.rotation = (holdClaim x s).sched.rotation := by rw [entered]; rfl
    refine ⟨?_, ?_, ?_, ?_, ?_, ?_⟩
    · rw [entered, State.setCh_ch, if_pos rfl]
    · intro c apart
      rw [entered, State.setCh_ch, if_neg apart]
      rfl
    · rw [entered]
      rfl
    · intro lower
      rw [rotation, holdClaim_rotation, if_pos lower]
    · intro lower
      rw [rotation, holdClaim_rotation, if_neg lower]
    · intro held
      have isHeld : holdClaim x s = held := by rw [holdClaim_eq, ← rotation]
      rw [isHeld] at decided
      refine ⟨fun event => ⟨fun left => ?_, fun stays => ?_⟩, fun level wants falls => ?_⟩
      · exact (decided [event]).trans (grantAfter_left left)
      · have comes := (decided [event]).trans (grantAfter_waits stays)
        exact ⟨by rw [comes, enter_state, if_pos rfl], fun c apart => by rw [comes, enter_ch, if_neg apart]⟩
      · have delivered : deliver x.chan level held = leftQueue x.chan (held.setCh x.chan (y.delivered (s.cfg x.chan) level)) :=
          deliver_of_requested_falls (s := held) waits wants falls
        have channels (c : Chan) : (deliver x.chan level held).ch c =
            if c = x.chan then y.delivered (s.cfg x.chan) level else s.ch c := deliver_ch ..
        obtain ⟨off, marker⟩ := Channel.delivered_of_requested_falls (x := y) waits wants falls
        have own := (channels x.chan).trans (if_pos rfl)
        have comes := (decided [deliver x.chan level]).trans (grantAfter_left (by rw [own, off]; decide))
        intro v
        have hv : v = deliver x.chan level held := comes
        rw [hv, own]
        refine ⟨Channel.delivered_follows _ _ _, off, marker, fun c apart => (channels c).trans (if_neg apart), ?_⟩
        have gone : (held.setCh x.chan (y.delivered (s.cfg x.chan) level)).sched.queue.filter (fun d => d ≠ x.chan) =
            held.sched.queue := by
          simp [held, List.filter_filter]
        rw [delivered, leftQueue_of_held (x := { x with phase := .held }) rfl rfl rfl, gone]
        rfl
  · have decided := decideAdmissionAmid_fail claim settling (show ¬s.ClaimPasses x from fail)
    have refused : t = refuse x s := by rw [ht, decideAdmission, decided []]; rfl
    refine ⟨fun event => by rw [decided [event], refused]; rfl, ?_⟩
    rw [refused, refuse_eq]

end Sys2Proof


/-! ### The read of the image: what the port carries and what the checks say -/

namespace Sys2Proof.Machine

theorem imageByte_readBytes (memory : List Byte) {n i : Nat} (h : i < n) :
    imageByte (readBytes memory n) i = (memoryByte memory i).toNat := by
  simp [imageByte, readBytes, List.getD_eq_getElem?_getD, h]

theorem readBytes_length (memory : List Byte) (n : Nat) : (readBytes memory n).length = n := by simp [readBytes]

/-- The header that passes the first two checks (R163, R164). -/
def headerOk (m : Nat → Nat) : Prop := m 0 = 1 ∧ m 3 ≤ 48 ∧ m 1 * 256 + m 2 = 222 + 6 * m 3

theorem formatOk_and_lengthOk_iff {image : List Byte} {m : Nat → Nat} (bytes : ∀ i < 4, imageByte image i = m i) :
    formatOk image = true ∧ lengthOk image = true ↔ headerOk m := by
  simp only [formatOk, lengthOk, imageWord, imageLength, headerOk, Bool.and_eq_true, decide_eq_true_eq, bytes 0 (by decide),
    bytes 1 (by decide), bytes 2 (by decide), bytes 3 (by decide), Nat.reduceAdd]
  omega

section
variable {memory : List Byte} {m : Nat → Nat} (read : ∀ i, m i = (memory.getD i 255).toNat)
include read

theorem readBytes_bytes {n i : Nat} (h : i < n) : imageByte (readBytes memory n) i = m i :=
  (imageByte_readBytes memory h).trans (read i).symm

theorem readImage_of_header (header : headerOk m) : readImage memory = readBytes memory (222 + 6 * m 3) := by
  have word : imageWord (readBytes memory 4) 1 = 222 + 6 * m 3 := by
    rw [imageWord, readBytes_bytes read (by decide), readBytes_bytes read (by decide)]
    exact header.2.2
  have checks := (formatOk_and_lengthOk_iff fun i h => readBytes_bytes read h).mpr header
  rw [readImage]
  simp [checks, word]

theorem readImage_of_no_header (header : ¬headerOk m) : readImage memory = readBytes memory 4 := by
  have checks := mt (formatOk_and_lengthOk_iff fun i h => readBytes_bytes (n := 4) read h).mp header
  exact if_neg (by simpa using checks)

theorem readImage_byte {i : Nat} (h : i < (readImage memory).length) : imageByte (readImage memory) i = m i := by
  by_cases header : headerOk m
  · rw [readImage_of_header read header, readBytes_length] at *
    exact readBytes_bytes read h
  · rw [readImage_of_no_header read header, readBytes_length] at *
    exact readBytes_bytes read h

theorem readImage_length_ge : 4 ≤ (readImage memory).length := by
  by_cases header : headerOk m
  · rw [readImage_of_header read header, readBytes_length]
    omega
  · rw [readImage_of_no_header read header, readBytes_length]

/-- The sum over the bytes before the check (R164). -/
theorem imageSum_readImage (header : headerOk m) :
    imageSum (readImage memory) = ((List.range (220 + 6 * m 3)).map m).sum % 65536 := by
  have third : imageByte (readImage memory) 3 = m 3 := readImage_byte read (Nat.lt_of_lt_of_le (by decide) (readImage_length_ge read))
  have bytes : (memoryByte memory · |>.toNat) = m := funext fun i => (read i).symm
  rw [imageSum, third, readImage_of_header read header, readBytes, ← List.map_take, List.take_range, List.map_map,
    Nat.min_eq_left (by omega)]
  exact congrArg (fun f => ((List.range (220 + 6 * m 3)).map f).sum % 65536) bytes

theorem imageAccepted_readImage_iff : imageAccepted (readImage memory) = true ↔
    headerOk m ∧ ((List.range (220 + 6 * m 3)).map m).sum % 65536 = m (220 + 6 * m 3) * 256 + m (221 + 6 * m 3) := by
  have checks := formatOk_and_lengthOk_iff (image := readImage memory) (m := m)
    fun i h => readImage_byte read (h.trans_le (readImage_length_ge read))
  rw [imageAccepted, Bool.and_eq_true, Bool.and_eq_true, ← and_assoc, checks]
  refine and_congr_right fun header => ?_
  have length : (readImage memory).length = 222 + 6 * m 3 := by rw [readImage_of_header read header, readBytes_length]
  rw [sumOk, decide_eq_true_eq, imageSum_readImage read header, imageWord, readImage_byte read (i := 3) (by omega),
    readImage_byte read (by omega), readImage_byte read (by omega)]
  rw [show 220 + 6 * m 3 + 1 = 221 + 6 * m 3 by omega]

end

/-- The bits of a payload, most significant first byte by byte. -/
theorem payloadBits_getElem? {payload : List Byte} {i : Nat} (h : i < 8 * payload.length) :
    (payloadBits payload)[i]? = some (decide ((payload.getD (i / 8) 0).toNat / 2 ^ (7 - i % 8) % 2 = 1)) := by
  induction payload generalizing i with
  | nil => simp at h
  | cons b rest ih =>
    rw [payloadBits_cons]
    by_cases first : i < 8
    · have bit := natBits_getD (width := 8) (v := b.toNat) first
      rw [List.getElem?_append_left (by simpa using first), Nat.div_eq_of_lt first, Nat.mod_eq_of_lt first]
      rw [List.getD_eq_getElem?_getD, List.getElem?_eq_getElem (by simpa using first)] at bit
      rw [List.getElem?_eq_getElem (by simpa using first)]
      exact congrArg some bit
    · obtain ⟨j, rfl⟩ := Nat.exists_eq_add_of_le (Nat.not_lt.mp first)
      rw [List.getElem?_append_right (by simp), natBits_length, Nat.add_sub_cancel_left, ih (by simp at h; omega),
        show (8 + j) / 8 = j / 8 + 1 by omega, show (8 + j) % 8 = j % 8 by omega]
      rfl

theorem levels_getElem? (cycles : List PortCycle) {i : Nat} (h : i < cycles.length) (high : Bool) :
    (cycles.flatMap PortCycle.levels)[2 * i + high.toNat]? =
      (cycles[i]?).map fun x => { selHigh := false, clkHigh := high, out := x.out } := by
  induction cycles generalizing i with
  | nil => simp at h
  | cons x rest ih =>
    rw [List.flatMap_cons]
    cases i with
    | zero => cases high <;> rfl
    | succ i =>
      rw [show 2 * (i + 1) + high.toNat = 2 + (2 * i + high.toNat) by omega,
        List.getElem?_append_right (by simp [PortCycle.levels]), List.getElem?_cons_succ, ← ih (by simpa using h)]
      congr 1
      simp [PortCycle.levels]

theorem levels_length (cycles : List PortCycle) : (cycles.flatMap PortCycle.levels).length = 2 * cycles.length := by
  induction cycles with
  | nil => rfl
  | cons x rest ih =>
    rw [List.flatMap_cons, List.length_append, ih]
    simp [PortCycle.levels]
    omega

theorem portCycles_length (buffer : List Byte) : (portCycles buffer).length = 8 * (3 + buffer.length) := by
  simp [portCycles, readCommand]
  omega

/-- The first 24 bits are the read command 3 and the address 0 (R172). -/
theorem portCycles_command (buffer : List Byte) {i : Nat} (h : i < 24) :
    (portCycles buffer)[i]? = some { out := some (decide (i = 6 ∨ i = 7)), sampled := none } := by
  rw [portCycles, List.getElem?_append_left (by simpa [readCommand] using h)]
  have sent : ∀ i < 24, ((payloadBits readCommand).map PortCycle.send)[i]? =
      some { out := some (decide (i = 6 ∨ i = 7)), sampled := none } := by decide
  exact sent i h

theorem portCycles_sampled (buffer : List Byte) {i : Nat} (h : i < 8 * buffer.length) :
    (portCycles buffer)[24 + i]? =
      some { out := none, sampled := some (decide (imageByte buffer (i / 8) / 2 ^ (7 - i % 8) % 2 = 1)) } := by
  rw [portCycles, List.getElem?_append_right (by simp [readCommand])]
  have place : 24 + i - ((payloadBits readCommand).map PortCycle.send).length = i := by simp [readCommand]
  rw [place, List.getElem?_map, payloadBits_getElem? h]
  rfl

end Sys2Proof.Machine

namespace Sys2Proof

open Machine

/-- Settles O6: the read as the header gives it, the checks over its bytes, and the port bit by bit. -/
theorem anImageIsReadAndCheckedExactly : Obligations.AnImageIsReadAndCheckedExactly := by
  intro memory m read header
  refine ⟨fun ok => by rw [readImage_of_header read ok, readBytes_length],
    fun bad => by rw [readImage_of_no_header read bad, readBytes_length], fun i h => readImage_byte read h,
    imageAccepted_readImage_iff read, ?_⟩
  intro cycles
  have all : (cycles.flatMap PortCycle.levels).length = 2 * cycles.length := levels_length cycles
  refine ⟨portCycles_length _, fun i h => portCycles_command _ h, fun i h => ?_, ?_, fun i h high => ?_, ?_⟩
  · rw [portCycles_sampled _ h, readImage_byte read (by omega)]
  · rw [portLevels, List.length_append, all]
    rfl
  · rw [portLevels, List.getElem?_append_left (by rw [all]; cases high <;> simp <;> omega)]
    exact levels_getElem? cycles h high
  · rw [portLevels, List.getElem?_append_right (by rw [all]), all, Nat.sub_self]
    rfl

end Sys2Proof


/-! ### The configuration that an image puts in force -/

namespace Sys2Proof.Machine

/-- A value held at the top of its range (R166). -/
def heldAt (v top : Nat) : Nat := if top < v then top else v

theorem min_eq_heldAt (v top : Nat) : min v top = heldAt v top := by
  unfold heldAt
  split <;> omega

theorem heldAt_of_le {v top : Nat} (h : v ≤ top) : heldAt v top = v := if_neg (Nat.not_lt.mpr h)

theorem withDefault_eq (v dflt top : Nat) : withDefault v dflt top = if v = 65535 then dflt else heldAt v top := by
  rw [withDefault, min_eq_heldAt]

theorem clampRestoreStep_eq (v : Nat) :
    clampRestoreStep v = if v = 255 then 16 else if v = 0 then 1 else heldAt v 64 := by
  rw [clampRestoreStep, heldAt]
  split_ifs <;> omega

theorem clampLifetime_eq (v : Nat) :
    clampLifetime v = if v = 65535 then 10 else if v < 2 then 2 else heldAt v 255 := by
  rw [clampLifetime, heldAt]
  split_ifs <;> omega

theorem modeOf_pwm_iff (code : Nat) : modeOf code = .pwm ↔ code = 1 := by
  unfold modeOf
  split_ifs with h <;> simp [h]

theorem limitActionOf_persist_iff (code : Nat) : limitActionOf code = .persist ↔ code = 1 := by
  unfold limitActionOf
  split_ifs with h <;> simp [h]

theorem clsOf_val (code : Nat) : (clsOf code).val = heldAt code 3 := by
  unfold clsOf heldAt
  split_ifs <;> simp <;> omega

theorem sourceOf_val (v : Nat) : (sourceOf v).val = heldAt v 15 := by
  unfold sourceOf heldAt
  split_ifs <;> simp <;> omega

theorem signalOf_val (v : Nat) : (signalOf v).val = heldAt v 63 := by
  unfold signalOf heldAt
  split_ifs <;> simp <;> omega

theorem transformOf_iff (code : Nat) : (transformOf code = .switch ↔ code = 1) ∧ (transformOf code = .invert ↔ code = 2) ∧
    (transformOf code = .flash ↔ code = 3) := by
  unfold transformOf
  split_ifs <;> simp <;> omega

theorem fallbackOf_level_iff (code : Nat) : fallbackOf code = .level ↔ code = 1 := by
  unfold fallbackOf
  split_ifs with h <;> simp [h]

theorem imageWord_le (image : List Byte) (i : Nat) : imageWord image i ≤ 65535 := by
  have high := imageByte_le image i
  have low := imageByte_le image (i + 1)
  rw [imageWord]
  omega

section
variable {image : List Byte} {m w : Nat → Nat} (byte : ∀ i, imageByte image i = m i) (word : ∀ i, imageWord image i = w i)
include byte word

theorem imageParams_eq : imageParams image =
    { limitRun := if w 4 = 65535 then 1600 else heldAt (w 4) 4095
      limitBatt := if w 6 = 65535 then 1000 else heldAt (w 6) 4095
      limitAlone := if w 8 = 65535 then 400 else heldAt (w 8) 4095
      guardBand := if w 10 = 65535 then 50 else heldAt (w 10) 4095
      hysteresis := if w 12 = 65535 then 100 else heldAt (w 12) 4095
      restoreStep := if m 14 = 255 then 16 else if m 14 = 0 then 1 else heldAt (m 14) 64
      vLow := if w 16 = 65535 then 220 else heldAt (w 16) 390
      vCut := heldAt (if w 18 = 65535 then 160 else w 18) (if w 16 = 65535 then 220 else heldAt (w 16) 390)
      lifetime := if w 20 = 65535 then 10 else if w 20 < 2 then 2 else heldAt (w 20) 255
      rotationN := heldAt (m 15) 3
      expected := BitVec.ofNat 16 (w 22)
      peerAllowance := heldAt (w 24) 4095
      dinPublish := decide (m 26 = 1) } := by
  have cut : heldAt (w 18) 65535 = w 18 := heldAt_of_le (word 18 ▸ imageWord_le image 18)
  simp only [imageParams, byte, word, withDefault_eq, min_eq_heldAt, clampRestoreStep_eq, clampLifetime_eq, cut]

/-- Where the image gives a channel record, and what it puts in force (R166, R172). -/
theorem imageRecord_fields (c : Chan) {a steady : Nat} (ha : a = 28 + 12 * c.val)
    (hs : steady = if w (a + 2) = 0 then 1 else heldAt (w (a + 2)) 511) :
    let k := imageRecord image c
    (k.enabled = true ↔ m a / 64 % 4 = 1) ∧ (k.mode = .pwm ↔ m a / 16 % 4 = 1) ∧
    (k.limitAction = .persist ↔ m a / 4 % 4 = 1) ∧ k.cls.val = heldAt (m (a + 1) / 16) 3 ∧ k.shedRank = m (a + 1) % 16 ∧
    k.steadyLimit = steady ∧
    k.inrushLimit = (if w (a + 4) < steady then steady else heldAt (w (a + 4)) 511) ∧ k.amount = heldAt (w (a + 6)) 4095 ∧
    k.minDuty = m (a + 8) ∧ k.openThreshold = heldAt (m (a + 9)) 31 ∧
    k.window = (if m (a + 10) / 16 = 0 then 1 else m (a + 10) / 16) ∧ k.retryLimit = heldAt (m (a + 10) % 16) 7 ∧
    k.retryBase = if m (a + 11) = 0 then 1 else heldAt (m (a + 11)) 15 := by
  have flags : m a ≤ 255 := byte a ▸ imageByte_le image a
  have limit : max 1 (min (w (a + 2)) 511) = steady := by
    rw [hs, heldAt]
    split_ifs <;> omega
  simp only [imageRecord, ← ha, byte, word, modeOf_pwm_iff, limitActionOf_persist_iff, clsOf_val, limit, decide_eq_true_eq]
  simp only [← min_eq_heldAt, true_and]
  refine ⟨by omega, ?_, ?_, ?_⟩
  · have := limit
    split_ifs <;> omega
  · split_ifs <;> omega
  · split_ifs <;> omega

omit word in
/-- Where the image gives a binding record, and what it puts in force (R167, R172). -/
theorem imageBinding_fields (i : Nat) {a : Nat} (ha : a = 220 + 6 * i) :
    (imageBinding image i = none ↔ 16 ≤ m (a + 2)) ∧
    ∀ b, imageBinding image i = some b → b.source.val = heldAt (m a) 15 ∧ b.signal.val = heldAt (m (a + 1)) 63 ∧
      b.chan.val = m (a + 2) ∧
      (b.transform = .switch ↔ m (a + 3) % 16 = 1) ∧ (b.transform = .invert ↔ m (a + 3) % 16 = 2) ∧
      (b.transform = .flash ↔ m (a + 3) % 16 = 3) ∧ (b.fallback = .level ↔ m (a + 3) / 16 = 1) ∧
      b.threshold = m (a + 4) ∧ b.fallbackLevel = m (a + 5) := by
  subst ha
  unfold imageBinding
  extract_lets a
  by_cases named : imageByte image (a + 2) < 16
  · rw [dif_pos named]
    refine ⟨⟨nofun, fun large => absurd (byte (a + 2) ▸ named) (Nat.not_lt.mpr large)⟩, ?_⟩
    rintro _ ⟨⟩
    obtain ⟨switch, invert, flash⟩ := transformOf_iff (m (a + 3) % 16)
    simp only [byte]
    exact ⟨sourceOf_val _, signalOf_val _, rfl, switch, invert, flash, fallbackOf_level_iff _, rfl, rfl⟩
  · rw [dif_neg named]
    exact ⟨⟨fun _ => Nat.not_lt.mp (byte (a + 2) ▸ named), fun _ => rfl⟩, nofun⟩

end

/-! ### Binding records and Store keys: the first of each -/

/-- The part of a binding record that no two in force share (R167). -/
abbrev bindingKey (b : Binding) : Stn × Fin 64 × Chan := (b.source, b.signal, b.chan)

theorem sameBinding_iff (a b : Binding) : sameBinding a b = true ↔ bindingKey a = bindingKey b := by
  simp [sameBinding, and_assoc]

/-- The record at place `i`, unless an earlier one has its key. -/
def firstBinding (image : List Byte) (i : Nat) : Option Binding :=
  match imageBinding image i with
  | none => none
  | some b => if ∃ j < i, ∃ d ∈ imageBinding image j, bindingKey d = bindingKey b then none else some b

theorem firstBinding_eq_some_iff (image : List Byte) (i : Nat) (b : Binding) : firstBinding image i = some b ↔
    imageBinding image i = some b ∧ ¬∃ j < i, ∃ d ∈ imageBinding image j, bindingKey d = bindingKey b := by
  unfold firstBinding
  cases imageBinding image i with
  | none => simp
  | some c =>
    simp only
    split_ifs with earlier
    · simp only [false_iff, not_and, not_not, Option.some.injEq]
      rintro rfl
      exact earlier
    · simp only [Option.some.injEq]
      exact ⟨fun same => ⟨same, same ▸ earlier⟩, fun h => h.1⟩

/-- Every record's key is that of a first one no later. -/
theorem exists_firstBinding {image : List Byte} {i : Nat} {b : Binding} (held : imageBinding image i = some b) :
    ∃ j ≤ i, ∃ d, firstBinding image j = some d ∧ bindingKey d = bindingKey b := by
  induction i using Nat.strong_induction_on generalizing b with
  | _ i ih =>
    by_cases earlier : ∃ j < i, ∃ d ∈ imageBinding image j, bindingKey d = bindingKey b
    · obtain ⟨j, before, d, mem, key⟩ := earlier
      obtain ⟨k, upTo, e, first, same⟩ := ih j before mem
      exact ⟨k, by omega, e, first, same.trans key⟩
    · exact ⟨i, le_refl i, b, (firstBinding_eq_some_iff image i b).mpr ⟨held, earlier⟩, rfl⟩

/-- Keeping the first of each key leaves the first records, in image order. -/
theorem keepBindings_eq (image : List Byte) (n : Nat) :
    ((List.range n).filterMap (imageBinding image)).foldl keepBinding [] = (List.range n).filterMap (firstBinding image) := by
  induction n with
  | zero => rfl
  | succ n ih =>
    rw [List.range_succ, List.filterMap_append, List.filterMap_append, List.foldl_append, ih]
    cases held : imageBinding image n with
    | none => simp [held, firstBinding]
    | some b =>
      have seen : ((List.range n).filterMap (firstBinding image)).any (sameBinding b) = true ↔
          ∃ j < n, ∃ d ∈ imageBinding image j, bindingKey d = bindingKey b := by
        simp only [List.any_eq_true, List.mem_filterMap, List.mem_range, sameBinding_iff]
        constructor
        · rintro ⟨d, ⟨j, before, first⟩, key⟩
          exact ⟨j, before, d, ((firstBinding_eq_some_iff image j d).mp first).1, key.symm⟩
        · rintro ⟨j, before, d, mem, key⟩
          obtain ⟨k, upTo, e, first, same⟩ := exists_firstBinding mem
          exact ⟨e, ⟨k, by omega, first⟩, (same.trans key).symm⟩
      simp only [List.filterMap_cons, List.filterMap_nil, held, List.foldl_cons, List.foldl_nil, keepBinding, firstBinding]
      by_cases earlier : ∃ j < n, ∃ d ∈ imageBinding image j, bindingKey d = bindingKey b
      · rw [if_pos (seen.mpr earlier), if_pos earlier]
        simp
      · rw [if_neg (mt seen.mp earlier), if_neg earlier]

theorem imageBindings_eq (image : List Byte) :
    imageBindings image = (List.range (imageByte image 3)).filterMap (firstBinding image) := keepBindings_eq image _

theorem mem_imageBindings {image : List Byte} {b : Binding} :
    b ∈ imageBindings image ↔ ∃ i < imageByte image 3, firstBinding image i = some b := by
  simp [imageBindings_eq]

theorem imageBindings_keys_nodup (image : List Byte) : ((imageBindings image).map bindingKey).Nodup := by
  rw [imageBindings_eq, List.map_filterMap]
  have apart {i j : Nat} {d e : Binding} (first : firstBinding image i = some d) (second : firstBinding image j = some e)
      (same : bindingKey d = bindingKey e) : ¬i < j := fun before =>
    ((firstBinding_eq_some_iff image j e).mp second).2
      ⟨i, before, d, ((firstBinding_eq_some_iff image i d).mp first).1, same⟩
  refine List.nodup_range.filterMap fun i j key hi hj => ?_
  obtain ⟨d, first, hd⟩ := Option.map_eq_some_iff.mp hi
  obtain ⟨e, second, he⟩ := Option.map_eq_some_iff.mp hj
  have before := apart first second (hd.trans he.symm)
  have after := apart second first (he.trans hd.symm)
  omega

/-- The keys in order of first appearance. -/
def firstKeys {K : Type} [DecidableEq K] (keys : List K) : List K :=
  (List.range keys.length).filterMap fun i =>
    match keys[i]? with
    | none => none
    | some key => if key ∈ keys.take i then none else some key

theorem firstKeys_append {K : Type} [DecidableEq K] (keys : List K) (key : K) :
    firstKeys (keys ++ [key]) = firstKeys keys ++ if key ∈ keys then [] else [key] := by
  rw [firstKeys, List.length_append, List.length_singleton, List.range_succ, List.filterMap_append]
  congr 1
  · refine List.filterMap_congr fun i mem => ?_
    have below : i < keys.length := List.mem_range.mp mem
    rw [List.getElem?_append_left below, List.take_append_of_le_length below.le]
  · simp only [List.filterMap_cons, List.filterMap_nil, List.getElem?_concat_length, List.take_left]
    split_ifs <;> rfl

theorem mem_firstKeys {K : Type} [DecidableEq K] (keys : List K) (key : K) : key ∈ firstKeys keys ↔ key ∈ keys := by
  induction keys using List.reverseRecOn with
  | nil => rfl
  | append_singleton keys last ih =>
    rw [firstKeys_append, List.mem_append, ih, List.mem_append, List.mem_singleton]
    split_ifs with seen
    · simp
      rintro rfl
      exact seen
    · simp

theorem firstKeys_nodup {K : Type} [DecidableEq K] (keys : List K) : (firstKeys keys).Nodup := by
  induction keys using List.reverseRecOn with
  | nil => exact List.nodup_nil
  | append_singleton keys last ih =>
    rw [firstKeys_append]
    split_ifs with seen
    · simpa
    · refine List.nodup_append.mpr ⟨ih, List.nodup_singleton _, fun key mem other single => ?_⟩
      rw [List.mem_singleton.mp single]
      rintro rfl
      exact seen ((mem_firstKeys keys _).mp mem)

/-- The keys of the bindings that read the Store (R65). -/
def storeKeys (own : Stn) (table : List Binding) : List (Stn × Fin 64) :=
  (table.filter fun b => !(b.source = own && 60 ≤ b.signal.val)).map fun b => (b.source, b.signal)

theorem storeOf_keys (own : Stn) (table : List Binding) :
    (storeOf own table).map (fun e => (e.source, e.signal)) = firstKeys (storeKeys own table) := by
  induction table using List.reverseRecOn with
  | nil => rfl
  | append_singleton table b ih =>
    have held : (storeOf own table).any (·.hasKey b.source b.signal.val) = true ↔ (b.source, b.signal) ∈ storeKeys own table := by
      rw [← mem_firstKeys, ← ih]
      simp [StoreEntry.hasKey, Fin.ext_iff]
    rw [storeOf_eq_foldl, List.foldl_append, ← storeOf_eq_foldl, List.foldl_cons, List.foldl_nil, storeWith]
    have appended : storeKeys own (table ++ [b]) =
        storeKeys own table ++ if isOwnInput own b.source b.signal = true then [] else [(b.source, b.signal)] := by
      simp only [storeKeys, List.filter_append, List.map_append, List.filter_cons, List.filter_nil]
      unfold isOwnInput
      by_cases input : (decide (b.source = own) && decide (60 ≤ b.signal.val)) = true <;> simp only [input] <;> rfl
    rw [appended]
    by_cases input : isOwnInput own b.source b.signal = true
    · rw [if_pos input, List.append_nil, ← ih, input]
      rfl
    · rw [if_neg input, firstKeys_append, ← ih]
      by_cases seen : (b.source, b.signal) ∈ storeKeys own table
      · rw [if_pos (by rw [held.mpr seen, Bool.or_true]), if_pos seen, List.append_nil]
      · rw [if_neg (by simp [input, mt held.mp seen]), if_neg seen, List.map_append]
        rfl

end Sys2Proof.Machine

namespace Sys2Proof

open Machine

/-- Settles O7: the fields one by one, and of equal binding keys and Store keys the first. -/
theorem everyImageIsClampedIntoRange : Obligations.EveryImageIsClampedIntoRange := by
  intro image own m w bytes words held vLow
  have byte (i : Nat) : imageByte image i = m i := (bytes i).symm
  have word (i : Nat) : imageWord image i = w i := by rw [imageWord, byte, byte, words]
  have keys := storeOf_keys own (imageBindings image)
  refine ⟨imageParams_eq byte word, fun c a steady ha hs => ?_, fun i a ha => imageBinding_fields byte i ha,
    imageConfiguration_inRange image, ?_, imageBindings_keys_nodup image, fun b mem => ?_, fun i below b record => ?_,
    (imageBindings_eq image).trans (List.filterMap_congr fun i _ => ?_), ?_, ?_, fun src sig => ?_⟩
  · rw [imageConfiguration_record]
    exact imageRecord_fields byte word c ha hs
  · rw [imageBindings_eq]
    exact (List.length_filterMap_le _ _).trans_eq List.length_range
  · obtain ⟨i, below, first⟩ := mem_imageBindings.mp mem
    exact ⟨i, below, ((firstBinding_eq_some_iff image i b).mp first).1⟩
  · obtain ⟨j, upTo, d, first, key⟩ := exists_firstBinding record
    have parts : d.source = b.source ∧ d.signal = b.signal ∧ d.chan = b.chan := by simpa using key
    exact ⟨d, mem_imageBindings.mpr ⟨j, by omega, first⟩, parts⟩
  · unfold firstBinding
    cases imageBinding image i with
    | none => rfl
    | some b => simp only [bindingKey, Prod.mk.injEq]
  · intro read eq
    rw [keys, show storeKeys own (imageBindings image) = read from eq.symm]
    refine List.filterMap_congr fun i _ => ?_
    cases read[i]? with
    | none => rfl
    | some key => by_cases seen : key ∈ read.take i <;> simp [seen]
  · rw [keys]
    exact firstKeys_nodup _
  · have keyed : (∃ e ∈ storeOf own (imageBindings image), e.source = src ∧ e.signal = sig) ↔
        (src, sig) ∈ storeKeys own (imageBindings image) := by
      rw [← mem_firstKeys, ← keys]
      simp
    rw [keyed]
    simp only [storeKeys, List.mem_map, List.mem_filter, Prod.mk.injEq, Bool.not_eq_true', Bool.and_eq_false_iff,
      decide_eq_false_iff_not, ← not_and_or]
    exact ⟨fun ⟨b, ⟨mem, reads⟩, same, sig⟩ => ⟨⟨b, mem, same, sig⟩, same ▸ sig ▸ reads⟩,
      fun ⟨⟨b, mem, same, sig⟩, reads⟩ => ⟨b, ⟨mem, by rwa [same, sig]⟩, same, sig⟩⟩

end Sys2Proof


/-! ### Channels that begin one after the other -/

namespace Sys2Proof.Machine

variable {s t : State} {c : Chan} {g : Chan → Channel}

/-- A dark channel becomes `x`: the Scheduler hears what it began (R144, R149). -/
def wake (c : Chan) (x : Channel) (s : State) : State := notices c .off x.state (s.setCh c x)

/-- The amounts of the channels below `c` that surge. -/
abbrev State.surgeBelow (s : State) (c : Chan) : Nat :=
  sumChans (fun d => decide (d < c) && s.surging d) fun d => (s.cfg d).amount

/-- The surge of `c` raises what the channels below it had announced, in amount or in hold (R149). -/
def State.Raises (s : State) (c : Chan) : Prop :=
  s.surging c = true ∧ (s.surgeBelow c < 4095 ∧ 0 < (s.cfg c).amount ∨
    0 < s.surgeBelow c + (s.cfg c).amount ∧
      ∀ d, d < c → s.surging d = true → (s.ch d).inrushRemaining < (s.ch c).inrushRemaining)

/-- What raises at a channel is decided by the channels up to it. -/
theorem State.raises_congr (cfg : ∀ d, t.cfg d = s.cfg d) (upTo : ∀ d, d ≤ c → t.ch d = s.ch d) :
    t.Raises c ↔ s.Raises c := by
  have surging (d : Chan) (le : d ≤ c) : t.surging d = s.surging d := by rw [State.surging, cfg, upTo d le]; rfl
  have below : t.surgeBelow c = s.surgeBelow c := by
    have test : (fun d => decide (d < c) && t.surging d) = fun d => decide (d < c) && s.surging d := by
      funext d
      by_cases earlier : d < c
      · rw [surging d earlier.le]
      · simp [earlier]
    rw [State.surgeBelow, test, funext fun d => congrArg ChannelConfig.amount (cfg d)]
  rw [State.Raises, State.Raises, surging c le_rfl, below, cfg, upTo c le_rfl]
  refine and_congr_right fun _ => or_congr_right (and_congr_right fun _ => ?_)
  exact forall_congr' fun d => forall_congr' fun earlier => by rw [surging d earlier.le, upTo d earlier.le]

/-- What raises has an amount to announce. -/
theorem State.Raises.amount_pos (h : s.Raises c) : 0 < s.surgeAmount := by
  obtain ⟨surges, rise⟩ := h
  refine Nat.pos_of_ne_zero fun zero => ?_
  have idle := surgeAmount_eq_zero_iff.mp zero
  simp only [State.announced, not_and, Nat.not_lt, Nat.le_zero] at idle
  have free (d : Chan) (begun : s.surging d = true) : (s.cfg d).amount = 0 := by
    obtain ⟨cls, state⟩ : (s.cfg d).cls = 0 ∧ (s.ch d).state = .inrush := by simpa [State.surging] using begun
    exact idle d cls state
  have below : s.surgeBelow c = 0 := by
    refine List.sum_eq_zero fun n mem => ?_
    obtain ⟨d, chosen, rfl⟩ := List.mem_map.mp mem
    have both : d < c ∧ s.surging d = true := by simpa using (List.mem_filter.mp chosen).2
    exact free d both.2
  have own := free c surges
  omega

theorem surgeHold_lt_iff (s : State) (n : Nat) :
    s.surgeHold < n + 1 ↔ ∀ d, s.surging d = true → (s.ch d).inrushRemaining < n := by
  obtain ⟨_, upper, attained⟩ := foldl_max_spec (fun d => (s.ch d).inrushRemaining + 1) (allChans.filter s.surging) 0
  constructor
  · intro small d surges
    have := upper d (List.mem_filter.mpr ⟨mem_allChans d, surges⟩)
    change _ ≤ s.surgeHold at this
    omega
  · intro all
    obtain zero | ⟨d, mem, eq⟩ := attained
    · change s.surgeHold = 0 at zero
      omega
    · change _ = s.surgeHold at eq
      have := all d (List.mem_filter.mp mem).2
      omega

/-- One more channel surges. -/
structure State.SurgesToo (s t : State) (c : Chan) : Prop where
  cfg : ∀ d, t.cfg d = s.cfg d
  fresh : ∀ d, c ≤ d → s.surging d = false
  surging : ∀ d, t.surging d = if d = c then true else s.surging d
  other : ∀ d, d ≠ c → t.ch d = s.ch d

theorem State.SurgesToo.below (h : s.SurgesToo t c) :
    t.surgeBelow c = sumChans s.surging fun d => (s.cfg d).amount := by
  have test : (fun d => decide (d < c) && t.surging d) = s.surging := by
    funext d
    rw [h.surging]
    by_cases earlier : d < c
    · simp [earlier, earlier.ne]
    · simp [earlier, h.fresh d (not_lt.mp earlier)]
  rw [State.surgeBelow, test, funext fun d => congrArg ChannelConfig.amount (h.cfg d)]

theorem State.SurgesToo.amount (h : s.SurgesToo t c) :
    t.surgeAmount = min 4095 (t.surgeBelow c + (s.cfg c).amount) := by
  have each (d : Chan) : (if t.surging d = true then (t.cfg d).amount else 0) =
      (if s.surging d = true then (s.cfg d).amount else 0) + if d = c then (s.cfg c).amount else 0 := by
    rw [h.surging, h.cfg]
    by_cases own : d = c
    · subst own
      simp [h.fresh d le_rfl]
    · simp [own]
  have sum : sumChans t.surging (fun d => (t.cfg d).amount) =
      sumChans s.surging (fun d => (s.cfg d).amount) + (s.cfg c).amount := by
    rw [sumChans_eq_sum, sumChans_eq_sum, Finset.sum_congr rfl fun d _ => each d, Finset.sum_add_distrib]
    simp
  rw [State.surgeAmount, sum, h.below]

theorem State.SurgesToo.hold (h : s.SurgesToo t c) :
    t.surgeHold = max s.surgeHold ((t.ch c).inrushRemaining + 1) := by
  have bound (n : Nat) : t.surgeHold < n + 1 ↔ s.surgeHold < n + 1 ∧ (t.ch c).inrushRemaining < n := by
    rw [surgeHold_lt_iff, surgeHold_lt_iff]
    constructor
    · intro all
      refine ⟨fun d surges => ?_, all c (by rw [h.surging, if_pos rfl])⟩
      have other : d ≠ c := by
        rintro rfl
        simp [h.fresh d le_rfl] at surges
      rw [← h.other d other]
      exact all d (by rwa [h.surging, if_neg other])
    · rintro ⟨all, own⟩ d surges
      by_cases same : d = c
      · rwa [same]
      · rw [h.other d same]
        exact all d (by rwa [h.surging, if_neg same] at surges)
  have upper := (bound (max s.surgeHold ((t.ch c).inrushRemaining + 1))).mpr (by omega)
  have lower := (bound t.surgeHold).mp (Nat.lt_succ_self _)
  omega

/-- It raises the announcement exactly where the amount rises, or the hold with an amount (R149). -/
theorem State.SurgesToo.raises_iff (h : s.SurgesToo t c) :
    t.Raises c ↔ s.surgeAmount < t.surgeAmount ∨ 0 < t.surgeAmount ∧ s.surgeHold < t.surgeHold := by
  have amount := h.amount
  have before : s.surgeAmount = min 4095 (t.surgeBelow c) := by rw [h.below]; rfl
  have hold : s.surgeHold < t.surgeHold ↔
      ∀ d, d < c → t.surging d = true → (t.ch d).inrushRemaining < (t.ch c).inrushRemaining := by
    rw [h.hold, lt_max_iff, or_iff_right (lt_irrefl _), surgeHold_lt_iff]
    refine forall_congr' fun d => ?_
    by_cases earlier : d < c
    · simp only [earlier, forall_const]
      rw [h.surging, if_neg earlier.ne, h.other d earlier.ne]
    · simp [earlier, h.fresh d (not_lt.mp earlier)]
  rw [State.Raises, h.surging, if_pos rfl, hold, h.cfg]
  constructor
  · rintro ⟨-, rise | rise⟩
    · exact .inl (by omega)
    · exact .inr ⟨by omega, rise.2⟩
  · rintro (rise | rise)
    · exact ⟨rfl, .inl (by omega)⟩
    · exact ⟨rfl, .inr ⟨by omega, rise.2⟩⟩

/-- Where the channels stand once the first `k` have become what `g` gives. -/
structure WakeProgress (s : State) (g : Chan → Channel) (k : Nat) (t : State) : Prop where
  loader : t.loader = s.loader
  channels : ∀ c, t.ch c = if c.val < k then g c else s.ch c
  queue : t.sched.queue = s.sched.queue ++ (allChans.take k).filter fun c => (g c).state = .requested
  ordinary : t.sched.ordinary = s.sched.ordinary
  amount : t.sched.announceAmount = t.surgeAmount
  hold : t.sched.announceHold = t.surgeHold
  handed : t.link = s.link ∨ ∃ d a h, t.link = s.link.handOver (.reserve .announce 0 d a h)
  silent : (∀ d, ¬t.Raises d) → t.link = s.link
  last : ∀ c, t.Raises c → (∀ d, c < d → ¬t.Raises d) →
    t.link = s.link.handOver (.reserve .announce 0 c t.surgeAmount t.surgeHold)

section
variable (h : WakeProgress s g c.val t)
include h

theorem WakeProgress.cfg (d : Chan) : t.cfg d = s.cfg d := cfg_congr h.loader d

theorem WakeProgress.fresh (dark : ∀ d, s.surging d = false) (d : Chan) (le : c ≤ d) : t.surging d = false := by
  have still := dark d
  rw [State.surging] at still ⊢
  rwa [h.cfg, h.channels, if_neg (Nat.not_lt.mpr le)]

end

theorem wake_ch (c : Chan) (x : Channel) (s : State) (d : Chan) : (wake c x s).ch d = if d = c then x else s.ch d := by
  rw [wake, notices_ch, State.setCh_ch]

theorem wake_loader (c : Chan) (x : Channel) (s : State) : (wake c x s).loader = s.loader := by
  simp [wake]

theorem wake_eq (x : Channel) (zero : x.state = .inrush → (s.cfg c).cls = 0) : wake c x s =
    if x.state = .inrush then inrushBegun c (s.setCh c x)
    else if x.state = .requested then joined c (s.setCh c x) else s.setCh c x := by
  unfold wake notices
  by_cases surges : x.state = .inrush
  · simp [surges, zero surges]
  · simp [surges]


/-- What `wake` gives a channel, the blocks beside it and the Scheduler. -/
theorem WakeProgress.next (dark : ∀ d, s.surging d = false) (h : WakeProgress s g c.val t)
    (zero : (g c).state = .inrush → (s.cfg c).cls = 0) : WakeProgress s g (c.val + 1) (wake c (g c) t) := by
  have woken := wake_eq (s := t) (c := c) (g c) (h.cfg c ▸ zero)
  have ch (d : Chan) : (wake c (g c) t).ch d = if d = c then g c else t.ch d := wake_ch c (g c) t d
  have cfg (d : Chan) : (wake c (g c) t).cfg d = t.cfg d := cfg_congr (wake_loader c (g c) t) d
  have channels (d : Chan) : (wake c (g c) t).ch d = if d.val < c.val + 1 then g d else s.ch d := by
    rw [ch, h.channels]
    by_cases own : d = c
    · simp [own]
    · have apart : d.val < c.val + 1 ↔ d.val < c.val := by
        have := Fin.val_ne_of_ne own
        omega
      rw [if_neg own]
      simp only [apart]
  have queue : (wake c (g c) t).sched.queue =
      s.sched.queue ++ (allChans.take (c.val + 1)).filter fun c => (g c).state = .requested := by
    rw [allChans_take_succ, List.filter_append, ← List.append_assoc, ← h.queue, woken, List.filter_singleton]
    split_ifs with surges requested
    · simp [inrushBegun_sched, surges]
    · simp [joined, requested]
    · simp [requested]
  have ordinary : (wake c (g c) t).sched.ordinary = s.sched.ordinary := by
    rw [← h.ordinary, woken]
    split_ifs
    · simp [inrushBegun_sched]
    · simp [joined]
    · simp
  have other (d : Chan) (ne : d ≠ c) : (wake c (g c) t).ch d = t.ch d := by rw [ch, if_neg ne]
  have earlier (d : Chan) (before : d < c) : (wake c (g c) t).Raises d ↔ t.Raises d :=
    State.raises_congr cfg fun e le => other e (le.trans_lt before).ne
  have fresh := h.fresh dark
  have loader := (wake_loader c (g c) t).trans h.loader
  by_cases surges : (g c).state = .inrush
  · rw [if_pos surges] at woken
    have begun : t.SurgesToo (wake c (g c) t) c := by
      refine ⟨cfg, fresh, fun d => ?_, other⟩
      by_cases own : d = c
      · subst own
        simp [State.surging, ch, surges, cfg, h.cfg, zero surges]
      · rw [State.surging, cfg, other d own, if_neg own]
        rfl
    have raises := begun.raises_iff
    have amounts : t.surgeAmount ≤ (wake c (g c) t).surgeAmount := by
      have after := begun.amount
      have before : t.surgeAmount = min 4095 ((wake c (g c) t).surgeBelow c) := by rw [begun.below]; rfl
      omega
    have holds : t.surgeHold ≤ (wake c (g c) t).surgeHold := begun.hold ▸ le_max_left _ _
    have amount : (wake c (g c) t).surgeAmount = (t.setCh c (g c)).surgeAmount := by
      rw [woken]
      exact surgeAmount_congr (by simp) (by simp)
    have hold : (wake c (g c) t).surgeHold = (t.setCh c (g c)).surgeHold := by
      rw [woken]
      exact surgeHold_congr (by simp) (by simp)
    have made : (wake c (g c) t).link =
        if t.surgeAmount < (wake c (g c) t).surgeAmount ∨
            0 < (wake c (g c) t).surgeAmount ∧ t.surgeHold < (wake c (g c) t).surgeHold then
          t.link.handOver (.reserve .announce 0 c (wake c (g c) t).surgeAmount (wake c (g c) t).surgeHold)
        else t.link := by
      rw [amount, hold, ← h.amount, ← h.hold, woken, inrushBegun_link]
      rfl
    have kept (quiet : ¬(wake c (g c) t).Raises c) : (wake c (g c) t).link = t.link := by
      rw [made, if_neg (mt raises.mpr quiet)]
    have raised (first : (wake c (g c) t).Raises c) : (wake c (g c) t).link =
        s.link.handOver (.reserve .announce 0 c (wake c (g c) t).surgeAmount (wake c (g c) t).surgeHold) := by
      rw [made, if_pos (raises.mp first)]
      obtain same | ⟨_, _, _, same⟩ := h.handed
      · rw [same]
      · rw [same, LinkController.handOver_reserve_twice]
    refine ⟨loader, channels, queue, ordinary, ?_, ?_, ?_, ?_, ?_⟩
    · rw [amount, woken]
      simp [inrushBegun_sched]
    · rw [hold, woken]
      simp [inrushBegun_sched]
    · by_cases first : (wake c (g c) t).Raises c
      · exact .inr ⟨_, _, _, raised first⟩
      · rw [kept first]
        exact h.handed
    · intro quiet
      rw [kept (quiet c)]
      refine h.silent fun d first => ?_
      by_cases before : d < c
      · exact quiet d ((earlier d before).mpr first)
      · simp [State.Raises, fresh d (not_lt.mp before)] at first
    · intro d first after
      by_cases own : d = c
      · rw [own]
        exact raised (own ▸ first)
      · have before : d < c := by
          refine lt_of_le_of_ne (not_lt.mp fun later => ?_) own
          have still := begun.surging d
          rw [if_neg own, fresh d later.le] at still
          simp [State.Raises, still] at first
        have last := after c before
        have first := (earlier d before).mp first
        have pos := first.amount_pos
        rw [raises] at last
        rw [kept (after c before), show (wake c (g c) t).surgeAmount = t.surgeAmount by omega,
          show (wake c (g c) t).surgeHold = t.surgeHold by omega]
        refine h.last d first fun e later again => ?_
        by_cases upTo : e < c
        · exact after e later ((earlier e upTo).mpr again)
        · simp [State.Raises, fresh e (not_lt.mp upTo)] at again
  · have surging (d : Chan) : (wake c (g c) t).surging d = t.surging d := by
      by_cases own : d = c
      · subst own
        rw [fresh d le_rfl]
        simp [State.surging, ch, surges]
      · rw [State.surging, cfg, other d own]
        rfl
    have raises (d : Chan) : (wake c (g c) t).Raises d ↔ t.Raises d := by
      by_cases before : d < c
      · exact earlier d before
      · have still := fresh d (not_lt.mp before)
        simp [State.Raises, surging, still]
    obtain ⟨amount, hold⟩ := surge_congr (s := t) cfg surging fun d begun => by
      rw [other d]
      rintro rfl
      simp [fresh d le_rfl] at begun
    rw [if_neg surges] at woken
    have link : (wake c (g c) t).link = t.link := by rw [woken]; split <;> rfl
    refine ⟨loader, channels, queue, ordinary, ?_, ?_, ?_, ?_, ?_⟩
    · rw [amount, ← h.amount, woken]
      split <;> rfl
    · rw [hold, ← h.hold, woken]
      split <;> rfl
    · rw [link]
      exact h.handed
    · intro quiet
      rw [link, h.silent fun d => mt (raises d).mpr (quiet d)]
    · intro d first after
      rw [link, amount, hold]
      exact h.last d ((raises d).mp first) fun e later => mt (raises e).mpr (after e later)

end Sys2Proof.Machine


/-! ### The end of the load: from the reset values to the first resolution -/

namespace Sys2Proof.Machine

variable {s t : State} {c : Chan} {g : Chan → Channel} (buffer : List Byte) (din : DinLevels)

theorem wake_of_dark {x : Channel} (dark : x.state = .off ∨ x.state = .cut) (c : Chan) (s : State) :
    wake c x s = s.setCh c x := by
  obtain off | cut := dark
  · rw [wake_eq _ (by simp [off]), if_neg (by simp [off]), if_neg (by simp [off])]
  · rw [wake_eq _ (by simp [cut]), if_neg (by simp [cut]), if_neg (by simp [cut])]

/-- Demand that begins at OFF (R7). -/
theorem Channel.delivered_of_rises {x : Channel} {k : ChannelConfig} {level : Nat} (off : x.state = .off)
    (idle : demandOn k.mode x.demandLevel = false) (rises : demandOn k.mode level = true) :
    x.delivered k level =
      Channel.wanted { x with demandLevel := level, demandDuty := demandDutyOf k.mode level } k := by
  simp [Channel.delivered, off, idle, rises]

/-- A level delivered to a dark channel without demand. -/
theorem deliver_eq_wake (level : Nat) (dark : (s.ch c).state = .off ∨ (s.ch c).state = .cut) (idle : s.wants c = false) :
    deliver c level s = wake c ((s.ch c).delivered (s.cfg c) level) s := by
  have waits : demandOn (s.cfg c).mode (s.ch c).demandLevel = false := idle
  by_cases rises : (s.ch c).state = .off ∧ demandOn (s.cfg c).mode level = true
  · obtain ⟨off, rises⟩ := rises
    rw [Channel.delivered_of_rises off waits rises]
    by_cases zero : (s.cfg c).cls = 0 <;>
      simp [deliver, off, idle, rises, switchOn, zero, Channel.wanted, enter, wake, notices, State.updCh,
        State.setCh_setCh, Channel.enter, Channel.recompute]
  · have stays : (s.ch c).delivered (s.cfg c) level = _ :=
      (s.ch c).delivered_of_stays (s.cfg c) level (by simp [waits]) fun begun => rises ⟨begun.1, begun.2.2⟩
    rw [stays, wake_of_dark (by exact dark)]
    obtain off | cut := dark
    · have none : demandOn (s.cfg c).mode level = false := by simpa [off] using rises
      simp [deliver, off, idle, none, State.updCh, State.setCh_setCh]
    · simp [deliver, cut, idle, State.updCh, State.setCh_setCh]

/-- A part at its reset values, whose channels are at most cut: where the first resolution begins. -/
structure State.Rests (s : State) : Prop where
  dark : ∀ c, (s.ch c).state = .off ∨ (s.ch c).state = .cut
  idle : ∀ c, (s.ch c).demandLevel = 0
  sched : s.sched = State.reset.sched

theorem State.Rests.wants (h : s.Rests) (c : Chan) : s.wants c = false := by rw [State.wants, h.idle, demandOn_zero]

theorem State.Rests.still (h : s.Rests) (c : Chan) : s.surging c = false := by
  obtain off | cut := h.dark c
  · simp [State.surging, off]
  · simp [State.surging, cut]

/-- What the first resolution makes of a channel (R169). -/
abbrev State.resolved (s : State) (c : Chan) : Channel :=
  if (s.cfg c).enabled = true then (s.ch c).delivered (s.cfg c) (s.level c) else s.ch c

theorem State.Rests.resolved_inrush (h : s.Rests) (surges : (s.resolved c).state = .inrush) :
    ((s.ch c).state = .off ∧ (s.cfg c).enabled = true ∧ demandOn (s.cfg c).mode (s.level c) = true) ∧ (s.cfg c).cls = 0 := by
  have waits : (s.ch c).state ≠ .inrush := by
    obtain off | cut := h.dark c
    · simp [off]
    · simp [cut]
  rw [State.resolved] at surges
  split at surges
  · rename_i enabled
    obtain ⟨_, _, state, _⟩ := (s.ch c).delivered_follows (k := s.cfg c) (level := s.level c)
    rw [surges, Channel.demandState] at state
    split_ifs at state with cut falls rises zero
    · exact ⟨⟨rises.1, enabled, rises.2.2⟩, zero⟩
    · exact absurd state.symm waits
  · exact absurd surges waits

/-- A surge that the first resolution begins marks the running epoch (R45). -/
theorem State.Rests.resolved_marker (h : s.Rests) (surges : (s.resolved c).state = .inrush) :
    (s.resolved c).runningMarker = true := by
  obtain ⟨⟨off, enabled, rises⟩, zero⟩ := h.resolved_inrush surges
  rw [State.resolved, if_pos enabled, Channel.delivered_of_rises off (h.wants c) rises]
  simp [Channel.wanted, zero, Channel.enter, Channel.recompute]

theorem State.Rests.resolve (h : s.Rests) : WakeProgress s s.resolved 16 (resolveEnabled s) := by
  have start : WakeProgress s s.resolved 0 s := by
    have amount : s.surgeAmount = 0 := surgeAmount_eq_zero_iff.mpr fun c ⟨zero, surges, _⟩ => by
      have := h.still c
      simp [State.surging, zero, surges] at this
    have hold : s.surgeHold = 0 := surgeHold_of_quiet h.still
    refine ⟨rfl, fun c => by simp, by simp, rfl, by rw [amount, h.sched]; rfl, by rw [hold, h.sched]; rfl, .inl rfl, fun _ => rfl,
      fun c first => absurd first.1 (by simp [h.still c])⟩
  have all : WakeProgress s s.resolved 16 (resolveEnabled s) ∧ (resolveEnabled s).blank = s.blank := by
    refine forChans_upTo (P := fun k t => WakeProgress s s.resolved k t ∧ t.blank = s.blank) ⟨start, rfl⟩ fun c t ⟨made, blank⟩ => ?_
    have self : t.ch c = s.ch c := by simp [made.channels c]
    have same : (if (t.cfg c).enabled = true then deliver c (t.level c) t else t) = wake c (s.resolved c) t := by
      rw [made.cfg, level_of_blank blank]
      by_cases enabled : (s.cfg c).enabled = true
      · rw [if_pos enabled, deliver_eq_wake _ (self ▸ h.dark c) (by rw [State.wants, made.cfg, self]; exact h.wants c),
          State.resolved, if_pos enabled, self, made.cfg]
      · rw [if_neg enabled, State.resolved, if_neg enabled, wake_of_dark (h.dark c), ← self, State.setCh_self]
    refine ⟨?_, ?_⟩
    · rw [same]
      exact made.next h.still fun surges => (h.resolved_inrush surges).2
    · split
      · rw [deliver_blank, blank]
      · exact blank
  exact all.1

/-! #### The state in which the first resolution is taken -/

/-- What the phase, the station number and the pins leave of a state before load end. -/
theorem State.HeldAtReset.blocks (held : s.HeldAtReset) (h : s.isLoaded = false) :
    s.sched = State.reset.sched ∧ s.link = LinkController.reset ∧ s.cuts = State.reset.cuts ∧ s.sense = State.reset.sense ∧
      s.signal = State.reset.signal ∧ s.reservations = [] ∧ s.budget = BudgetUnit.reset ∧ s.diag = State.reset.diag := by
  rw [held h]
  exact ⟨rfl, rfl, rfl, rfl, rfl, rfl, rfl, rfl⟩

/-- The first period begun, the ISOLATE level not yet taken. -/
abbrev startedState (s : State) : State := startPeriods din (handOut buffer s)

theorem startPeriods_ch (u : State) (c : Chan) :
    (startPeriods din u).ch c = { u.ch c with activeDuty := (u.ch c).shadowDuty } := by
  have duties (v : State) (same : v.channels = u.channels) :
      (loadDuties v).ch c = { u.ch c with activeDuty := (u.ch c).shadowDuty } := by
    rw [loadDuties_ch, ch_congr same c]
  exact duties _ rfl

/-- What the first period begins with, the channels aside (R22, R23, R169). -/
theorem startPeriods_eq (u : State) : startPeriods din u =
    { u with
      channels := (startPeriods din u).channels
      timer := { running := true, number := 0, completed := 0, markPending := false }
      modulator := { running := true, step := 0 }
      signal := { u.signal with inputs := din } } := rfl

/-- What the end of the checks hands out (R165–R169). -/
theorem handOut_eq (s : State) : handOut buffer s =
    { s with loader := (handOut buffer s).loader, signal := (handOut buffer s).signal } := rfl

theorem startedState_ch (held : s.HeldAtReset) (h : s.isLoaded = false) (c : Chan) :
    (startedState buffer din s).ch c = Channel.reset := by
  rw [startPeriods_ch, handOut_ch, held.ch h]
  rfl

/-- A part that has started: its blocks as the image and the first period leave them, its channels dark. -/
structure State.Started (s u : State) : Prop where
  rests : u.Rests
  state : ∀ c, (u.ch c).state = if s.pins.isolate = true then .cut else .off
  dark : ∀ c, (u.ch c).activeDuty = 0 ∧ (u.ch c).shadowDuty = (u.ch c).effectiveDuty ∧ (u.ch c).fault.isNew = false
  cuts : u.cuts = { isolate := s.pins.isolate, supply := false }
  link : u.link = LinkController.reset
  diag : u.diag = State.reset.diag
  timer : u.timer = { running := true, number := 0, completed := 0, markPending := false }
  modulator : u.modulator = { running := true, step := 0 }
  signal : u.signal = { (handOut buffer s).signal with inputs := din }
  loader : u.loader = (handOut buffer s).loader
  sense : u.sense = s.sense
  peers : u.peers = s.peers
  reservations : u.reservations = []
  budget : u.budget = BudgetUnit.reset
  pins : u.pins = s.pins

theorem readyState_started (held : s.HeldAtReset) (h : s.isLoaded = false) : s.Started buffer din (readyState buffer din s) := by
  obtain ⟨sched, link, cuts, sense, signal, reservations, budget, diag⟩ := held.blocks h
  have ch := startedState_ch buffer din held h
  have ch := startedState_ch buffer din held h
  have off (c : Chan) : ((startedState buffer din s).ch c).state = .off := by rw [ch]; rfl
  have usignal : (startedState buffer din s).signal = { (handOut buffer s).signal with inputs := din } := startPeriods_signal _ din
  have usched : (startedState buffer din s).sched = State.reset.sched := by rw [startedState, startPeriods_eq, handOut_eq, ← sched]
  have ulink : (startedState buffer din s).link = LinkController.reset := by rw [startedState, startPeriods_eq, handOut_eq, ← link]
  have udiag : (startedState buffer din s).diag = State.reset.diag := by rw [startedState, startPeriods_eq, handOut_eq, ← diag]
  have ucuts : (startedState buffer din s).cuts = State.reset.cuts := by rw [startedState, startPeriods_eq, handOut_eq, ← cuts]
  have eq : startedState buffer din s = _ := startPeriods_eq din (handOut buffer s)
  by_cases isolate : s.pins.isolate = true
  · have ready : readyState buffer din s =
        changeCauses { (startedState buffer din s).cuts with isolate := true } (startedState buffer din s) := if_pos isolate
    have ruled : (startedState buffer din s).AdmissionRuled := (admissionRuled_iff _).mpr (admits_of_reset ch usched)
    obtain ⟨pins, ncuts, nsense, modulator, cut, _⟩ :=
      changeCauses_joins_keeps (x := { (startedState buffer din s).cuts with isolate := true }) (s := startedState buffer din s) (by simp [CutCauses.isEmpty]) ruled
    obtain ⟨channels, nsched, nlink, ndiag, kept⟩ := cut cuts
    obtain ⟨timer, nsignal, peers, nreservations, nbudget, loader, pending, _⟩ := kept
    rw [ready]
    generalize changeCauses _ (startedState buffer din s) = u at *
    have quiet (c : Chan) : (startedState buffer din s).surging c = false := by simp [State.surging, off]
    have unclaimed : (startedState buffer din s).sched.ordinary = none := by rw [usched]; rfl
    have ulink := nlink.1 fun c ⟨_, surges, _⟩ => by simp [off] at surges
    rw [unclaimed, eq, handOut_eq] at ulink
    exact {
      rests := {
        dark := fun c => .inr (channels c).1
        idle := fun c => by
          obtain ⟨_, _, _, _, _, _, _, _, level, _⟩ := channels c
          rw [level, ch]
          rfl
        sched := by
          rw [nsched, usched]
          simp [State.reset] }
      state := fun c => by rw [(channels c).1, if_pos isolate]
      dark := fun c => by
        obtain ⟨_, effective, shadow, active, _, _, _, _, _, _, fault⟩ := channels c
        rw [effective, shadow, active, fault, ch]
        exact ⟨rfl, rfl, rfl⟩
      cuts := by rw [ncuts, isolate, ucuts]; rfl
      link := ulink.trans link
      diag := ndiag.trans udiag
      timer := by rw [timer, eq]
      modulator := by rw [modulator, eq]
      signal := nsignal.trans usignal
      loader := by rw [loader, eq]
      sense := by rw [nsense, eq, handOut_eq]
      peers := by rw [peers, eq, handOut_eq]
      reservations := by rw [nreservations, eq, handOut_eq, reservations]
      budget := by rw [nbudget, eq, handOut_eq, budget]
      pins := by rw [pins, eq, handOut_eq] }
  · have ready : readyState buffer din s = startedState buffer din s := if_neg isolate
    rw [ready]
    exact {
      rests := { dark := fun c => .inl (off c), idle := fun c => by rw [ch]; rfl, sched := usched }
      state := fun c => by rw [off, if_neg isolate]
      dark := fun c => by rw [ch]; exact ⟨rfl, rfl, rfl⟩
      cuts := by rw [Bool.eq_false_iff.mpr isolate]; exact ucuts
      link := ulink
      diag := udiag
      timer := by rw [eq]
      modulator := by rw [eq]
      signal := usignal
      loader := by rw [eq]
      sense := by rw [eq, handOut_eq]
      peers := by rw [eq, handOut_eq]
      reservations := by rw [eq, handOut_eq, reservations]
      budget := by rw [eq, handOut_eq, budget]
      pins := by rw [eq, handOut_eq] }

end Sys2Proof.Machine


namespace Sys2Proof.Machine

variable {s u t : State} {c : Chan} (buffer : List Byte) (din : DinLevels)

/-- The first RESERVE of an idle link waits in its slot. -/
theorem reset_handOver_reserve (cls : Cls) (c : Chan) (amount hold : Nat) :
    LinkController.reset.handOver (.reserve .announce cls c amount hold) =
      { LinkController.reset with slots :=
        { LinkController.reset.slots with reserveAnnounce := some (.reserve .announce cls c amount hold) } } := rfl

theorem storeOf_expired (own : Stn) (table : List Binding) :
    ∀ e ∈ storeOf own table, e.value = 0 ∧ e.age = 255 ∧ e.state = .expired := by
  rw [storeOf_eq_foldl]
  refine List.foldlRecOn table (storeWith own)
    (motive := fun store => ∀ e ∈ store, e.value = 0 ∧ e.age = 255 ∧ e.state = .expired)
    (fun _ mem => absurd mem List.not_mem_nil) fun store h b _ => ?_
  unfold storeWith
  split
  · exact h
  · intro e mem
    obtain held | new := List.mem_append.mp mem
    · exact h e held
    · rw [List.mem_singleton.mp new]
      exact ⟨rfl, rfl, rfl⟩

theorem handOut_loader (s : State) : (handOut buffer s).loader =
    { phase := .loaded, station := s.loader.station, buffer := buffer
      runMode := if imageAccepted buffer = true then .running else .limp
      config := some (if imageAccepted buffer = true then imageConfiguration buffer else limpConfiguration) } := by
  simp only [handOut, State.setSignal, State.setLoader, checkImage]
  split <;> rfl

theorem handOut_signal (held : s.signal = State.reset.signal) : (handOut buffer s).signal =
    { State.reset.signal with bindings := tableOf buffer, store := storeOf s.loader.station (tableOf buffer) } := by
  have own : (checkImage buffer s.loader).station = s.loader.station := by
    unfold checkImage
    split <;> rfl
  simp [handOut, State.setSignal, State.setLoader, State.own, own, held]

theorem State.Started.ready (started : s.Started buffer din u) (signal : s.signal = State.reset.signal) :
    s.Started buffer din (u.setSignal { u.signal with phaseOn := flashPhase 0 }) := by
  have same : ({ u.signal with phaseOn := flashPhase 0 } : SignalUnit) = u.signal := by
    rw [started.signal, handOut_signal buffer signal]
    rfl
  have state : u.setSignal { u.signal with phaseOn := flashPhase 0 } = u := by rw [same]; rfl
  rwa [state]

theorem loadEnd_resolved (held : s.HeldAtReset) (h : s.isLoaded = false) :
    ∃ u v, s.Started buffer din u ∧ WakeProgress u u.resolved 16 v ∧ u.KeptByParts v ∧ v.blank = u.blank ∧
      loadEnd buffer din s = startListening (publish v) := by
  obtain ⟨_, _, _, _, signal, _⟩ := held.blocks h
  have started := (readyState_started buffer din held h).ready buffer din signal
  exact ⟨_, _, started, started.rests.resolve, resolveEnabled_kept _, resolveEnabled_blank _, rfl⟩

/-- What the first resolution makes of a channel that was dark and without demand (R7, R169). -/
theorem State.Started.channel (started : s.Started buffer din u) (c : Chan) :
    let y := u.resolved c
    y.demandLevel = (if (u.cfg c).enabled = true then u.level c else 0) ∧ y.activeDuty = 0 ∧
    y.state =
      (if s.pins.isolate = true then .cut
       else if (u.cfg c).enabled = true ∧ demandOn (u.cfg c).mode (u.level c) = true then
         (if (u.cfg c).cls = 0 then .inrush else .requested)
       else .off) ∧
    y.shadowDuty = y.effectiveDuty ∧
    (y.state = .inrush → y.effectiveDuty = y.demandDuty ∧ y.inrushRemaining = (u.cfg c).window ∧ y.runningMarker = true) := by
  intro y
  have marker := started.rests.resolved_marker (c := c)
  have state := started.state c
  have idle : demandOn (u.cfg c).mode (u.ch c).demandLevel = false := started.rests.wants c
  obtain ⟨active, shadow, -⟩ := started.dark c
  by_cases enabled : (u.cfg c).enabled = true
  · have becomes : y = (u.ch c).delivered (u.cfg c) (u.level c) := if_pos enabled
    obtain ⟨level, _, follows, effective, copied, same, _, remaining, _⟩ :=
      (u.ch c).delivered_follows (k := u.cfg c) (level := u.level c)
    rw [← becomes] at level follows effective copied same remaining
    have waits : (u.ch c).state ≠ .inrush := by rw [state]; split <;> simp
    refine ⟨by rw [level, if_pos enabled], same.trans active, ?_, copied, fun surges => ⟨?_, ?_, marker surges⟩⟩
    · rw [follows, Channel.demandState, state, idle]
      by_cases isolate : s.pins.isolate = true <;> simp [isolate, enabled]
    · rw [effective, surges]
      rfl
    · rw [remaining, surges, if_neg waits.symm, if_pos rfl]
  · have stays : y = u.ch c := if_neg enabled
    have dark : y.state ≠ .inrush := by rw [stays, state]; split <;> simp
    refine ⟨?_, by rw [stays, active], ?_, by rw [stays, shadow], fun surges => absurd surges dark⟩
    · rw [stays, started.rests.idle, if_neg enabled]
    · rw [stays, state]
      simp [enabled]

theorem publish_signal_of_zero (zero : u.signal.pubCount = 0) : (publish u).signal = u.signal := by
  unfold publish
  split
  · rw [State.setSignal_signal, ← zero]
  · rfl

theorem publish_sched (s : State) : (publish s).sched = s.sched := by
  unfold publish
  split <;> rfl

/-- The first publication of an idle link waits in its slot beside the RESERVE (R74, R169). -/
theorem publish_first {reserve : Option Frame} (link : u.link =
    { LinkController.reset with slots := { LinkController.reset.slots with reserveAnnounce := reserve } }) :
    (publish u).link =
      { LinkController.reset with slots :=
        { LinkController.reset.slots with
          reserveAnnounce := reserve
          signal := if u.publishes = true then some (.signal u.signal.inputs) else none } } := by
  unfold publish
  split
  · rw [State.setSignal_link, State.handOver, State.setLink, link]
    rfl
  · exact link

end Sys2Proof.Machine

namespace Sys2Proof

open Machine

/-- Settles O8: the first resolution wakes the channels one after the other, each raising what those before it announced. -/
theorem readStopsSetsThePartGoing : Obligations.ReadStopsSetsThePartGoing := by
  intro s memory din held reading image
  have unloaded : s.isLoaded = false := by simp [State.isLoaded, reading]
  obtain ⟨u, v, started, woken, kept, blank, ends⟩ := loadEnd_resolved (readImage memory) din held unloaded
  refine ⟨_, exec_readStops reading memory din, ?_⟩
  rw [ends]
  obtain ⟨_, _, _, sense, ssignal, _, _, _⟩ := held.blocks unloaded
  obtain ⟨t, made⟩ : ∃ t, t = startListening (publish v) := ⟨_, rfl⟩
  have signal : v.signal = u.signal := signal_of_blank blank
  have usignal := started.signal.trans (congrArg (fun x => { x with inputs := din }) (handOut_signal (readImage memory) ssignal))
  have pub := publish_kept v
  have loader : t.loader = u.loader := by rw [made, startListening_loader, pub.loader, kept.loader]
  have cfg (c : Chan) : t.cfg c = u.cfg c := cfg_congr loader c
  have ch (c : Chan) : t.ch c = u.resolved c := by
    rw [made, startListening_ch, publish_ch, woken.channels c, if_pos c.isLt]
  have vch (c : Chan) : v.ch c = t.ch c := by rw [made, startListening_ch, publish_ch]
  have vcfg (c : Chan) : v.cfg c = t.cfg c := by rw [cfg, cfg_congr woken.loader]
  have level (c : Chan) : t.level c = u.level c := by
    rw [made, startListening_level, publish_level, level_of_blank blank]
  have tsignal : t.signal = u.signal := by
    rw [made, startListening_signal, publish_signal_of_zero (by rw [signal, usignal]; rfl), signal]
  have tloader := loader.trans (started.loader.trans (handOut_loader (readImage memory) s))
  have tbindings : t.signal.bindings = tableOf (readImage memory) := by rw [tsignal, usignal]
  have tstore : t.signal.store = storeOf s.loader.station t.signal.bindings := by rw [tbindings, tsignal, usignal]
  have surging (c : Chan) : t.surging c = true ↔ (t.cfg c).cls = 0 ∧ (t.ch c).state = .inrush := by simp [State.surging]
  have amount : v.surgeAmount = t.surgeAmount := surgeAmount_congr vcfg fun c => by rw [vch]
  have hold : v.surgeHold = t.surgeHold := surgeHold_congr vcfg vch
  have sum : t.surgeAmount = t.SurgeSum t := surgeAmount_eq fun _ => rfl
  have span : t.surgeHold = t.SurgeSpan t := surgeHold_eq fun _ => rfl
  have raised (c : Chan) : v.Raises c ↔ t.Raises c := State.raises_congr vcfg fun d _ => vch d
  have tsched : t.sched = { v.sched with listen := 2 } := by rw [made, ← publish_sched v]; rfl
  have vlink : ∃ reserve, v.link =
      { LinkController.reset with slots := { LinkController.reset.slots with reserveAnnounce := reserve } } := by
    obtain same | ⟨_, _, _, handed⟩ := woken.handed
    · exact ⟨none, by rw [same, started.link]; rfl⟩
    · exact ⟨_, by rw [handed, started.link, reset_handOver_reserve]⟩
  obtain ⟨reserve, vlink⟩ := vlink
  have tlink : t.link = _ := (congrArg State.link made).trans (publish_first vlink)
  have window (c : Chan) (surges : t.surging c = true) : (t.ch c).inrushRemaining = (t.cfg c).window := by
    obtain ⟨_, _, _, _, begun⟩ := started.channel (readImage memory) din c
    rw [← ch, ← cfg] at begun
    exact (begun ((surging c).mp surges).2).2.1
  have raises (c : Chan) : t.Raises c ↔ ((t.cfg c).cls = 0 ∧ (t.ch c).state = .inrush) ∧
      (t.surgeBelow c < 4095 ∧ 0 < (t.cfg c).amount ∨ 0 < t.surgeBelow c + (t.cfg c).amount ∧
        ∀ d, d < c → (t.cfg d).cls = 0 ∧ (t.ch d).state = .inrush → (t.cfg d).window < (t.cfg c).window) := by
    rw [State.Raises, surging]
    refine and_congr_right fun surges => or_congr_right (and_congr_right fun _ => forall_congr' fun d => imp_congr_right fun _ => ?_)
    rw [← surging]
    refine imp_congr_right fun earlier => ?_
    rw [window d earlier, window c ((surging c).mpr surges)]
  rw [← made]
  refine ⟨tloader, ?_, ?_, ?_, ?_, ?_, tbindings, tstore, ?_, ?_, fun c => ⟨t.level c, levelIs_level t c, ?_⟩, ?_, ?_, ?_, ?_, ?_, ?_, ?_, ?_,
    ?_, ?_, ?_, ?_, ?_, ?_, ?_, ?_⟩
  · rw [made]; exact pub.timer.trans (kept.timer.trans started.timer)
  · rw [made]; exact pub.modulator.trans (kept.modulator.trans started.modulator)
  · rw [tsignal, usignal]
  · rw [tsignal, usignal]; rfl
  · rw [tsignal, usignal]; rfl
  · rw [tstore]; exact storeOf_expired _ _
  · rw [made]; exact pub.cuts.trans (kept.cuts.trans started.cuts)
  · obtain ⟨demand, active, state, shadow, begun⟩ := started.channel (readImage memory) din c
    rw [ch, level, cfg]
    exact ⟨demand, active, state, shadow, begun⟩
  · rw [tsched, ← sum, ← amount]; exact woken.amount
  · rw [tsched, ← span, ← hold]; exact woken.hold
  · intro zero
    have quiet (d : Chan) : ¬v.Raises d := fun first => by
      have := first.amount_pos
      omega
    have still := woken.silent quiet
    rw [started.link, vlink] at still
    rw [tlink]
    exact congrArg (fun l : LinkController => l.slots.reserveAnnounce) still
  · intro surges before raises' c first after
    have handed := woken.last c ((raised c).mpr ((raises c).mpr first)) fun d later again =>
      after d later ((raises d).mp ((raised d).mp again))
    rw [started.link, vlink, reset_handOver_reserve, amount, hold, sum, span] at handed
    rw [tlink]
    exact congrArg (fun l : LinkController => l.slots.reserveAnnounce) handed
  · obtain ⟨_, slink, _⟩ := held.blocks unloaded
    rw [tlink, slink]
  · have queue := woken.queue
    rw [List.take_of_length_le (by simp [allChans]), started.rests.sched] at queue
    rw [tsched]
    refine queue.trans (List.filter_congr fun c _ => ?_)
    rw [ch]
  · rw [tsched]; exact woken.ordinary.trans (congrArg Scheduler.ordinary started.rests.sched)
  · rw [tsched]
  · rw [tsched]; exact kept.counts.2.1.trans (congrArg Scheduler.deferral started.rests.sched)
  · have inputs : v.signal.inputs = din := by rw [signal, usignal]
    have publishes : v.publishes = t.publishes := by
      rw [State.publishes, State.publishes, params_congr (s := v) (t := t) (by rw [loader, kept.loader]), loader, kept.loader]
    rw [tlink, inputs, publishes]
    simp only [publishes_iff]
  · rw [tlink]; rfl
  · rw [made]; exact pub.reservations.trans (kept.reservations.trans started.reservations)
  · have diag : (publish v).diag = State.reset.diag := pub.diag.trans (kept.diag.trans started.diag)
    have calm : (publish v).listenAgain.faultCondition = false := by
      refine Bool.eq_false_iff.mpr fun fault => ?_
      obtain ⟨c, new⟩ | overload | clash := (faultCondition_iff _).mp fault
      · rw [State.listenAgain_ch, publish_ch, vch, ch, State.resolved] at new
        have old := (started.dark c).2.2
        split at new
        · rw [Channel.delivered_isNew, old] at new
          exact Bool.false_ne_true new
        · rw [old] at new
          exact Bool.false_ne_true new
      · rw [State.listenAgain_budget, pub.budget, kept.budget, started.budget] at overload
        exact Bool.false_ne_true overload
      · rw [State.listenAgain_diag, diag] at clash
        exact Bool.false_ne_true clash
    rw [made, startListening, State.refreshFault_diag, State.listenAgain_diag, diag, calm]
    rfl
  · rw [made]; exact pub.sense.trans (kept.sense.trans started.sense)
  · rw [made]; exact pub.peers.trans (kept.peers.trans started.peers)
  · rw [made]; exact pub.pins.trans (kept.pins.trans started.pins)

end Sys2Proof


/-! ### Orders and what comes between them -/

namespace Sys2Proof.Machine

section
variable {s : State} {aside : Chan → Prop} {g : Chan → Channel} {x : Course} {d : Chan}

/-- A course of orders on the channels of `s`: the configuration and the draws stand, and the channels that the events leave
alone are what `g` gives. -/
structure Course.Stands (s : State) (aside : Chan → Prop) (g : Chan → Channel) (x : Course) : Prop where
  loader : x.now.loader = s.loader
  draws : ∀ c, (x.now.ch c).epochDraw = (s.ch c).epochDraw
  channels : ∀ c, ¬aside c → x.now.ch c = g c
  events : EventsAt aside x.between

/-- An order to channel `d`, which makes `f` of the channel as it was read. -/
structure ActsAt (s : State) (act : State → State → State) (d : Chan) (f : Channel → Channel) : Prop where
  loader : ∀ read u, u.loader = s.loader → (act read u).loader = s.loader
  other : ∀ read u, u.loader = s.loader → ∀ c, c ≠ d → (act read u).ch c = u.ch c
  draw : ∀ read u, u.loader = s.loader → ((act read u).ch d).epochDraw = (u.ch d).epochDraw
  own : ∀ read u, read.loader = s.loader → u.loader = s.loader → read.ch d = u.ch d → (act read u).ch d = f (u.ch d)

theorem Course.Stands.cfg (h : x.Stands s aside g) (c : Chan) : x.now.cfg c = s.cfg c := cfg_congr h.loader c

theorem Course.Stands.event (h : x.Stands s aside g) {event : State → State} {rest : List (State → State)}
    (next : x.between = event :: rest) : Course.Stands s aside g { between := rest, now := event x.now } := by
  have events := h.events
  rw [next] at events
  obtain ⟨loader, channels⟩ := events event List.mem_cons_self x.now
  exact ⟨loader.trans h.loader, fun c => (channels c).1.trans (h.draws c),
    fun c still => ((channels c).2 still).trans (h.channels c still), fun e mem => events e (List.mem_cons_of_mem _ mem)⟩

theorem Course.Stands.pass (h : x.Stands s aside g) : x.pass.Stands s aside g := by
  unfold Course.pass
  split
  · exact h
  · rename_i next
    exact h.event next

theorem Course.Stands.finish (h : x.Stands s aside g) (c : Chan) (still : ¬aside c) : x.finish.ch c = g c := by
  obtain ⟨between, now⟩ := x
  induction between generalizing now with
  | nil => exact h.channels c still
  | cons event rest ih => exact ih _ (h.event rfl)

theorem Course.Stands.order {act : State → State → State} {f : Channel → Channel} (h : x.Stands s aside g)
    (acts : ActsAt s act d f) : (x.order act).Stands s aside (Function.update g d (f (g d))) := by
  have read := h.pass
  have now := read.pass
  refine ⟨acts.loader _ _ now.loader, fun c => ?_, fun c still => ?_, now.events⟩
  · by_cases own : c = d
    · rw [own]
      exact (acts.draw _ _ now.loader).trans (now.draws d)
    · exact (congrArg Channel.epochDraw (acts.other _ _ now.loader c own)).trans (now.draws c)
  · by_cases own : c = d
    · subst own
      rw [Function.update_self, ← now.channels c still]
      exact acts.own _ _ read.loader now.loader ((read.channels c still).trans (now.channels c still).symm)
    · rw [Function.update_of_ne own]
      exact (acts.other _ _ now.loader c own).trans (now.channels c still)

theorem Course.Stands.orders {act : Chan → State → State → State} {f : Chan → Channel → Channel} {chans : List Chan}
    (h : x.Stands s aside g) (acts : ∀ d, ActsAt s (act d) d (f d)) (once : chans.Nodup) :
    (x.orders act chans).Stands s aside fun c => if c ∈ chans then f c (g c) else g c := by
  induction chans generalizing x g with
  | nil => simp only [List.not_mem_nil, if_false]; exact h
  | cons d rest ih =>
    obtain ⟨fresh, once⟩ := List.nodup_cons.mp once
    have after := ih (h.order (acts d)) once
    have gives : (fun c => if c ∈ rest then f c (Function.update g d (f d (g d)) c) else Function.update g d (f d (g d)) c) =
        fun c => if c ∈ d :: rest then f c (g c) else g c := by
      funext c
      by_cases own : c = d
      · simp [own, fresh]
      · simp [own]
    rwa [gives] at after

/-- The channels of a list that are reached while those before them draw less than `need`. -/
def reached (draw : Chan → Nat) (need : Nat) : List Chan → Nat → List Chan
  | [], _ => []
  | c :: rest, sum => if need ≤ sum then [] else c :: reached draw need rest (sum + draw c)

theorem mem_reached {draw : Chan → Nat} {need : Nat} {chans : List Chan} {sum : Nat} {c : Chan} :
    c ∈ reached draw need chans sum ↔
      ∃ before after, chans = before ++ c :: after ∧ sum + (before.map draw).sum < need := by
  induction chans generalizing sum with
  | nil => simp [reached]
  | cons d rest ih =>
    rw [reached]
    split
    · rename_i enough
      simp only [List.not_mem_nil, false_iff]
      rintro ⟨_, _, _, less⟩
      omega
    · rename_i short
      rw [List.mem_cons, ih]
      constructor
      · rintro (rfl | ⟨before, after, rfl, less⟩)
        · exact ⟨[], rest, rfl, by simpa using short⟩
        · exact ⟨d :: before, after, rfl, by simp only [List.map_cons, List.sum_cons]; omega⟩
      · rintro ⟨before, after, eq, less⟩
        obtain ⟨rfl, same⟩ | ⟨tail, rfl, rfl⟩ := List.cons_eq_append_iff.mp eq
        · exact .inl (List.cons.inj same).1
        · exact .inr ⟨tail, after, rfl, by simp only [List.map_cons, List.sum_cons] at less; omega⟩

theorem reached_subset {draw : Chan → Nat} {need : Nat} {chans : List Chan} {sum : Nat} {c : Chan}
    (mem : c ∈ reached draw need chans sum) : c ∈ chans := by
  obtain ⟨_, _, rfl, _⟩ := mem_reached.mp mem
  simp

end

section
variable (s : State) (d : Chan)

/-- What a shed order makes of a channel in ON (R124). -/
def shedTo (reason : ShedReason) (y : Channel) : Channel :=
  if y.state = .on ∧ (s.cfg d).cls ≠ 0 then y.ShedFor reason else y

/-- What a throttle order makes of a channel in ON (R125). -/
def throttledTo (p r : Nat) (y : Channel) : Channel :=
  if (y.state = .on ∧ (s.cfg d).cls ≠ 0) ∧ (s.cfg d).mode = .pwm then
    if (s.cfg d).minDuty ≤ throttleCap y.effectiveDuty p r then y.CappedAt (throttleCap y.effectiveDuty p r)
    else y.ShedFor .budget
  else y

/-- What an order to raise the cap makes of a channel in ON (R127). -/
def raisedTo (y : Channel) : Channel :=
  if y.state = .on ∧ (s.cfg d).cls ≠ 0 then y.CappedAt (min 255 (y.cap + s.params.restoreStep)) else y

/-- What an order to restore makes of a channel in SHED (R130). -/
def restoredTo (y : Channel) : Channel :=
  if y.state = .shed then
    { y with state := .requested, shedReason := .none, cap := 255, effectiveDuty := 0, shadowDuty := 0, inrushRemaining := 0 }
  else y

variable {s d}

theorem actsAt_of_ch {act : State → State → State} {f : Channel → Channel}
    (loader : ∀ read u, (act read u).loader = u.loader)
    (ch : ∀ read u, u.loader = s.loader → ∃ y : Channel, y.epochDraw = (u.ch d).epochDraw ∧
      (∀ c, (act read u).ch c = if c = d then y else u.ch c) ∧
      (read.loader = s.loader → read.ch d = u.ch d → y = f (u.ch d))) : ActsAt s act d f where
  loader read u same := (loader read u).trans same
  other read u same c other := by
    obtain ⟨y, _, becomes, _⟩ := ch read u same
    rw [becomes, if_neg other]
  draw read u same := by
    obtain ⟨y, draw, becomes, _⟩ := ch read u same
    rw [becomes, if_pos rfl, draw]
  own read u was same held := by
    obtain ⟨y, _, becomes, value⟩ := ch read u same
    rw [becomes, if_pos rfl, value was held]

/-- An order that acts where a condition holds. -/
theorem ite_setCh_ch (p : Prop) [Decidable p] (u : State) (y : Channel) (c : Chan) :
    (if p then u.setCh d y else u).ch c = if c = d then (if p then y else u.ch d) else u.ch c := by
  by_cases own : c = d
  · subst own
    split <;> simp
  · split <;> simp [State.setCh_ch, own]

theorem shed_acts (reason : ShedReason) : ActsAt s (fun _ => shed d reason) d (shedTo s d reason) :=
  actsAt_of_ch (fun _ u => shed_loader d reason u) fun _ u same => ⟨shedTo s d reason (u.ch d), by unfold shedTo; split <;> rfl,
    fun c => by rw [shed_eq, ite_setCh_ch, cfg_congr same]; rfl, fun _ _ => rfl⟩

theorem throttle_acts (p r : Nat) :
    ActsAt s (fun read => throttle d (throttleCap (read.ch d).effectiveDuty p r)) d (throttledTo s d p r) := by
  refine actsAt_of_ch (fun _ u => throttle_loader d _ u) fun read u same => ⟨_, ?_,
    fun c => by rw [throttle_eq, ite_setCh_ch, cfg_congr same], fun _ held => by rw [held]; rfl⟩
  split_ifs <;> rfl

theorem capRaise_acts : ActsAt s (fun read => capRaise d read.params.restoreStep) d (raisedTo s d) := by
  refine actsAt_of_ch (fun _ u => capRaise_loader d _ u) fun read u same => ⟨_, ?_,
    fun c => by rw [capRaise_eq, ite_setCh_ch, cfg_congr same], fun was _ => by rw [params_congr was]; rfl⟩
  split_ifs <;> rfl

theorem restore_acts (other : (s.cfg d).cls ≠ 0) : ActsAt s (fun _ => restore d) d restoredTo := by
  refine actsAt_of_ch (fun _ u => restore_loader d u) fun _ u same => ⟨restoredTo (u.ch d), ?_, fun c => ?_, fun _ _ => rfl⟩
  · unfold restoredTo
    split <;> rfl
  · have known : (u.cfg d).cls ≠ 0 := by rwa [cfg_congr same]
    rw [restore_eq d u known]
    unfold restoredTo
    have becomes := ite_setCh_ch (d := d) ((u.ch d).state = .shed) u
      { u.ch d with state := .requested, shedReason := .none, cap := 255, effectiveDuty := 0, shadowDuty := 0,
                    inrushRemaining := 0 } c
    rw [← becomes]
    split
    · exact ch_congr rfl c
    · rfl

theorem Course.Stands.shedUntil {need : Nat} {chans : List Chan} {sum : Nat} {aside : Chan → Prop} {g : Chan → Channel}
    {x : Course} (h : x.Stands s aside g) (once : chans.Nodup) :
    (shedUntil need chans sum x).Stands s aside fun c =>
      if c ∈ reached (fun c => (s.ch c).epochDraw) need chans sum then shedTo s c .budget (g c) else g c := by
  induction chans generalizing x g sum with
  | nil => simp only [reached, List.not_mem_nil, if_false]; exact h
  | cons d rest ih =>
    obtain ⟨fresh, once⟩ := List.nodup_cons.mp once
    rw [Machine.shedUntil, reached]
    split
    · simp only [List.not_mem_nil, if_false]
      exact h
    · rw [h.draws d]
      have after := ih (sum := sum + (s.ch d).epochDraw) (h.order (shed_acts (d := d) .budget)) once
      have unreached : d ∉ reached (fun c => (s.ch c).epochDraw) need rest (sum + (s.ch d).epochDraw) :=
        fun mem => fresh (reached_subset mem)
      have gives : (fun c => if c ∈ reached (fun c => (s.ch c).epochDraw) need rest (sum + (s.ch d).epochDraw) then
            shedTo s c .budget (Function.update g d (shedTo s d .budget (g d)) c)
          else Function.update g d (shedTo s d .budget (g d)) c) =
          fun c => if c ∈ d :: reached (fun c => (s.ch c).epochDraw) need rest (sum + (s.ch d).epochDraw) then
            shedTo s c .budget (g c) else g c := by
        funext c
        by_cases own : c = d
        · simp [own, unreached]
        · simp [own]
      rwa [gives] at after

end

end Sys2Proof.Machine


/-! ### The parts of an evaluation, whatever comes between their orders -/

namespace Sys2Proof.Machine

variable {s u : State} {aside : Chan → Prop} {k : Cls} {r : Nat} {x : Course}

/-- Ascending shed rank, then channel number (R126). -/
abbrev State.RanksBefore (s : State) (d c : Chan) : Prop :=
  (s.cfg d).shedRank < (s.cfg c).shedRank ∨ (s.cfg d).shedRank = (s.cfg c).shedRank ∧ d < c

theorem State.RanksBefore.asymm {d c : Chan} (before : s.RanksBefore d c) : ¬s.RanksBefore c d := by
  unfold State.RanksBefore at before ⊢
  rw [Fin.lt_def] at before ⊢
  omega

theorem State.RanksBefore.ne {d c : Chan} (before : s.RanksBefore d c) : d ≠ c := by
  rintro rfl
  exact before.asymm before

theorem of_mem_byRank {chans : List Chan} {c : Chan} (mem : c ∈ s.byRank chans) : c ∈ chans := by
  obtain ⟨_, _, ranked⟩ := List.mem_flatMap.mp mem
  exact (List.mem_filter.mp ranked).1

theorem mem_byRank {chans : List Chan} (ranks : ∀ c, (s.cfg c).shedRank ≤ 15) {c : Chan} :
    c ∈ s.byRank chans ↔ c ∈ chans := by
  simp only [State.byRank, List.mem_flatMap, List.mem_range, List.mem_filter, decide_eq_true_eq]
  exact ⟨fun ⟨_, _, mem, _⟩ => mem, fun mem => ⟨_, Nat.lt_succ_of_le (ranks c), mem, rfl⟩⟩

/-- The channels of `allChans` that pass a test stand in ascending rank and number. -/
theorem byRank_sorted (test : Chan → Bool) : (s.byRank (allChans.filter test)).Pairwise s.RanksBefore := by
  have ascending : (allChans.filter test).Pairwise (· < ·) := (List.pairwise_lt_finRange 16).filter _
  refine List.pairwise_flatMap.mpr ⟨fun rank _ => ?_, ?_⟩
  · refine (ascending.filter _).imp_of_mem fun hd hc less => ?_
    have first := of_decide_eq_true (List.mem_filter.mp hd).2
    have second := of_decide_eq_true (List.mem_filter.mp hc).2
    exact .inr ⟨first.trans second.symm, less⟩
  · refine List.pairwise_lt_range.imp fun less d hd c hc => ?_
    have first := of_decide_eq_true (List.mem_filter.mp hd).2
    have second := of_decide_eq_true (List.mem_filter.mp hc).2
    exact .inl (by omega)

theorem byRank_nodup (test : Chan → Bool) : (s.byRank (allChans.filter test)).Nodup :=
  (byRank_sorted test).imp fun before => State.RanksBefore.ne before

/-- Among the channels that pass a test, what those before `c` draw. -/
theorem sum_before {test : Chan → Bool} (ranks : ∀ c, (s.cfg c).shedRank ≤ 15) (f : Chan → Nat) {before after : List Chan} {c : Chan}
    (split : s.byRank (allChans.filter test) = before ++ c :: after) :
    (before.map f).sum = sumChans (fun d => test d && decide (s.RanksBefore d c)) f := by
  have sorted := byRank_sorted (s := s) test
  have once := byRank_nodup (s := s) test
  have mem (d : Chan) : d ∈ before ++ c :: after ↔ test d = true := by
    rw [← split, mem_byRank ranks]
    simp [mem_allChans]
  rw [split] at sorted once
  obtain ⟨_, tail, cross⟩ := List.pairwise_append.mp sorted
  refine List.Perm.sum_eq (List.Perm.map _ ((List.perm_ext_iff_of_nodup (List.nodup_append.mp once).1
    (allChans_nodup.filter _)).mpr fun d => ?_))
  simp only [List.mem_filter, mem_allChans, true_and, Bool.and_eq_true, decide_eq_true_eq]
  constructor
  · intro earlier
    exact ⟨(mem d).mp (List.mem_append_left _ earlier), cross d earlier c List.mem_cons_self⟩
  · rintro ⟨passes, ahead⟩
    obtain earlier | rest := List.mem_append.mp ((mem d).mpr passes)
    · exact earlier
    · obtain rfl | later := List.mem_cons.mp rest
      · exact absurd rfl ahead.ne
      · have behind := List.rel_of_pairwise_cons tail later
        exact absurd ahead behind.asymm

theorem Course.Stands.start (now : x.now = s) (events : EventsAt aside x.between) : x.Stands s aside s.ch :=
  ⟨by rw [now], fun _ => by rw [now], fun _ _ => by rw [now], events⟩

theorem Course.Stands.gives {g f : Chan → Channel} (h : x.Stands s aside g) (same : ∀ c, g c = f c) : x.Stands s aside f :=
  ⟨h.loader, h.draws, fun c still => (h.channels c still).trans (same c), h.events⟩

/-- With nothing between, every channel is what the orders make of it. -/
theorem Course.Stands.quiet {g : Chan → Channel} (h : Course.Stands s (fun _ => False) g x) (c : Chan) : x.now.ch c = g c :=
  h.channels c not_false

theorem shedTo_shedTo (s : State) (c : Chan) (reason : ShedReason) (y : Channel) :
    shedTo s c reason (shedTo s c reason y) = shedTo s c reason y := by
  unfold shedTo
  split_ifs with acts again
  · exact absurd again.1 (by simp)
  · rfl
  · rfl

/-- What the eligible DC channels before `c` draw (R126). -/
abbrev State.drawBefore (s : State) (k : Cls) (c : Chan) : Nat :=
  sumChans (fun d => s.eligibleDc k d && decide (s.RanksBefore d c)) fun d => (s.ch d).epochDraw

/-- What a cut of `r` in class `k` makes of a channel (R124–R126). -/
def State.cutGives (s : State) (k : Cls) (r : Nat) (c : Chan) : Channel :=
  if 0 < s.pwmDraw k ∧ r ≤ s.pwmDraw k then
    if s.eligiblePwm k c = true then throttledTo s c (s.pwmDraw k) r (s.ch c) else s.ch c
  else if s.eligiblePwm k c = true ∨ c ∈ reached (fun c => (s.ch c).epochDraw) (r - s.pwmDraw k)
      (s.byRank (allChans.filter (s.eligibleDc k))) 0 then
    shedTo s c .budget (s.ch c)
  else s.ch c

theorem mem_reached_byRank (ranks : ∀ c, (s.cfg c).shedRank ≤ 15) (test : Chan → Bool) (f : Chan → Nat) (need : Nat) (c : Chan) :
    c ∈ reached f need (s.byRank (allChans.filter test)) 0 ↔
      test c = true ∧ sumChans (fun d => test d && decide (s.RanksBefore d c)) f < need := by
  rw [mem_reached]
  constructor
  · rintro ⟨before, after, split, less⟩
    have mem : c ∈ s.byRank (allChans.filter test) := by simp [split]
    rw [mem_byRank ranks, List.mem_filter] at mem
    exact ⟨mem.2, by rw [← sum_before ranks f split]; omega⟩
  · rintro ⟨passes, less⟩
    have mem : c ∈ s.byRank (allChans.filter test) := by
      rw [mem_byRank ranks, List.mem_filter]
      exact ⟨mem_allChans c, passes⟩
    obtain ⟨before, after, split⟩ := List.append_of_mem mem
    exact ⟨before, after, split, by rw [sum_before ranks f split]; omega⟩

/-- A cut, whatever comes between its orders (R124–R126). -/
theorem applyCutAmid_stands (cuts : 0 < r) (now : x.pass.now = s)
    (events : EventsAt aside x.pass.between) : (applyCutAmid k r x).Stands s aside (s.cutGives k r) := by
  have start := Course.Stands.start now events
  simp only [applyCutAmid, if_neg cuts.ne', now, Bool.and_eq_true, decide_eq_true_eq]
  unfold State.cutGives
  split_ifs with fits
  · have after := start.orders (chans := allChans.filter (s.eligiblePwm k)) (fun d => throttle_acts (d := d) (s.pwmDraw k) r)
      (allChans_nodup.filter _)
    exact after.gives fun c => by simp [mem_allChans]
  · have swept := start.orders (chans := allChans.filter (s.eligiblePwm k)) (fun d => shed_acts (d := d) .budget)
      (allChans_nodup.filter _)
    have after := swept.shedUntil (need := r - s.pwmDraw k) (sum := 0)
      (chans := s.byRank (allChans.filter (s.eligibleDc k))) (byRank_nodup _)
    refine Course.Stands.gives after fun c => ?_
    simp only [List.mem_filter, mem_allChans, true_and]
    by_cases pwm : s.eligiblePwm k c = true
    · simp only [pwm, if_true, true_or, shedTo_shedTo, ite_self]
    · simp only [pwm, if_false, false_or, Bool.false_eq_true]

/-- What the shed orders of a LOW supply make of a channel (R116). -/
def State.lowGives (s : State) (c : Chan) : Channel :=
  if s.sense.supply = .low ∧ (s.cfg c).cls = 3 ∧ (s.ch c).state = .on then (s.ch c).ShedFor .supply else s.ch c

theorem shedForSupplyAmid_stands (now : x.now = s) (passed : x.pass.now = s) (events : EventsAt aside x.between) :
    (shedForSupplyAmid x).Stands s aside s.lowGives := by
  have start := Course.Stands.start now events
  unfold shedForSupplyAmid State.lowGives
  rw [now]
  by_cases low : s.sense.supply = .low
  · rw [if_pos low]
    simp only [passed]
    have shed := (Course.Stands.start passed start.pass.events).orders (chans := allChans.filter s.shedsForSupply)
      (fun d => shed_acts (d := d) .supply) (allChans_nodup.filter _)
    refine shed.gives fun c => ?_
    simp only [List.mem_filter, mem_allChans, true_and, State.shedsForSupply, Bool.and_eq_true, decide_eq_true_eq, low]
    split_ifs with sheds
    · exact if_pos ⟨sheds.2, by simp [sheds.1]⟩
    · rfl
  · rw [if_neg low]
    exact start.gives fun c => by simp [low]

/-- What a restore step in class `k` makes of a channel (R127, R130). -/
def State.restoreGives (s : State) (k : Cls) (c : Chan) : Channel :=
  if ∃ d, s.capped k d = true then if s.capped k c = true then raisedTo s c (s.ch c) else s.ch c
  else if s.restoreChoice k = some c then restoredTo (s.ch c) else s.ch c

/-- The channel that a restore step picks is one to restore (R130). -/
theorem restorable_of_choice {c : Chan} (choice : s.restoreChoice k = some c) : (s.cfg c).cls = k ∧ (s.ch c).state = .shed := by
  have mem := (List.mem_filter.mp (of_mem_byRank (List.mem_of_getLast? choice))).2
  simp only [State.restorable, Bool.and_eq_true, decide_eq_true_eq] at mem
  exact ⟨mem.1, mem.2.1⟩

theorem restoreStepAmid_stands (pays : k ≠ 0) (now : x.now = s)
    (events : EventsAt aside x.between) : (restoreStepAmid k x).Stands s aside (s.restoreGives k) := by
  have start := Course.Stands.start now events
  have empty : (allChans.filter (s.capped k)).isEmpty = true ↔ ¬∃ d, s.capped k d = true := by
    simp [List.filter_eq_nil_iff, mem_allChans]
  unfold restoreStepAmid State.restoreGives
  simp only [now]
  by_cases some : ∃ d, s.capped k d = true
  · rw [if_neg (fun none => empty.mp none some)]
    have raised := start.orders (chans := allChans.filter (s.capped k)) (fun d => capRaise_acts (d := d)) (allChans_nodup.filter _)
    exact raised.gives fun c => by simp [mem_allChans, some]
  · rw [if_pos (empty.mpr some)]
    cases choice : s.restoreChoice k with
    | none => exact start.gives fun c => by simp [some]
    | some d =>
      have cls := (restorable_of_choice choice).1
      have restored := start.order (restore_acts (d := d) (by rwa [cls]))
      refine restored.gives fun c => ?_
      by_cases own : c = d
      · simp [some, own]
      · simp [some, own, Ne.symm own]

end Sys2Proof.Machine


namespace Sys2Proof.Machine

variable {s : State} {k : Cls} {r : Nat} {x : Course} {P : Course → Prop}

theorem Course.orders_induct {act : Chan → State → State → State} (order : ∀ c x, P x → P (x.order (act c))) (chans : List Chan)
    (h : P x) : P (x.orders act chans) := List.foldlRecOn chans _ h fun x h c _ => order c x h

theorem shedUntil_induct (order : ∀ c x, P x → P (x.order fun _ => shed c .budget)) (need : Nat) (chans : List Chan) (sum : Nat)
    (h : P x) : P (shedUntil need chans sum x) := by
  induction chans generalizing sum x with
  | nil => exact h
  | cons c rest ih =>
    rw [shedUntil]
    split
    · exact h
    · exact ih _ (order c x h)

/-- What every shed and throttle order keeps, a cut keeps. -/
theorem applyCutAmid_induct (sheds : ∀ c reason x, P x → P (x.order fun _ => shed c reason))
    (throttles : ∀ c (cap : State → Nat) x, P x → P (x.order fun read => throttle c (cap read))) (cuts : 0 < r) (h : P x.pass) :
    P (applyCutAmid k r x) := by
  simp only [applyCutAmid, if_neg cuts.ne']
  split
  · exact Course.orders_induct (fun c => throttles c _) _ h
  · exact shedUntil_induct (fun c => sheds c .budget) _ _ _ (Course.orders_induct (fun c => sheds c .budget) _ h)

/-- What every shed order keeps, the sheds for a LOW supply keep. -/
theorem shedForSupplyAmid_induct (sheds : ∀ c reason x, P x → P (x.order fun _ => shed c reason)) (passed : P x.pass) (h : P x) :
    P (shedForSupplyAmid x) := by
  unfold shedForSupplyAmid
  split
  · exact Course.orders_induct (fun c => sheds c .supply) _ passed
  · exact h

/-- What every raise and restore order keeps, a restore step keeps. -/
theorem restoreStepAmid_induct (raises : ∀ c x, P x → P (x.order fun read => capRaise c read.params.restoreStep))
    (restores : ∀ c x, P x → P (x.order fun _ => restore c)) (h : P x) : P (restoreStepAmid k x) := by
  simp only [restoreStepAmid]
  split
  · split
    · exact restores _ x h
    · exact h
  · exact Course.orders_induct raises _ h

/-! #### A channel that an event has taken out of ON and SHED -/

/-- The one event has not come yet, or the channel is as it left it. -/
def Course.Struck (s : State) (event : State → State) (c : Chan) (x : Course) : Prop :=
  (x.between = [event] ∧ x.now = s) ∨ (x.between = [] ∧ x.now.ch c = (event s).ch c)

variable {event : State → State} {c : Chan}

theorem Course.Struck.finish (h : x.Struck s event c) : x.finish.ch c = (event s).ch c := by
  obtain ⟨between, now⟩ | ⟨between, now⟩ := h
  · rw [Course.finish, between, now]
    rfl
  · rw [Course.finish, between]
    exact now

theorem Course.Struck.order {act : State → State → State} (h : x.Struck s event c)
    (spares : ∀ read u, u.ch c = (event s).ch c → (act read u).ch c = u.ch c) : (x.order act).Struck s event c := by
  obtain ⟨between, now⟩ := x
  obtain ⟨rfl, rfl⟩ | ⟨rfl, struck⟩ := h
  · exact .inr ⟨rfl, spares _ _ rfl⟩
  · exact .inr ⟨rfl, (spares _ _ struck).trans struck⟩

section
variable {u : State} (on : (u.ch c).state ≠ .on) (d : Chan)
include on

theorem shed_spares (reason : ShedReason) : (shed d reason u).ch c = u.ch c := by
  rw [shed_eq, ite_setCh_ch]
  split_ifs with own acts
  · exact absurd (own ▸ acts.1) on
  · rw [own]
  · rfl

theorem throttle_spares (cap : Nat) : (throttle d cap u).ch c = u.ch c := by
  rw [throttle_eq, ite_setCh_ch]
  by_cases own : c = d
  · subst own
    rw [if_pos rfl, if_neg fun acts => on acts.1.1]
  · rw [if_neg own]

theorem capRaise_spares (step : Nat) : (capRaise d step u).ch c = u.ch c := by
  rw [capRaise_eq, ite_setCh_ch]
  split_ifs with own acts
  · exact absurd (own ▸ acts.1) on
  · rw [own]
  · rfl

end

theorem restore_spares {u : State} (shed : (u.ch c).state ≠ .shed) (d : Chan) : (restore d u).ch c = u.ch c := by
  unfold restore
  split_ifs with acts
  · have own : c ≠ d := by
      rintro rfl
      exact shed acts
    unfold switchOn
    split <;> rw [enter_ch, if_neg own]
  · rfl

/-! #### With nothing between -/

/-- Only channels have moved, and nothing comes between. -/
def Course.OnlyChannels (s : State) (x : Course) : Prop :=
  x.between = [] ∧ x.now = { s with channels := x.now.channels }

theorem Course.OnlyChannels.order {act : State → State → State} (h : x.OnlyChannels s)
    (acts : ∀ u, act u u = { u with channels := (act u u).channels }) : (x.order act).OnlyChannels s := by
  obtain ⟨between, now⟩ := x
  obtain ⟨rfl, frame⟩ := h
  refine ⟨rfl, ?_⟩
  change act now now = { s with channels := (act now now).channels }
  rw [acts now]
  change now = { s with channels := now.channels } at frame
  rw [frame]

theorem shed_frame (c : Chan) (reason : ShedReason) (u : State) : shed c reason u = { u with channels := (shed c reason u).channels } := by
  rw [shed_eq]
  split <;> rfl

theorem throttle_frame (c : Chan) (cap : Nat) (u : State) : throttle c cap u = { u with channels := (throttle c cap u).channels } := by
  rw [throttle_eq]
  split <;> rfl

theorem capRaise_frame (c : Chan) (step : Nat) (u : State) : capRaise c step u = { u with channels := (capRaise c step u).channels } := by
  rw [capRaise_eq]
  split <;> rfl

theorem applyCut_frame (cuts : 0 < r) : applyCut k r s = { s with channels := (applyCut k r s).channels } :=
  (applyCutAmid_induct (P := Course.OnlyChannels s) (fun c reason _ h => h.order (shed_frame c reason))
    (fun c cap _ h => h.order fun u => throttle_frame c (cap u) u) cuts ⟨rfl, rfl⟩).2

theorem isCapped_iff : s.IsCapped k c ↔ s.capped k c = true := by simp [State.capped]

theorem isRestorable_iff : s.IsRestorable k c ↔ s.restorable k c = true := by
  unfold State.IsRestorable State.restorable reasonRestorable
  cases s.sense.supply <;> cases (s.ch c).shedReason <;> simp

theorem restoreStep_capped (some : ∃ c, s.capped k c = true) :
    restoreStep k s = { s with channels := (restoreStep k s).channels } := by
  obtain ⟨d, capped⟩ := some
  have filled : ¬(allChans.filter (s.capped k)).isEmpty = true := fun empty => by
    rw [List.isEmpty_iff, List.filter_eq_nil_iff] at empty
    exact empty d (mem_allChans d) capped
  rw [restoreStep, restoreStepAmid, if_neg filled]
  exact (Course.orders_induct (P := Course.OnlyChannels s) (fun c _ h => h.order fun u => capRaise_frame c _ u) _ ⟨rfl, rfl⟩).2

/-- The channel that a restore step picks: the last of the order of sheds (R130). -/
theorem restoreChoice_eq (ranks : ∀ c, (s.cfg c).shedRank ≤ 15) (holds : s.restorable k c = true)
    (last : ∀ d, s.restorable k d = true → d ≠ c → s.RanksBefore d c) : s.restoreChoice k = some c := by
  have mem (d : Chan) : d ∈ s.byRank (allChans.filter (s.restorable k)) ↔ s.restorable k d = true := by
    rw [mem_byRank ranks]
    simp [mem_allChans]
  obtain ⟨before, after, split⟩ := List.append_of_mem ((mem c).mpr holds)
  have sorted := byRank_sorted (s := s) (s.restorable k)
  rw [split] at sorted
  have tailless : after = [] := List.eq_nil_iff_forall_not_mem.mpr fun d later => by
    have behind := List.rel_of_pairwise_cons (List.pairwise_append.mp sorted).2.1 later
    exact behind.asymm (last d ((mem d).mp (by simp [split, later])) behind.ne.symm)
  rw [State.restoreChoice, split, tailless]
  simp

/-- With nothing between, or whatever comes between: the channels left alone are ordered alike. -/
theorem Course.Stands.agree {aside : Chan → Prop} {g : Chan → Channel} {y : Course} (h : x.Stands s aside g)
    (quiet : Course.Stands s (fun _ => False) g y) (c : Chan) (still : ¬aside c) : x.finish.ch c = y.now.ch c :=
  (h.finish c still).trans (quiet.quiet c).symm

theorem eventsAt_nil (aside : Chan → Prop) : EventsAt aside [] := fun _ mem => absurd mem List.not_mem_nil

theorem applyCut_stands (cuts : 0 < r) :
    Course.Stands s (fun _ => False) (s.cutGives k r) { between := [], now := applyCut k r s } := by
  rw [← applyCutAmid_quiet]
  exact applyCutAmid_stands cuts rfl (eventsAt_nil _)

theorem shedForSupply_stands (s : State) :
    Course.Stands s (fun _ => False) s.lowGives { between := [], now := shedForSupply s } := by
  rw [← shedForSupplyAmid_quiet]
  exact shedForSupplyAmid_stands rfl rfl (eventsAt_nil _)

theorem restoreStep_stands (pays : k ≠ 0) :
    Course.Stands s (fun _ => False) (s.restoreGives k) { between := [], now := restoreStep k s } := by
  rw [← restoreStepAmid_quiet]
  exact restoreStepAmid_stands pays rfl (eventsAt_nil _)

theorem applyCut_ch (cuts : 0 < r) (c : Chan) :
    (applyCut k r s).ch c = s.cutGives k r c := (applyCut_stands cuts).quiet c

theorem shedForSupply_ch (s : State) (c : Chan) : (shedForSupply s).ch c = s.lowGives c := (shedForSupply_stands s).quiet c

theorem restoreStep_ch (pays : k ≠ 0) (c : Chan) :
    (restoreStep k s).ch c = s.restoreGives k c := (restoreStep_stands pays).quiet c

theorem restoreStep_of_uncapped (free : ∀ d, ¬s.capped k d = true) :
    restoreStep k s = match s.restoreChoice k with | some c => restore c s | none => s := by
  have empty : (allChans.filter (s.capped k)).isEmpty = true := by
    rw [List.isEmpty_iff, List.filter_eq_nil_iff]
    exact fun d _ => free d
  exact (restoreStep_eq k s).trans ((if_pos empty).trans (by cases s.restoreChoice k <;> rfl))

/-- An event that changes nothing may come first. -/
theorem eventsAt_idle {aside : Chan → Prop} {between : List (State → State)} (events : EventsAt aside between) :
    EventsAt aside ((fun u => u) :: between) := by
  intro event mem u
  obtain rfl | rest := List.mem_cons.mp mem
  · exact ⟨rfl, fun _ => ⟨rfl, fun _ => rfl⟩⟩
  · exact events event rest u

/-- A DC channel without draw adds nothing. -/
theorem drawBefore_eq (s : State) (k : Cls) (c : Chan) : s.drawBefore k c =
    ((allChans.filter fun d => (s.cfg d).cls = k && ((s.ch d).state = .on && !(s.ch d).closedMarker &&
      (s.cfg d).mode = .dc) && ((s.cfg d).shedRank < (s.cfg c).shedRank ||
        (s.cfg d).shedRank = (s.cfg c).shedRank && d < c)).map fun d => (s.ch d).epochDraw).sum := by
  change _ = sumChans _ _
  rw [State.drawBefore, sumChans_eq_sum, sumChans_eq_sum]
  refine Finset.sum_congr rfl fun d _ => ?_
  by_cases idle : (s.ch d).epochDraw = 0
  · simp [idle]
  · simp [State.eligibleDc, State.eligible, Nat.pos_of_ne_zero idle, and_assoc]

theorem eligiblePwm_iff : s.eligiblePwm k c = true ↔
    ((s.cfg c).cls = k ∧ (s.ch c).state = .on ∧ (s.ch c).closedMarker = false) ∧ (s.cfg c).mode = .pwm := by
  simp [State.eligiblePwm, State.eligible]

theorem eligibleDc_iff : s.eligibleDc k c = true ↔
    ((s.cfg c).cls = k ∧ (s.ch c).state = .on ∧ (s.ch c).closedMarker = false) ∧ (s.cfg c).mode = .dc ∧ 0 < (s.ch c).epochDraw := by
  simp [State.eligibleDc, State.eligible]

/-- A cut within the PWM draw (R125). -/
theorem cutGives_of_fits (pays : k ≠ 0) (cuts : 0 < r) (fits : r ≤ s.pwmDraw k) (c : Chan) :
    s.cutGives k r c =
      if s.eligiblePwm k c = true then
        (if (s.cfg c).minDuty ≤ throttleCap (s.ch c).effectiveDuty (s.pwmDraw k) r then
          (s.ch c).CappedAt (throttleCap (s.ch c).effectiveDuty (s.pwmDraw k) r)
        else (s.ch c).ShedFor .budget)
      else s.ch c := by
  rw [State.cutGives, if_pos ⟨by omega, fits⟩]
  refine ite_congr rfl (fun pwm => ?_) fun _ => rfl
  obtain ⟨⟨cls, on, _⟩, mode⟩ := eligiblePwm_iff.mp pwm
  exact if_pos ⟨⟨on, by rwa [cls]⟩, mode⟩

/-- A cut above the PWM draw (R126). -/
theorem cutGives_of_exceeds (pays : k ≠ 0) (ranks : ∀ c, (s.cfg c).shedRank ≤ 15) (exceeds : s.pwmDraw k < r) (c : Chan) :
    s.cutGives k r c =
      if s.eligiblePwm k c = true ∨ s.eligibleDc k c = true ∧ s.drawBefore k c < r - s.pwmDraw k then
        (s.ch c).ShedFor .budget
      else s.ch c := by
  have reaches : c ∈ reached (fun c => (s.ch c).epochDraw) (r - s.pwmDraw k) (s.byRank (allChans.filter (s.eligibleDc k))) 0 ↔
      s.eligibleDc k c = true ∧ s.drawBefore k c < r - s.pwmDraw k := mem_reached_byRank ranks _ _ _ c
  rw [State.cutGives, if_neg (by omega)]
  simp only [reaches]
  refine ite_congr rfl (fun either => ?_) fun _ => rfl
  have on : (s.cfg c).cls = k ∧ (s.ch c).state = .on := by
    obtain pwm | ⟨dc, _⟩ := either
    · obtain ⟨⟨cls, on, _⟩, _⟩ := eligiblePwm_iff.mp pwm
      exact ⟨cls, on⟩
    · obtain ⟨⟨cls, on, _⟩, _⟩ := eligibleDc_iff.mp dc
      exact ⟨cls, on⟩
  exact if_pos ⟨on.2, by rwa [on.1]⟩

end Sys2Proof.Machine

namespace Sys2Proof

open Machine

/-- Settles O18: what the orders make of each channel is told from the state in which the class was read. -/
theorem aCutThrottlesThePwmChannels : Obligations.ACutThrottlesThePwmChannels := by
  intro s t k r P draws pays ranks eligible pwm dc earlier sumP sumDraws
  have total : P = s.pwmDraw k := by
    rw [sumP, State.pwmDraw, sumChans]
    refine congrArg List.sum (congrArg _ (List.filter_congr fun c _ => ?_))
    simp only [State.eligiblePwm, State.eligible, Bool.and_assoc]
  have before (c : Chan) : draws c = s.drawBefore k c := (sumDraws c).trans (drawBefore_eq s k c).symm
  have ispwm (c : Chan) : s.eligiblePwm k c = true ↔ pwm c := eligiblePwm_iff
  have isdc (c : Chan) : s.eligibleDc k c = true ↔ dc c := eligibleDc_iff
  subst total
  refine ⟨fun cuts made => ⟨?_, fun fits c => ?_, fun exceeds c => ?_⟩, fun made => ⟨fun some => ⟨?_, fun c => ?_⟩,
    fun uncapped c holds last => ?_, fun uncapped free => ?_⟩, fun aside between quiet amid events parts => ⟨fun c still => ?_,
    fun c event only on shed => ?_⟩⟩
  · rw [made]
    exact applyCut_frame cuts
  · rw [made, applyCut_ch cuts, cutGives_of_fits pays cuts fits]
    exact if_congr (ispwm c) rfl rfl
  · rw [made, applyCut_ch cuts, cutGives_of_exceeds pays ranks exceeds, before]
    exact if_congr (or_congr (ispwm c) (and_congr_left' (isdc c))) rfl rfl
  · rw [made]
    exact restoreStep_capped (some.imp fun _ => isCapped_iff.mp)
  · rw [made, restoreStep_ch pays, State.restoreGives, if_pos (some.imp fun _ => isCapped_iff.mp)]
    refine if_ctx_congr isCapped_iff.symm (fun capped => ?_) fun _ => rfl
    exact if_pos ⟨capped.2.1, by rw [capped.1]; exact pays⟩
  · have choice := restoreChoice_eq ranks (isRestorable_iff.mp holds) fun d other ne => last d (isRestorable_iff.mpr other) ne
    rw [made, restoreStep_of_uncapped fun d => mt isCapped_iff.mpr (uncapped d), choice]
    exact (restore_eq c s (by rw [holds.1]; exact pays)).trans (if_pos holds.2.1)
  · have choice : s.restoreChoice k = none := by
      have empty : allChans.filter (s.restorable k) = [] :=
        List.filter_eq_nil_iff.mpr fun c _ => mt isRestorable_iff.mpr (free c)
      simp [State.restoreChoice, State.byRank, empty]
    rw [made, restoreStep_of_uncapped fun d => mt isCapped_iff.mpr (uncapped d), choice]
  · obtain ⟨cuts, rfl, course⟩ | ⟨rfl, course⟩ | ⟨rfl, course⟩ := parts
    · rw [course]
      exact (applyCutAmid_stands cuts rfl events).agree (applyCut_stands cuts) c still
    · rw [course]
      exact (shedForSupplyAmid_stands (s := s) rfl rfl (eventsAt_idle events)).agree (shedForSupply_stands s) c still
    · rw [course]
      exact (restoreStepAmid_stands pays rfl events).agree (restoreStep_stands pays) c still
  · subst only
    have start : Course.Struck s event c { between := [event], now := s } := .inl ⟨rfl, rfl⟩
    have sheds (d : Chan) (reason : ShedReason) (x : Course) (h : x.Struck s event c) :
        (x.order fun _ => Machine.shed d reason).Struck s event c :=
      h.order fun _ u same => shed_spares (by rwa [same]) d reason
    obtain ⟨cuts, _, course⟩ | ⟨_, course⟩ | ⟨_, course⟩ := parts
    · rw [course]
      exact (applyCutAmid_induct (P := Course.Struck s event c)
        (x := { between := [fun u => u, event], now := s }) sheds
        (fun d cap x h => h.order fun read u same => throttle_spares (by rwa [same]) d (cap read)) cuts start).finish
    · rw [course, shedForSupplyAmid]
      split
      · exact (Course.orders_induct (P := Course.Struck s event c) (fun d => sheds d .supply) _ start).finish
      · rfl
    · rw [course]
      exact (restoreStepAmid_induct (P := Course.Struck s event c)
        (fun d x h => h.order fun _ u same => capRaise_spares (by rwa [same]) d _)
        (fun d x h => h.order fun _ u same => restore_spares (by rwa [same]) d) start).finish

end Sys2Proof


/-! ### One evaluation with nothing between its parts -/

namespace Sys2Proof.Machine

variable {s t e : State} {k : Cls} {r : Nat} {c : Chan}

theorem applyCut_zero (k : Cls) (s : State) : applyCut k 0 s = s := rfl

/-- A cut moves channels alone (R124–R126). -/
theorem applyCut_channels (k : Cls) (r : Nat) (s : State) : applyCut k r s = { s with channels := (applyCut k r s).channels } := by
  obtain rfl | cuts := Nat.eq_zero_or_pos r
  · rfl
  · exact applyCut_frame cuts

/-- A cut is decided by the channels and the configuration. -/
theorem applyCut_congr (channels : t.channels = s.channels) (loader : t.loader = s.loader) :
    (applyCut k r t).channels = (applyCut k r s).channels := by
  obtain rfl | cuts := Nat.eq_zero_or_pos r
  · exact channels
  · refine channels_ext fun c => ?_
    have ch := ch_congr channels
    have cfg := cfg_congr loader
    rw [applyCut_ch cuts, applyCut_ch cuts]
    have pwm : t.eligiblePwm k = s.eligiblePwm k := funext fun d => by simp only [State.eligiblePwm, State.eligible, ch, cfg]
    have dc : t.eligibleDc k = s.eligibleDc k := funext fun d => by simp only [State.eligibleDc, State.eligible, ch, cfg]
    have draw : t.pwmDraw k = s.pwmDraw k := by simp only [State.pwmDraw, pwm, ch]
    have rank (chans : List Chan) : t.byRank chans = s.byRank chans := by simp only [State.byRank, cfg]
    have shed (y : Channel) : shedTo t c .budget y = shedTo s c .budget y := by simp only [shedTo, cfg]
    have throttled (p : Nat) (y : Channel) : throttledTo t c p r y = throttledTo s c p r y := by simp only [throttledTo, cfg]
    simp only [State.cutGives, pwm, dc, draw, rank, shed, throttled, ch]

/-- The own cuts of an evaluation (R123). -/
abbrev ownCuts (s : State) : State := applyCut 1 s.budget.cut1 (applyCut 2 s.budget.cut2 (applyCut 3 s.budget.cut3 s))

theorem ownCuts_frame (s : State) : ownCuts s = { s with channels := (ownCuts s).channels } := by
  rw [ownCuts, applyCut_channels 1, applyCut_channels 2, applyCut_channels 3]

theorem restoreStep_frame (pays : k ≠ 0) :
    restoreStep k s = { s with channels := (restoreStep k s).channels, sched := (restoreStep k s).sched } := by
  by_cases some : ∃ d, s.capped k d = true
  · rw [restoreStep_capped some]
  · rw [restoreStep_of_uncapped fun d capped => some ⟨d, capped⟩]
    cases choice : s.restoreChoice k with
    | none => rfl
    | some c =>
      obtain ⟨cls, shed⟩ := restorable_of_choice choice
      simp only [restore_eq c s (by rwa [cls]), if_pos shed]
      rfl

theorem restoreStep_sched (pays : k ≠ 0) (s : State) : (restoreStep k s).sched =
    if ∃ d, s.capped k d = true then s.sched
    else match s.restoreChoice k with
      | some c => { s.sched with queue := s.sched.queue ++ [c] }
      | none => s.sched := by
  by_cases some : ∃ d, s.capped k d = true
  · rw [restoreStep_capped some, if_pos some]
  · rw [restoreStep_of_uncapped fun d capped => some ⟨d, capped⟩, if_neg some]
    cases choice : s.restoreChoice k with
    | none => rfl
    | some c =>
      obtain ⟨cls, shed⟩ := restorable_of_choice choice
      simp only [restore_eq c s (by rwa [cls]), if_pos shed]

/-- A restore step is decided by the channels, the configuration and the supply condition; it asks the Scheduler for a queue. -/
theorem restoreStep_congr (pays : k ≠ 0) (channels : t.channels = s.channels) (loader : t.loader = s.loader)
    (sense : t.sense = s.sense) (sched : t.sched = s.sched) :
    (restoreStep k t).channels = (restoreStep k s).channels ∧ (restoreStep k t).sched = (restoreStep k s).sched := by
  have ch := ch_congr channels
  have cfg := cfg_congr loader
  have capped : t.capped k = s.capped k := funext fun d => by simp only [State.capped, ch, cfg]
  have restorable : t.restorable k = s.restorable k := funext fun d => by simp only [State.restorable, ch, cfg, sense]
  have choice : t.restoreChoice k = s.restoreChoice k := by simp only [State.restoreChoice, State.byRank, restorable, cfg]
  refine ⟨channels_ext fun c => ?_, ?_⟩
  · rw [restoreStep_ch pays, restoreStep_ch pays]
    simp only [State.restoreGives, raisedTo, capped, choice, ch, cfg, params_congr loader]
  · rw [restoreStep_sched pays, restoreStep_sched pays, capped, choice, sched]

/-- Where an evaluation stands when its figures are formed and the sheds for a LOW supply are ordered (R116–R123). -/
abbrev figured (s : State) : State := shareExcess (shedForSupply (formFigures s))

theorem shedForSupply_frame (s : State) : shedForSupply s = { s with channels := (shedForSupply s).channels } := by
  have only := shedForSupplyAmid_induct (P := Course.OnlyChannels s) (x := { between := [], now := s })
    (fun c reason _ h => h.order (shed_frame c reason)) ⟨rfl, rfl⟩ ⟨rfl, rfl⟩
  exact only.2

theorem shedForSupply_congr (channels : t.channels = s.channels) (loader : t.loader = s.loader) (sense : t.sense = s.sense) :
    (shedForSupply t).channels = (shedForSupply s).channels := channels_ext fun c => by
  rw [shedForSupply_ch, shedForSupply_ch]
  simp only [State.lowGives, ch_congr channels, cfg_congr loader, sense]

theorem shed_formFigures (s : State) :
    shedForSupply (formFigures s) = { formFigures s with channels := (shedForSupply s).channels } := by
  rw [shedForSupply_frame, shedForSupply_congr (t := formFigures s) (s := s) rfl rfl rfl]

/-- What the forming of the figures and the sheds leave: the channels, the Budget Unit and the FAULT pin aside, nothing moves. -/
theorem figured_frame (s : State) : figured s =
    { s with channels := (shedForSupply s).channels, budget := (figured s).budget
             diag := { s.diag with faultAsserted := (figured s).diag.faultAsserted } } := by
  rw [figured, shed_formFigures]
  rfl

/-- The event that the evaluation forms (R117, R121). -/
abbrev State.event (s : State) : BudgetEvent :=
  { zone := s.zoneFigures, alone := s.aloneFigures, settle := s.budget.settle, wasAlone := s.alone }

theorem figured_budget (s : State) : (figured s).budget =
    { zone := s.zoneFigures.held
      alone := s.aloneFigures.held
      inUse := if s.alone then .alone else .zone
      cut1 := (s.shares s.alone s.event.inUse.excess).cut1
      cut2 := (s.shares s.alone s.event.inUse.excess).cut2
      cut3 := (s.shares s.alone s.event.inUse.excess).cut3
      settle := s.budget.settle
      overload := overloadAfter s.budget.overload s.event.inUse.excess (s.shares s.alone s.event.inUse.excess).left
      carried := s.event } := by
  rw [figured, shed_formFigures]
  rfl

theorem figured_faultPin (s : State) : (figured s).FaultPinTrue := rfl

/-- What an evaluation does once its figures are formed: its cuts, its restore step and the settle count (R124–R130). -/
def ordered (e : State) : State :=
  let s2 := if e.budget.settle = 0 then ownCuts e else e
  match s2.restoring with
  | some k => settleTo 2 (restoreStep k s2)
  | none => settleTo (settleAfter s2.budget.settle s2.budget.cutting) s2

theorem evaluateBudget_ordered (s : State) : evaluateBudget s =
    (ordered (figured s)).handOver (.status (ordered (figured s)).statusContent) :=
  (evaluateBudget_eq s).trans rfl

theorem ordered_of_settling (settling : 0 < e.budget.settle) : ordered e = settleTo (e.budget.settle - 1) e := by
  have closed : e.restoring = none := by
    rw [State.restoring, if_neg (by simp [State.restoreOpens, restoreOpen, settling.ne'])]
  have calm : e.budget.cutting = false := by simp [BudgetUnit.cutting, settling.ne']
  rw [ordered]
  simp only [if_neg settling.ne', closed, calm]
  rfl

/-- Without room to restore, the own cuts are ordered and the count set where one is (R124, R129). -/
theorem ordered_of_short (settled : e.budget.settle = 0)
    (short : ¬(e.budget.carried.inUse.excess = 0 ∧ e.budget.carried.inUse.steady + e.params.hysteresis ≤ e.budget.carried.inUse.limit)) :
    ordered e = settleTo (if 0 < e.budget.cut1 + e.budget.cut2 + e.budget.cut3 then 2 else 0) (ownCuts e) := by
  have closed : (ownCuts e).restoring = none := by
    rw [ownCuts_frame, State.restoring, if_neg]
    simp only [State.restoreOpens, restoreOpen, Bool.and_eq_true, decide_eq_true_eq]
    exact fun ⟨excess, room, _⟩ => short ⟨excess, room⟩
  have budget : (ownCuts e).budget = e.budget := by rw [ownCuts_frame]
  rw [ordered]
  simp only [if_pos settled, closed, budget]
  simp only [BudgetUnit.cutting, settled, settleAfter]
  simp

/-- With room to restore there is nothing to cut: a restore step is taken where a class qualifies (R127–R130). -/
theorem ordered_of_room (settled : e.budget.settle = 0) (uncut : e.budget.cut1 = 0 ∧ e.budget.cut2 = 0 ∧ e.budget.cut3 = 0)
    (room : e.budget.carried.inUse.excess = 0 ∧ e.budget.carried.inUse.steady + e.params.hysteresis ≤ e.budget.carried.inUse.limit) :
    ordered e = match e.restoreClass with
      | some k => settleTo 2 (restoreStep k e)
      | none => settleTo 0 e := by
  obtain ⟨none1, none2, none3⟩ := uncut
  have cuts : ownCuts e = e := by rw [ownCuts, none1, none2, none3, applyCut_zero, applyCut_zero, applyCut_zero]
  have opens : e.restoring = e.restoreClass := by
    rw [State.restoring, if_pos]
    simp only [State.restoreOpens, restoreOpen, Bool.and_eq_true, decide_eq_true_eq]
    exact ⟨room.1, room.2, settled⟩
  rw [ordered]
  simp only [if_pos settled, cuts, opens]
  cases e.restoreClass with
  | some k => rfl
  | none => simp [BudgetUnit.cutting, none1, none2, none3, settleAfter, settled]

/-- A restore step is taken in a class that pays (R127). -/
theorem restoreClass_pays (chosen : e.restoreClass = some k) : k ≠ 0 := by
  have mem := List.mem_of_find?_eq_some chosen
  rintro rfl
  simp at mem

theorem restoring_pays (chosen : e.restoring = some k) : k ≠ 0 := by
  unfold State.restoring at chosen
  split at chosen
  · exact restoreClass_pays chosen
  · cases chosen

/-- What an evaluation orders leaves everything but the channels, the queue and the settle count. -/
theorem ordered_frame (e : State) : ordered e =
    { e with channels := (ordered e).channels, sched := (ordered e).sched
             budget := { e.budget with settle := (ordered e).budget.settle } } := by
  have cuts : (if e.budget.settle = 0 then ownCuts e else e) =
      { e with channels := (if e.budget.settle = 0 then ownCuts e else e).channels } := by
    split
    · exact ownCuts_frame e
    · rfl
  rw [ordered]
  simp only
  generalize (if e.budget.settle = 0 then ownCuts e else e) = u at cuts
  cases chosen : u.restoring with
  | none => rw [cuts]; rfl
  | some k =>
    simp only
    rw [restoreStep_frame (restoring_pays chosen), cuts]
    rfl

theorem restoreStep_listen (pays : k ≠ 0) (s : State) : (restoreStep k s).sched.listen = s.sched.listen := by
  rw [restoreStep_sched pays]
  split
  · rfl
  · cases s.restoreChoice k <;> rfl

theorem ordered_listen (e : State) : (ordered e).sched.listen = e.sched.listen := by
  have cuts : (if e.budget.settle = 0 then ownCuts e else e).sched = e.sched := by
    split
    · rw [ownCuts_frame]
    · rfl
  rw [ordered]
  generalize (if e.budget.settle = 0 then ownCuts e else e) = u at cuts
  rw [← cuts]
  cases chosen : u.restoring with
  | none => rfl
  | some k => exact restoreStep_listen (restoring_pays chosen) u

theorem ordered_faultPin (pin : e.FaultPinTrue) : (ordered e).FaultPinTrue := by
  have cuts := (cutPart_leads orders_keep_faultPin { between := [], now := e }) (by simp [Course.Safe])
  have restore := (restorePart_leads orders_keep_faultPin (fun _ _ => .still rfl rfl rfl rfl)
    (cutPart { between := [], now := e })) cuts.2
  rw [cutPart_quiet, restorePart_quiet] at restore
  exact restore.1 ((cutPart_quiet e ▸ cuts.1) pin)

theorem qualifies_iff : e.qualifies k = true ↔ e.Qualifies k := by
  simp only [State.qualifies, State.Qualifies, Bool.and_eq_true, List.any_eq_true, mem_allChans, true_and, Bool.or_eq_true,
    isCapped_iff, isRestorable_iff]
  refine and_congr_left' ?_
  simp [classRestorable, imp_iff_not_or]

/-- The sheds for a LOW supply change nothing in the classes that could be restored (R116, R127). -/
theorem figured_qualifies (k : Cls) : (figured s).Qualifies k ↔ s.Qualifies k := by
  have sense : (figured s).sense = s.sense := by rw [figured_frame]
  have cfg (c : Chan) : (figured s).cfg c = s.cfg c := cfg_congr (by rw [figured_frame]) c
  have ch (c : Chan) : (figured s).ch c = s.lowGives c :=
    (ch_congr (t := figured s) (s := shedForSupply s) (by rw [figured_frame]) c).trans (shedForSupply_ch s c)
  unfold State.Qualifies
  rw [sense]
  refine and_congr_right fun open_ => exists_congr fun c => ?_
  by_cases own : (s.cfg c).cls = k
  · have same : s.lowGives c = s.ch c := if_neg fun sheds => open_ ⟨sheds.1, own ▸ sheds.2.1⟩
    simp only [State.IsCapped, State.IsRestorable, cfg, ch, same, sense]
  · simp only [State.IsCapped, State.IsRestorable, cfg, own, false_and]

theorem restoreClass_of_first (pays : k ≠ 0) (first : e.qualifies k = true) (lower : ∀ j, j ≠ 0 → j < k → ¬e.qualifies j = true) :
    e.restoreClass = some k := by
  unfold State.restoreClass
  have lower1 := lower 1 (by decide)
  have lower2 := lower 2 (by decide)
  fin_cases k
  · exact absurd rfl pays
  · simp_all
  · simp_all
  · simp_all

theorem restoreClass_of_none (closed : ∀ k, k ≠ 0 → ¬e.qualifies k = true) : e.restoreClass = none := by
  unfold State.restoreClass
  simp [closed 1 (by decide), closed 2 (by decide), closed 3 (by decide)]

/-! #### The figures in numbers -/

theorem peerSum_eq (s : State) (k : Cls) : s.peerSum k =
    ((allStns.filter fun p => p ≠ s.own && (s.peer p).presence ≠ .absent).map fun p =>
      match (s.peer p).draws with | some x => x.get k | none => 0).sum := by
  unfold State.peerSum PeerEntry.counts
  refine congrArg List.sum (List.map_congr_left fun p _ => ?_)
  cases (s.peer p).draws <;> rfl

theorem absentAllowance_eq (s : State) : s.absentAllowance = s.params.peerAllowance * (allStns.filter fun p =>
    p ≠ s.own && (s.params.expected.getLsbD p.val && (s.peer p).presence = .absent)).length := by
  simp only [State.absentAllowance, PeerEntry.counts, decide_not, Bool.not_not]

/-- A STATUS handed over is read from the state it leaves (R117, R118). -/
theorem handOver_status {u : State} (heard : u.link.muted = false) :
    (u.handOver (.status u.statusContent)).StatusHandedOver (u.handOver (.status u.statusContent)) := by
  have placed : (u.handOver (.status u.statusContent)).link = u.link.place (.status u.statusContent) :=
    LinkController.handOver_unpaired (f := .status u.statusContent) heard nofun nofun
  have same : (u.handOver (.status u.statusContent)).link.isolated = u.link.isolated ∧
      (u.handOver (.status u.statusContent)).link.onLine = u.link.onLine := by
    rw [placed]
    unfold LinkController.place
    split <;> exact ⟨rfl, rfl⟩
  have first (c : Chan) : u.lowestNew = some c ↔ (u.ch c).fault.isNew = true ∧ ∀ d < c, (u.ch d).fault.isNew = false :=
    find?_allChans_iff _ c
  refine ⟨u.statusContent, ?_, rfl, rfl, decide_eq_true_iff, decide_eq_true_iff, decide_eq_true_iff, fun isolated => ?_,
    fun isolated => ?_, fun c lowest => (first c).mp lowest, fun none d => ?_⟩
  · rw [same.2, placed]
    split
    · rename_i line
      rw [LinkController.place, if_pos (by exact line)]
    · rename_i free
      rw [LinkController.place, if_neg (by exact free)]
      rfl
  · exact same.1.symm.trans isolated
  · exact same.1.trans isolated
  · exact Bool.eq_false_iff.mpr (List.find?_eq_none.mp none d (mem_allChans d))

end Sys2Proof.Machine

namespace Sys2Proof

open Machine

/-- Settles O16: the figures, then the sheds and orders they call for, then the STATUS. -/
theorem anEvaluationFormsItsFigures : Obligations.AnEvaluationFormsItsFigures := by
  intro s t lowShed base allowance steady S L E P C made shedding d own guard alone hbase hP hallow hsteady hS hL hE hC cuts
  have alone_iff : s.alone = true ↔ alone := s.alone_iff
  have peers (k : Cls) : s.peerSum k = P k := (peerSum_eq s k).trans (hP k).symm
  have charged : s.zoneBase = base := hbase.symm
  have allowed : s.absentAllowance = allowance := (absentAllowance_eq s).trans hallow.symm
  have total : s.zoneSteady = steady := by
    rw [hsteady, State.zoneSteady, peers, peers, peers, peers, allowed]
    rfl
  have zone : s.zoneFigures =
      if s.loader.runMode = .limp then ⟨0, 0, 0, 0⟩ else ⟨base, base - guard, steady, steady - (base - guard)⟩ := by
    rw [State.zoneFigures, charged, total]
    rfl
  have figures : s.aloneFigures =
      ⟨s.params.limitAlone, s.params.limitAlone - guard, own, own - (s.params.limitAlone - guard)⟩ := rfl
  have inUse : s.event.inUse.steady = S ∧ s.event.inUse.limit = L ∧ s.event.inUse.excess = E := by
    by_cases is : alone
    · have use : s.event.inUse = s.aloneFigures := if_pos (alone_iff.mpr is)
      rw [use, figures, hE, hS, hL, if_pos is, if_pos is]
      exact ⟨rfl, rfl, rfl⟩
    · have use : s.event.inUse = s.zoneFigures := if_neg (mt alone_iff.mp is)
      have running : s.loader.runMode ≠ .limp := fun limp => is (.inr (.inr limp))
      rw [use, zone, if_neg running, hE, hS, hL, if_neg is, if_neg is]
      exact ⟨rfl, rfl, rfl⟩
  obtain ⟨steadyS, limitL, excessE⟩ := inUse
  have shared (k : Cls) : s.sharedDraw s.alone k = C k := by
    rw [hC, State.sharedDraw, peers]
    exact if_congr alone_iff rfl rfl
  have frame := figured_frame s
  have budget := figured_budget s
  have evaluated := evaluateBudget_ordered s
  have pin := ordered_faultPin (figured_faultPin s)
  have moved := ordered_frame (figured s)
  rw [← made] at evaluated
  have tbudget : t.budget = { (figured s).budget with settle := t.budget.settle } := by
    have same : t.budget = (ordered (figured s)).budget := by rw [evaluated]; rfl
    rw [same]
    exact congrArg State.budget moved
  have channels : t.channels = (ordered (figured s)).channels := by rw [evaluated]; rfl
  have sched : t.sched = (ordered (figured s)).sched := by rw [evaluated]; rfl
  have settle : t.budget.settle = (ordered (figured s)).budget.settle := by rw [evaluated]; rfl
  have fsettle : (figured s).budget.settle = s.budget.settle := by rw [budget]
  have fcarried : (figured s).budget.carried = s.event := by rw [budget]
  have fchannels : (figured s).channels = lowShed.channels := by rw [frame, shedding]
  have fsched : (figured s).sched = s.sched := by rw [frame]
  have fsense : (figured s).sense = s.sense := by rw [frame]
  have fparams : (figured s).params = s.params := params_congr (by rw [frame])
  have floader : (figured s).loader = lowShed.loader := by rw [frame, shedding, shedForSupply_loader]
  have after (rem c : Nat) : excessAfter rem c = rem - c := by
    unfold excessAfter
    omega
  have cut3 : t.budget.cut3 = if C 3 = 0 then 0 else (min E (C 3) * d.d3 + C 3 - 1) / C 3 := by
    rw [tbudget, budget]
    simp only [State.shares, excessE, shared]
    rfl
  have cut2 : t.budget.cut2 = if C 2 = 0 then 0 else (min (E - C 3) (C 2) * d.d2 + C 2 - 1) / C 2 := by
    rw [tbudget, budget]
    simp only [State.shares, excessE, shared, after]
    rfl
  have cut1 : t.budget.cut1 = if C 1 = 0 then 0 else (min (E - C 3 - C 2) (C 1) * d.d1 + C 1 - 1) / C 1 := by
    rw [tbudget, budget]
    simp only [State.shares, excessE, shared, after]
    rfl
  have fcuts : (figured s).budget.cut1 = t.budget.cut1 ∧ (figured s).budget.cut2 = t.budget.cut2 ∧
      (figured s).budget.cut3 = t.budget.cut3 := by
    rw [tbudget]
    exact ⟨rfl, rfl, rfl⟩
  have isRoom : ((figured s).budget.carried.inUse.excess = 0 ∧
      (figured s).budget.carried.inUse.steady + (figured s).params.hysteresis ≤ (figured s).budget.carried.inUse.limit) ↔
        S + s.params.hysteresis ≤ L := by
    rw [fcarried, fparams, excessE, steadyS, limitL]
    omega
  have settling (runs : 0 < s.budget.settle) : ordered (figured s) = settleTo (s.budget.settle - 1) (figured s) := by
    rw [ordered_of_settling (by rwa [fsettle]), fsettle]
  have short (settled : s.budget.settle = 0) (above : L < S + s.params.hysteresis) :
      ordered (figured s) = settleTo (if 0 < cuts then 2 else 0) (ownCuts (figured s)) := by
    obtain ⟨one, two, three⟩ := fcuts
    rw [ordered_of_short (by rw [fsettle, settled]) (mt isRoom.mp (by omega)), one, two, three]
  have uncut (below : S + s.params.hysteresis ≤ L) : t.budget.cut1 = 0 ∧ t.budget.cut2 = 0 ∧ t.budget.cut3 = 0 := by
    have spare : E = 0 := by omega
    have zero (n own : Nat) : (if n = 0 then 0 else (min 0 n * own + n - 1) / n) = 0 := by
      split
      · rfl
      · rw [Nat.zero_min, Nat.zero_mul]
        exact Nat.div_eq_of_lt (by omega)
    rw [cut1, cut2, cut3, spare, Nat.zero_sub, Nat.zero_sub]
    exact ⟨zero _ _, zero _ _, zero _ _⟩
  have room (settled : s.budget.settle = 0) (below : S + s.params.hysteresis ≤ L) : ordered (figured s) =
      match (figured s).restoreClass with
      | some k => settleTo 2 (restoreStep k (figured s))
      | none => settleTo 0 (figured s) := by
    obtain ⟨one, two, three⟩ := fcuts
    obtain ⟨none1, none2, none3⟩ := uncut below
    exact ordered_of_room (by rw [fsettle, settled]) ⟨by rw [one, none1], by rw [two, none2], by rw [three, none3]⟩
      (isRoom.mpr below)
  refine ⟨?_, ?_, ?_, ?_, cut3, cut2, cut1, ?_, fun c => ?_, fun runs => ?_, fun settled above => ?_,
    fun settled below => ⟨?_, fun k pays first lower => ?_, fun closed => ?_⟩, fun either => ?_, ?_, fun heard => ?_, ?_, ?_⟩
  · rw [tbudget, fcarried, State.event, zone, figures, Bool.eq_iff_iff.mpr (alone_iff.trans decide_eq_true_iff.symm)]
  · rw [tbudget, budget]
    simp only [zone]
    split <;> rfl
  · rw [tbudget, budget, figures]
    rfl
  · rw [tbudget, budget]
    exact if_congr alone_iff rfl rfl
  · rw [tbudget, budget]
    simp only [State.shares, excessE, shared, after, overloadAfter]
    refine if_congr ?_ rfl rfl
    omega
  · rw [shedding, shedForSupply_ch]
    rfl
  · rw [channels, settle, settling runs]
    exact ⟨fchannels, rfl⟩
  · rw [channels, settle, short settled above]
    obtain ⟨one, two, three⟩ := fcuts
    refine ⟨?_, rfl⟩
    change (ownCuts (figured s)).channels = _
    rw [ownCuts, one, two, three]
    refine applyCut_congr (applyCut_congr (applyCut_congr fchannels floader) ?_) ?_
    · simp [floader]
    · simp [floader]
  · obtain ⟨none1, none2, none3⟩ := uncut below
    change t.budget.cut1 + t.budget.cut2 + t.budget.cut3 = 0
    rw [none1, none2, none3]
  · have chosen : (figured s).restoreClass = some k :=
      restoreClass_of_first pays (qualifies_iff.mpr ((figured_qualifies k).mpr first)) fun j other below =>
        mt qualifies_iff.mp (mt (figured_qualifies j).mp (lower j other below))
    have taken := room settled below
    rw [chosen] at taken
    obtain ⟨same, queued⟩ := restoreStep_congr pays fchannels floader
      (by rw [fsense, shedding, shedForSupply_frame]) (by rw [fsched, shedding, shedForSupply_frame])
    rw [channels, sched, settle, taken]
    exact ⟨same, queued, rfl⟩
  · have taken := room settled below
    rw [restoreClass_of_none fun k pays => mt qualifies_iff.mp (mt (figured_qualifies k).mp (closed k pays))] at taken
    rw [channels, sched, settle, taken]
    exact ⟨fchannels, fsched, rfl⟩
  · rw [sched]
    obtain runs | settled := Nat.eq_zero_or_pos s.budget.settle |>.symm
    · rw [settling runs]
      exact fsched
    · rw [short settled (either.resolve_left (by omega)), ← fsched, settleTo, State.setBudget_sched, ownCuts_frame]
  · rw [evaluated]
    exact setLink_keepsFaultPin _ _ pin
  · have open_ : (ordered (figured s)).link.muted = false := by
      rw [moved, frame]
      exact heard
    rw [evaluated]
    exact handOver_status open_
  · have same : t.sense = (ordered (figured s)).sense := by rw [evaluated]; rfl
    rw [same, moved, fsense]
  · rw [sched, ordered_listen, fsched]

end Sys2Proof


/-! An epoch start step by step (R32): `Takes` lists what it does at one moment, with what has come about before it, and every epoch
start is a run of such steps, in whatever order its parts are taken. A fact about an epoch start follows from its being kept by each
step. -/

namespace Sys2Proof.Machine

/-- What comes about in an epoch start: a part taken whole, the figures formed (R117), the settle count written (R128), the admission
decision made (R145). -/
inductive Milestone where
  | taken (t : EpochTask)
  | formed
  | settled
  | decided

/-- Where an epoch start stands: what has come about, the channels that have had a throttle or cap raise order, and the state. -/
structure Point where
  done : List Milestone
  capped : List Chan
  state : State

/-- What an epoch start comes to: whether its evaluation finds an excess, whether the supply is LOW in it, and the claim it admits. -/
structure Ruling where
  cutting : Bool
  low : Bool
  admitted : Option Claim

/-- The orders to channels of class `k` take from them, and do not give back (R121, R125–R130). -/
def Ruling.down (r : Ruling) (k : Cls) : Bool := r.cutting || (r.low && k = 3)

/-- One step of an epoch start that closes `n` periods and reads the levels `din`. -/
inductive Takes (n : Nat) (din : DinLevels) (r : Ruling) : Point → Point → Prop
  /-- A part other than the evaluation and the admission, those of the epoch start proper once. -/
  | part {D K s} (t : EpochTask) (notBudget : t ≠ .budget) (notAdmission : t ≠ .admission)
      (once : t ∈ epochParts → .taken t ∉ D) : Takes n din r ⟨D, K, s⟩ ⟨.taken t :: D, K, runTask n din t s⟩
  /-- Both sets of figures (R117). -/
  | forms {D K s} (closed : .taken .closeMeasurement ∈ D) (tested : .taken .supplyTest ∈ D) (once : .formed ∉ D) :
      Takes n din r ⟨D, K, s⟩ ⟨.formed :: D, K, formFigures s⟩
  /-- The own cuts and OVERLOAD (R124, R131). -/
  | shares {D K s} (formed : .formed ∈ D) (early : .settled ∉ D) : Takes n din r ⟨D, K, s⟩ ⟨D, K, shareExcess s⟩
  /-- The settle count (R128). -/
  | settles {D K s} (k : Nat) (formed : .formed ∈ D) (once : .settled ∉ D)
      (falls : 0 < s.budget.settle → k = s.budget.settle - 1) (rests : s.budget.settle = 0 → k = 0 ∨ k = 2) :
      Takes n din r ⟨D, K, s⟩ ⟨.settled :: D, K, settleTo k s⟩
  /-- The STATUS (R132). -/
  | status {D K s} (settled : .settled ∈ D) (once : .taken .budget ∉ D) :
      Takes n din r ⟨D, K, s⟩ ⟨.taken .budget :: D, K, s.handOver (.status s.statusContent)⟩
  /-- A shed order (R18). -/
  | sheds {D K s} (c : Chan) (reason : ShedReason) (hr : reason ≠ .none) (down : r.down (s.cfg c).cls = true) :
      Takes n din r ⟨D, K, s⟩ ⟨D, K, shed c reason s⟩
  /-- A throttle order (R16). -/
  | throttles {D K s} (c : Chan) (cap : Nat) (down : r.down (s.cfg c).cls = true) (once : c ∉ K) :
      Takes n din r ⟨D, K, s⟩ ⟨D, c :: K, throttle c cap s⟩
  /-- A cap raise order (R17). -/
  | raises {D K s} (c : Chan) (by_ : Nat) (up : r.down (s.cfg c).cls = false) (once : c ∉ K) :
      Takes n din r ⟨D, K, s⟩ ⟨D, c :: K, capRaise c by_ s⟩
  /-- A restore order (R18). -/
  | restores {D K s} (c : Chan) (up : r.down (s.cfg c).cls = false) : Takes n din r ⟨D, K, s⟩ ⟨D, K, restore c s⟩
  /-- The record becomes HELD (R145). -/
  | holds {D K s} (x : Claim) (hx : s.sched.ordinary = some x) (hp : x.phase = .settling) (admits : s.admits x = true)
      (admitted : r.admitted = some x) (evaluated : .taken .budget ∈ D) (early : .decided ∉ D) :
      Takes n din r ⟨D, K, s⟩ ⟨D, K, holdClaim x s⟩
  /-- The grant arrives (R9). -/
  | grants {D K s} (x : Claim) (admitted : r.admitted = some x) (early : .decided ∉ D)
      (span : (s.ch x.chan).state = .requested → s.sched.ordinary = some { x with phase := .held }) :
      Takes n din r ⟨D, K, s⟩ ⟨.decided :: D, K, grant x.chan s⟩
  /-- The claim fails (R146). -/
  | refuses {D K s} (x : Claim) (hx : s.sched.ordinary = some x) (hp : x.phase = .settling) (fails : s.admits x = false)
      (admitted : r.admitted = none) (evaluated : .taken .budget ∈ D) (early : .decided ∉ D) : Takes n din r ⟨D, K, s⟩ ⟨.decided :: D, K, refuse x s⟩
  /-- No claim is to be decided. -/
  | idles {D K s} (idle : ∀ x, s.sched.ordinary = some x → x.phase ≠ .settling) (admitted : r.admitted = none)
      (early : .decided ∉ D) :
      Takes n din r ⟨D, K, s⟩ ⟨.decided :: D, K, s⟩
  /-- A selection where one may be made (R140, R141). -/
  | selects {D K s} (decided : .decided ∈ D) (evaluated : .taken .budget ∈ D) (once : .taken .admission ∉ D) :
      Takes n din r ⟨D, K, s⟩ ⟨.taken .admission :: D, K, select s⟩

/-- A run of steps. -/
abbrev Reaches (n : Nat) (din : DinLevels) (r : Ruling) : Point → Point → Prop := Relation.ReflTransGen (Takes n din r)

section
variable {n : Nat} {din : DinLevels} {r : Ruling} {p q : Point}

/-- What each step keeps, a run keeps. -/
theorem Reaches.keeps (h : Reaches n din r p q) {P : Point → Prop} (keep : ∀ p q, Takes n din r p q → P p → P q) (hp : P p) :
    P q := by
  induction h with
  | refl => exact hp
  | tail _ last ih => exact keep _ _ last ih

/-- What each step brings about between its two moments, a run does. -/
theorem Reaches.relates (h : Reaches n din r p q) {R : State → State → Prop} (refl : ∀ s, R s s)
    (trans : ∀ {s t u}, R s t → R t u → R s u) (takes : ∀ p q, Takes n din r p q → R p.state q.state) : R p.state q.state := by
  induction h with
  | refl => exact refl _
  | tail _ last ih => exact trans ih (takes _ _ last)

end

/-! ### Parts taken one after the other -/

/-- What has come about once the parts `ts` have been taken too. -/
def took (ts : List EpochTask) (D : List Milestone) : List Milestone := (ts.map Milestone.taken).reverse ++ D

theorem took_append (ts us : List EpochTask) (D : List Milestone) : took (ts ++ us) D = took us (took ts D) := by
  simp [took]

theorem took_cons (t : EpochTask) (ts : List EpochTask) (D : List Milestone) : took (t :: ts) D = took ts (.taken t :: D) := by
  simp [took]

theorem mem_took {ts : List EpochTask} {D : List Milestone} {m : Milestone} :
    m ∈ took ts D ↔ m ∈ D ∨ ∃ t ∈ ts, m = .taken t := by
  simp only [took, List.mem_append, List.mem_reverse, List.mem_map, eq_comm (a := m)]
  exact or_comm

/-- Parts that are neither the evaluation nor the admission, each once and none of them taken before. -/
structure Fresh (ts : List EpochTask) (D : List Milestone) : Prop where
  nodup : ts.Nodup
  plain : ∀ t ∈ ts, t ≠ .budget ∧ t ≠ .admission
  new : ∀ t ∈ ts, .taken t ∉ D

theorem Fresh.left {ts us : List EpochTask} {D : List Milestone} (h : Fresh (ts ++ us) D) : Fresh ts D where
  nodup := h.nodup.of_append_left
  plain t ht := h.plain t (List.mem_append_left _ ht)
  new t ht := h.new t (List.mem_append_left _ ht)

theorem Fresh.right {ts us : List EpochTask} {D : List Milestone} (h : Fresh (ts ++ us) D) : Fresh us (took ts D) where
  nodup := h.nodup.of_append_right
  plain t ht := h.plain t (List.mem_append_right _ ht)
  new t ht taken := by
    rcases mem_took.mp taken with old | ⟨u, hu, same⟩
    · exact h.new t (List.mem_append_right _ ht) old
    · cases same
      exact (List.nodup_append.mp h.nodup).2.2 t hu t ht rfl

theorem Fresh.congr {ts : List EpochTask} {D E : List Milestone} (h : Fresh ts D) (same : ∀ t, .taken t ∈ E → .taken t ∈ D ∨ t ∉ ts) :
    Fresh ts E :=
  ⟨h.nodup, h.plain, fun t ht taken => (same t taken).elim (h.new t ht) fun other => other ht⟩

section
variable {n : Nat} {din : DinLevels} {r : Ruling} {D : List Milestone} {K : List Chan}

/-- Parts taken one after the other are so many steps. -/
theorem reaches_runTasks {ts : List EpochTask} (h : Fresh ts D) (s : State) :
    Reaches n din r ⟨D, K, s⟩ ⟨took ts D, K, runTasks n din ts s⟩ := by
  induction ts generalizing D s with
  | nil => exact .refl
  | cons t rest ih =>
    obtain ⟨notBudget, notAdmission⟩ := h.plain t List.mem_cons_self
    have first : Takes n din r ⟨D, K, s⟩ ⟨.taken t :: D, K, runTask n din t s⟩ :=
      .part t notBudget notAdmission fun _ => h.new t List.mem_cons_self
    rw [took_cons]
    exact .head first (ih (Fresh.right (ts := [t]) h) _)

end

/-! ### What no step moves -/

theorem loader_kept_runTask {t : EpochTask} (n : Nat) (din : DinLevels) (s : State) (hb : t ≠ .budget) (ha : t ≠ .admission) :
    (runTask n din t s).loader = s.loader := by
  cases t with
  | budget => exact absurd rfl hb
  | admission => exact absurd rfl ha
  | loadDuties => exact loader_of_blank (loadDuties_blank s)
  | readInputs => exact (readInputs_kept s din).loader
  | closeMeasurement => simp [runTask, closeMeasurement]
  | supplyTest =>
    simp only [runTask, testSupply]
    split
    · exact (setSupplyCause_loader _ _).trans rfl
    · rfl
  | signals =>
    simp only [runTask, resolveAll]
    exact resolve_loader _ s
  | windowEnds => exact loader_of_blank (forChans_blank windowEnd_blank s)
  | retries => exact loader_of_blank (forChans_blank retryDue_blank s)
  | attemptResets => exact loader_of_blank (forChans_blank attemptReset_blank s)
  | peerPresence => simp [runTask, peerPresence]
  | holdRemovals => rfl
  | publication =>
    simp only [runTask, periodicPublication]
    split
    · exact (publish_kept s).loader
    · rfl
  | isolation =>
    simp only [runTask, isolationDue]
    split <;> rfl

section
variable {n : Nat} {din : DinLevels} {r : Ruling} {p q : Point}

theorem Takes.loader (h : Takes n din r p q) : q.state.loader = p.state.loader := by
  cases h with
  | part t hb ha _ => exact loader_kept_runTask n din _ hb ha
  | forms | shares | settles | status | idles => rfl
  | sheds c reason => exact shed_loader c reason _
  | throttles c cap => exact throttle_loader c cap _
  | raises c by_ => exact capRaise_loader c by_ _
  | restores c => exact restore_loader c _
  | holds x => exact holdClaim_loader x _
  | grants x => exact grant_loader x.chan _
  | refuses x => exact refuse_loader x _
  | selects => exact select_loader _

theorem Reaches.loader (h : Reaches n din r p q) : q.state.loader = p.state.loader :=
  h.relates (R := fun s t => t.loader = s.loader) (fun _ => rfl) (fun h g => g.trans h) fun _ _ => Takes.loader

end

end Sys2Proof.Machine


/-! The budget evaluation of an epoch start as a run of steps (R117–R132), with the parts taken inside it (R127). -/

namespace Sys2Proof.Machine

/-! ### What the evaluation reads -/

/-- The figures, the settle count and what the Sense Unit holds stand. -/
structure State.SameFigures (s t : State) : Prop where
  budget : t.budget = s.budget
  sense : t.sense = s.sense

section
variable {s t u : State}

theorem State.SameFigures.refl (s : State) : s.SameFigures s := ⟨rfl, rfl⟩

theorem State.SameFigures.trans (h : s.SameFigures t) (g : t.SameFigures u) : s.SameFigures u :=
  ⟨g.budget.trans h.budget, g.sense.trans h.sense⟩

theorem sameFigures_of_blank (h : t.blank = s.blank) : s.SameFigures t := ⟨budget_of_blank h, sense_of_blank h⟩

end

theorem runTask_sameFigures {t : EpochTask} (h : t.atChannels = true) (n : Nat) (din : DinLevels) (s : State) :
    s.SameFigures (runTask n din t s) := by
  cases t with
  | loadDuties => exact sameFigures_of_blank (loadDuties_blank s)
  | readInputs => exact ⟨(readInputs_kept s din).budget, (readInputs_kept s din).sense⟩
  | signals =>
    simp only [runTask, resolveAll]
    exact sameFigures_of_blank (resolve_blank _ s)
  | windowEnds => exact sameFigures_of_blank (forChans_blank windowEnd_blank s)
  | retries => exact sameFigures_of_blank (forChans_blank retryDue_blank s)
  | attemptResets => exact sameFigures_of_blank (forChans_blank attemptReset_blank s)
  | closeMeasurement | supplyTest | budget | admission | peerPresence | holdRemovals | publication | isolation => cases h

theorem runTasks_sameFigures {ts : List EpochTask} (h : ∀ t ∈ ts, t.atChannels = true) (n : Nat) (din : DinLevels) (s : State) :
    s.SameFigures (runTasks n din ts s) := by
  refine List.foldlRecOn ts (motive := fun t : State => s.SameFigures t) _ (.refl s) ?_
  exact fun u hu t ht => hu.trans (runTask_sameFigures (h t ht) n din u)

/-- The orders of the Budget Unit leave its figures (R16–R18). -/
theorem orders_keep_sameFigures : OrdersKeep State.SameFigures where
  refl := .refl
  trans := .trans
  shed c _ s _ := sameFigures_of_blank (shed_blank c _ s)
  throttle c _ s _ := sameFigures_of_blank (throttle_blank c _ s)
  capRaise c _ s := sameFigures_of_blank (capRaise_blank c _ s)
  restore c s := sameFigures_of_blank (restore_blank c s)

/-- Without an excess nobody is to cut (R124). -/
theorem cutOf_of_none (shared own : Nat) : cutOf 0 shared own = 0 := by
  unfold cutOf
  split
  · rfl
  next some =>
    rw [Nat.zero_min, Nat.zero_mul, ceilDiv]
    exact Nat.div_eq_of_lt (by omega)

theorem shares_zero (s : State) (alone : Bool) :
    (s.shares alone 0).cut1 = 0 ∧ (s.shares alone 0).cut2 = 0 ∧ (s.shares alone 0).cut3 = 0 := by
  simp [State.shares, excessAfter, cutOf_of_none]

theorem shareExcess_cuts {s : State} (h : s.budget.carried.inUse.excess = 0) :
    (shareExcess s).budget.cut1 = 0 ∧ (shareExcess s).budget.cut2 = 0 ∧ (shareExcess s).budget.cut3 = 0 := by
  have none := shares_zero s s.budget.carried.wasAlone
  simp only [shareExcess, State.refreshFault, State.setDiag, State.setBudget, h, none, and_self]

/-! ### The evaluation amid what comes between its orders -/

/-- The evaluation that stood at `p` has come to the course `x`: of the parts that come between its orders some have been taken, and
the channels that have had a cap order meet `S`. -/
def Amid (n : Nat) (din : DinLevels) (r : Ruling) (D : List Milestone) (p : Point) (total : List EpochTask) (S : Chan → Prop)
    (x : Course) : Prop :=
  ∃ (ts : List EpochTask) (L : List (List EpochTask)) (K : List Chan), ts ++ L.flatten = total ∧
    x.between = L.map (runTasks n din) ∧ (∀ c ∈ K, S c) ∧ Reaches n din r p ⟨took ts D, K, x.now⟩

section
variable {n : Nat} {din : DinLevels} {r : Ruling} {D : List Milestone} {p : Point} {total : List EpochTask} {S : Chan → Prop}
  {x : Course} (fresh : Fresh total D)

theorem Amid.mono {T : Chan → Prop} (h : Amid n din r D p total S x) (g : ∀ c, S c → T c) : Amid n din r D p total T x := by
  obtain ⟨ts, L, K, all, between, capped, run⟩ := h
  exact ⟨ts, L, K, all, between, fun c hc => g c (capped c hc), run⟩

theorem Amid.loader (h : Amid n din r D p total S x) : x.now.loader = p.state.loader := by
  obtain ⟨ts, L, K, -, -, -, run⟩ := h
  exact run.loader

theorem Amid.cfg (h : Amid n din r D p total S x) (c : Chan) : x.now.cfg c = p.state.cfg c := cfg_congr h.loader c

/-- A step of the evaluation at the moment of the course. -/
theorem Amid.step (h : Amid n din r D p total S x) {u : State} {T : Chan → Prop}
    (takes : ∀ ts K, (∀ c ∈ K, S c) →
      ∃ K', (∀ c ∈ K', T c) ∧ Takes n din r ⟨took ts D, K, x.now⟩ ⟨took ts D, K', u⟩) :
    Amid n din r D p total T { x with now := u } := by
  obtain ⟨ts, L, K, all, between, capped, run⟩ := h
  obtain ⟨K', capped', last⟩ := takes ts K capped
  exact ⟨ts, L, K', all, between, capped', run.tail last⟩

include fresh

theorem Amid.pass (h : Amid n din r D p total S x) : Amid n din r D p total S x.pass := by
  obtain ⟨ts, L, K, all, between, capped, run⟩ := h
  unfold Course.pass
  cases L with
  | nil =>
    rw [between]
    exact ⟨ts, [], K, all, between, capped, run⟩
  | cons us rest =>
    rw [between]
    have later : Fresh us (took ts D) := by
      rw [← all, List.flatten_cons, ← List.append_assoc] at fresh
      exact fresh.left.right
    refine ⟨ts ++ us, rest, K, by rw [← all, List.flatten_cons, List.append_assoc], rfl, capped, ?_⟩
    rw [took_append]
    exact run.trans (reaches_runTasks later x.now)

/-- What is left between the orders comes after them. -/
theorem Amid.finish {E : List Milestone} {ts : List EpochTask} {L : List (List EpochTask)} {K : List Chan} (all : ts ++ L.flatten = total)
    (new : ∀ t, .taken t ∈ E → .taken t ∈ took ts D) {u : State} (run : Reaches n din r p ⟨E, K, u⟩) :
    Reaches n din r p ⟨took L.flatten E, K, Course.finish { between := L.map (runTasks n din), now := u }⟩ := by
  have later : Fresh L.flatten E := (all ▸ fresh).right.congr fun t ht => .inl (new t ht)
  have same : Course.finish { between := L.map (runTasks n din), now := u } = runTasks n din L.flatten u := by
    simp only [Course.finish, List.foldl_map]
    clear later all run
    induction L generalizing u with
    | nil => rfl
    | cons us rest ih => rw [List.foldl_cons, ih, List.flatten_cons, runTasks, runTasks, runTasks, List.foldl_append]
  rw [same]
  exact run.trans (reaches_runTasks later u)

/-- Orders that are no cap orders. -/
theorem Amid.orders {act : Chan → State → State → State} {chans : List Chan}
    (takes : ∀ c ∈ chans, ∀ (read s : State) D K, s.loader = p.state.loader → Takes n din r ⟨D, K, s⟩ ⟨D, K, act c read s⟩)
    (h : Amid n din r D p total S x) : Amid n din r D p total S (x.orders act chans) := by
  unfold Course.orders
  refine List.foldlRecOn chans (motive := Amid n din r D p total S) _ h fun y hy c hc => ?_
  have arrived := (hy.pass fresh).pass fresh
  exact arrived.step fun ts K capped => ⟨K, capped, takes c hc _ _ _ _ arrived.loader⟩

/-- Cap orders to channels that have had none. -/
theorem Amid.capOrders {act : Chan → State → State → State} {chans : List Chan} (once : chans.Nodup) (new : ∀ c ∈ chans, ¬S c)
    (takes : ∀ c ∈ chans, ∀ (read s : State) D K, s.loader = p.state.loader → c ∉ K → Takes n din r ⟨D, K, s⟩ ⟨D, c :: K, act c read s⟩)
    (h : Amid n din r D p total S x) : Amid n din r D p total (fun c => S c ∨ c ∈ chans) (x.orders act chans) := by
  unfold Course.orders
  induction chans generalizing x S with
  | nil => exact h.mono fun c hc => .inl hc
  | cons c rest ih =>
    obtain ⟨hc, once⟩ := List.nodup_cons.mp once
    have arrived := (h.pass fresh).pass fresh
    have ordered : Amid n din r D p total (fun d => S d ∨ d = c) (x.order (act c)) := by
      refine arrived.step fun ts K capped => ⟨c :: K, fun d hd => ?_, ?_⟩
      · exact (List.mem_cons.mp hd).elim .inr fun old => .inl (capped d old)
      · exact takes c List.mem_cons_self _ _ _ _ arrived.loader fun old => new c List.mem_cons_self (capped c old)
    refine (ih once (fun d hd => ?_) (fun d hd => takes d (List.mem_cons_of_mem _ hd)) ordered).mono fun d => ?_
    · rintro (old | rfl)
      · exact new d (List.mem_cons_of_mem _ hd) old
      · exact hc hd
    · rintro ((old | rfl) | later)
      · exact .inl old
      · exact .inr List.mem_cons_self
      · exact .inr (List.mem_cons_of_mem _ later)

/-! ### The parts of the evaluation -/

theorem Amid.shedForSupply (low : r.low = decide (x.now.sense.supply = .low)) (h : Amid n din r D p total S x) :
    Amid n din r D p total S (shedForSupplyAmid x) := by
  unfold shedForSupplyAmid
  split
  next is =>
    have passed := h.pass fresh
    refine passed.orders fresh fun c hc read s E K same => .sheds c .supply (by decide) ?_
    have cls : (x.pass.now.cfg c).cls = 3 := by
      have picked := (List.mem_filter.mp hc).2
      simp only [State.shedsForSupply, Bool.and_eq_true, decide_eq_true_eq] at picked
      exact picked.1
    rw [passed.cfg c] at cls
    simp [Ruling.down, low, is, cfg_congr same, cls]
  next => exact h

theorem Amid.sheds (cutting : r.cutting = true) {chans : List Chan} (h : Amid n din r D p total S x) :
    Amid n din r D p total S (x.orders (fun c _ => shed c .budget) chans) :=
  h.orders fresh fun c _ _ _ _ _ _ => .sheds c .budget (by decide) (by simp [Ruling.down, cutting])

theorem Amid.shedUntil (cutting : r.cutting = true) (need : Nat) (chans : List Chan) (sum : Nat) (h : Amid n din r D p total S x) :
    Amid n din r D p total S (shedUntil need chans sum x) := by
  induction chans generalizing sum x with
  | nil => exact h
  | cons c rest ih =>
    unfold Machine.shedUntil
    split
    · exact h
    · exact ih _ (h.sheds fresh cutting (chans := [c]))

/-- A cut in one class gives its channels a cap order each, at most. -/
theorem Amid.applyCut (k : Cls) (amount : Nat) (cutting : 0 < amount → r.cutting = true) (new : ∀ c, (p.state.cfg c).cls = k → ¬S c)
    (h : Amid n din r D p total S x) :
    Amid n din r D p total (fun c => S c ∨ (p.state.cfg c).cls = k) (applyCutAmid k amount x) := by
  simp only [applyCutAmid]
  split
  next => exact h.mono fun c hc => .inl hc
  next some =>
    have cutting := cutting (Nat.pos_of_ne_zero some)
    have passed := h.pass fresh
    have cls : ∀ c ∈ allChans.filter (x.pass.now.eligiblePwm k), (p.state.cfg c).cls = k := fun c hc => by
      have picked := (List.mem_filter.mp hc).2
      simp only [State.eligiblePwm, State.eligible, Bool.and_eq_true, decide_eq_true_eq] at picked
      rw [← passed.cfg c]
      exact picked.1.1
    split
    · refine Amid.mono (passed.capOrders fresh (allChans_nodup.filter _) (fun c hc => new c (cls c hc)) ?_) ?_
      · exact fun c _ read s E K _ hk => .throttles c _ (by simp [Ruling.down, cutting]) hk
      · exact fun c => .imp_right (cls c)
    · exact Amid.mono (((passed.sheds fresh cutting).shedUntil fresh cutting _ _ _)) fun c hc => .inl hc

/-- The own cuts (R124). -/
theorem Amid.cuts (cutting : 0 < x.now.budget.cut1 + x.now.budget.cut2 + x.now.budget.cut3 → r.cutting = true)
    (h : Amid n din r D p total (fun _ => False) x) :
    Amid n din r D p total (fun c => r.cutting = true ∧ (p.state.cfg c).cls ≠ 0) (cutPart x) := by
  simp only [cutPart]
  split
  · cases hc : r.cutting with
    | false =>
      have none : x.now.budget.cut1 = 0 ∧ x.now.budget.cut2 = 0 ∧ x.now.budget.cut3 = 0 := by
        have := mt cutting (by simp [hc])
        omega
      simp only [applyCuts, none.1, none.2.1, none.2.2, applyCutAmid, if_true]
      exact h.mono fun _ => False.elim
    | true =>
      have first := h.applyCut fresh 3 x.now.budget.cut3 (fun _ => hc) fun _ _ => id
      have second := first.applyCut fresh 2 x.now.budget.cut2 (fun _ => hc) fun c is => by simp [is]
      have third := second.applyCut fresh 1 x.now.budget.cut1 (fun _ => hc) fun c is => by simp [is]
      refine third.mono fun c hc => ⟨rfl, ?_⟩
      rcases hc with ((never | is) | is) | is
      · exact never.elim
      all_goals simp [is]
  · exact h.mono fun _ => False.elim

/-- A restore step in a class that may be restored (R130). -/
theorem Amid.restoreStep {k : Cls} (up : r.down k = false) (h : Amid n din r D p total (fun _ => False) x) :
    Amid n din r D p total (fun _ => True) (restoreStepAmid k x) := by
  simp only [restoreStepAmid]
  split
  · split
    next c chosen =>
      have cls : (x.now.cfg c).cls = k := by
        have among := List.mem_of_getLast? chosen
        simp only [State.byRank, List.mem_flatMap, List.mem_filter, State.restorable, Bool.and_eq_true, decide_eq_true_eq] at among
        obtain ⟨-, -, ⟨-, is, -⟩, -⟩ := among
        exact is
      rw [h.cfg c] at cls
      refine Amid.mono (h.orders fresh (chans := [c]) (act := fun c _ => restore c) fun d hd read s E K same => .restores d ?_) fun _ _ => trivial
      rw [List.mem_singleton.mp hd, cfg_congr same, cls, up]
    next => exact h.mono fun _ _ => trivial
  · refine Amid.mono (h.capOrders fresh (allChans_nodup.filter _) (fun _ _ => id) fun c hc read s E K same hk => .raises c _ ?_ hk)
      fun _ _ => trivial
    have picked := (List.mem_filter.mp hc).2
    simp only [State.capped, Bool.and_eq_true, decide_eq_true_eq] at picked
    rw [cfg_congr same, ← h.cfg c, picked.1, up]

end

end Sys2Proof.Machine


namespace Sys2Proof.Machine

section
variable {n : Nat} {din : DinLevels} {r : Ruling} {D : List Milestone} {p : Point} {total : List EpochTask} {S : Chan → Prop}
  {x : Course}

/-- The settle count as R128 writes it falls while it runs, and from 0 stays or goes to 2. -/
theorem settleAfter_cases (b : BudgetUnit) :
    (0 < b.settle → settleAfter b.settle b.cutting = b.settle - 1) ∧
      (b.settle = 0 → settleAfter b.settle b.cutting = 0 ∨ settleAfter b.settle b.cutting = 2) := by
  unfold settleAfter
  constructor
  · intro runs
    have quiet : b.cutting = false := by simp [BudgetUnit.cutting, Nat.pos_iff_ne_zero.mp runs]
    simp [quiet]
  · intro rests
    split
    · exact .inr rfl
    · exact .inl (by omega)

theorem restoreOpens_iff {s : State} : s.restoreOpens = true → s.budget.carried.inUse.excess = 0 ∧ s.budget.settle = 0 := by
  simp only [State.restoreOpens, restoreOpen, Bool.and_eq_true, decide_eq_true_eq]
  exact fun ⟨calm, _, rests⟩ => ⟨calm, rests⟩

/-- A class that is restored stands where the supply lets it be (R129, R130). -/
theorem restoring_spec {s : State} {k : Cls} (h : s.restoring = some k) :
    s.restoreOpens = true ∧ ¬(s.sense.supply = .low ∧ k = 3) := by
  unfold State.restoring at h
  split at h
  next opens =>
    have qualifies := List.find?_some h
    simp only [State.qualifies, classRestorable, Bool.and_eq_true, Bool.not_eq_true', Bool.and_eq_false_iff, decide_eq_false_iff_not]
      at qualifies
    exact ⟨opens, fun ⟨low, is⟩ => qualifies.1.elim (· low) (· is)⟩
  next => cases h

theorem Amid.readForRestore (fresh : Fresh total D) (h : Amid n din r D p total S x) :
    Amid n din r D p total S x.readForRestore := by
  unfold Course.readForRestore
  split
  · exact h.pass fresh
  · exact h

/-- The restore step and the settle count (R128–R130): what is left between the orders then comes after them. -/
theorem Amid.restores (fresh : Fresh total D) (formed : .formed ∈ D) (early : .settled ∉ D)
    (cutting : x.now.budget.carried.inUse.excess = 0 → r.cutting = false) (low : r.low = decide (x.now.sense.supply = .low))
    (safe : x.Safe State.SameFigures) (h : Amid n din r D p total (fun c => r.cutting = true ∧ (p.state.cfg c).cls ≠ 0) x) :
    ∃ (ts : List EpochTask) (L : List (List EpochTask)) (K : List Chan), ts ++ L.flatten = total ∧ (restorePart x).between = L.map (runTasks n din) ∧
      Reaches n din r p ⟨.settled :: took ts D, K, (restorePart x).now⟩ := by
  have read := h.readForRestore fresh
  obtain ⟨⟨budget, sense⟩, later⟩ := readForRestore_leads orders_keep_sameFigures x safe
  have notYet (ts : List EpochTask) : Milestone.settled ∉ took ts D := fun is =>
    (mem_took.mp is).elim early fun ⟨_, _, same⟩ => nomatch same
  simp only [restorePart]
  split
  next k restoring =>
    obtain ⟨opens, supply⟩ := restoring_spec restoring
    obtain ⟨calm, rests⟩ := restoreOpens_iff opens
    have off : r.cutting = false := cutting (by rw [← budget, calm])
    have up : r.down k = false := by
      rw [sense] at supply
      simp only [Ruling.down, off, low, Bool.false_or, Bool.and_eq_false_iff, decide_eq_false_iff_not]
      exact not_and_or.mp supply
    obtain ⟨ts, L, K, all, between, -, run⟩ :=
      Amid.restoreStep fresh up (read.mono fun c hc => absurd (off.symm.trans hc.1) (by decide))
    have settle : (restoreStepAmid k x.readForRestore).now.budget.settle = 0 := by
      rw [(restoreStepAmid_leads orders_keep_sameFigures k _ later).1.budget, rests]
    exact ⟨ts, L, K, all, between, run.tail (.settles 2 (mem_took.mpr (.inl formed)) (notYet ts)
      (fun runs => absurd settle (Nat.pos_iff_ne_zero.mp runs)) fun _ => .inr rfl)⟩
  next =>
    obtain ⟨ts, L, K, all, between, -, run⟩ := read
    obtain ⟨falls, rests⟩ := settleAfter_cases x.readForRestore.now.budget
    exact ⟨ts, L, K, all, between, run.tail (.settles _ (mem_took.mpr (.inl formed)) (notYet ts) falls rests)⟩

end

/-- A whole evaluation, with parts taken inside it, is a run (R117–R132). -/
theorem evaluateAmid_reaches {n : Nat} {din : DinLevels} {D : List Milestone} {L : List (List EpochTask)} (fresh : Fresh L.flatten D)
    (atChannels : ∀ t ∈ L.flatten, t.atChannels = true) (closed : .taken .closeMeasurement ∈ D) (tested : .taken .supplyTest ∈ D)
    (formed : .formed ∉ D) (settled : .settled ∉ D) (evaluated : .taken .budget ∉ D) (s : State) :
    ∃ cutting low, ∀ admitted, ∃ D' K', (∀ m, m ∈ D' ↔ m ∈ D ∨ m = .formed ∨ m = .settled ∨ m = .taken .budget ∨
        ∃ t ∈ L.flatten, m = .taken t) ∧
      Reaches n din ⟨cutting, low, admitted⟩ ⟨D, [], s⟩ ⟨D', K', evaluateAmid (L.map (runTasks n din)) s⟩ := by
  refine ⟨decide (0 < (formFigures s).budget.carried.inUse.excess), decide (s.sense.supply = .low), fun admitted => ?_⟩
  generalize hr : Ruling.mk _ _ admitted = r
  have ruled : r.cutting = decide (0 < (formFigures s).budget.carried.inUse.excess) := hr ▸ rfl
  have low : r.low = decide (s.sense.supply = .low) := hr ▸ rfl
  clear hr
  have fresh : Fresh L.flatten (.formed :: D) := fresh.congr fun t ht => .inl ((List.mem_cons.mp ht).resolve_left (by simp))
  have early : Milestone.settled ∉ .formed :: D := by simp [settled]
  have safe : Course.Safe State.SameFigures { between := L.map (runTasks n din), now := formFigures s } := by
    intro event he u
    obtain ⟨ts, hts, rfl⟩ := List.mem_map.mp he
    exact runTasks_sameFigures (fun t ht => atChannels t (List.mem_flatten.mpr ⟨ts, hts, ht⟩)) n din u
  have begun : Amid n din r (.formed :: D) ⟨.formed :: D, [], formFigures s⟩ L.flatten (fun _ => False)
      { between := L.map (runTasks n din), now := formFigures s } := ⟨[], L, [], rfl, rfl, by simp, .refl⟩
  have shed := begun.shedForSupply fresh low
  obtain ⟨⟨budget1, sense1⟩, safe1⟩ := shedForSupplyAmid_leads orders_keep_sameFigures _ safe
  generalize hx1 : shedForSupplyAmid { between := L.map (runTasks n din), now := formFigures s } = x1 at shed budget1 sense1 safe1
  have shared : Amid n din r (.formed :: D) ⟨.formed :: D, [], formFigures s⟩ L.flatten (fun _ => False)
      { x1 with now := shareExcess x1.now } := by
    refine shed.step fun ts K capped => ⟨K, capped, .shares (mem_took.mpr (.inl List.mem_cons_self)) fun is => ?_⟩
    exact (mem_took.mp is).elim early fun ⟨_, _, same⟩ => nomatch same
  have carried : (shareExcess x1.now).budget.carried = (formFigures s).budget.carried :=
    (congrArg BudgetUnit.carried budget1 :)
  have cut := shared.cuts fresh fun some => by
    rw [ruled, decide_eq_true_eq, ← carried]
    by_contra none
    obtain ⟨none1, none2, none3⟩ := shareExcess_cuts (s := x1.now) (Nat.eq_zero_of_not_pos none)
    simp [none1, none2, none3] at some
  obtain ⟨⟨budget2, sense2⟩, safe2⟩ := cutPart_leads orders_keep_sameFigures { x1 with now := shareExcess x1.now } safe1
  obtain ⟨ts, L', K, all, between, run⟩ := cut.restores fresh List.mem_cons_self early
    (fun calm => by rw [ruled, ← carried, ← congrArg BudgetUnit.carried budget2, calm]; rfl)
    (by rw [low, sense2, show (shareExcess x1.now).sense = x1.now.sense from rfl, sense1]; rfl) safe2
  have ended := Amid.finish fresh (E := .settled :: took ts (.formed :: D)) all
    (fun t ht => (List.mem_cons.mp ht).resolve_left (by simp)) run
  refine ⟨.taken .budget :: took L'.flatten (.settled :: took ts (.formed :: D)), K, fun m => ?_, ?_⟩
  · simp only [List.mem_cons, mem_took, ← all, List.mem_append, or_and_right, exists_or]
    grind
  · have notYet : Milestone.taken .budget ∉ took L'.flatten (.settled :: took ts (.formed :: D)) := fun is => by
      simp only [mem_took, List.mem_cons, reduceCtorEq, false_or, Milestone.taken.injEq, exists_eq_right'] at is
      rcases is with (old | inside) | inside
      · exact evaluated old
      · exact (fresh.plain _ (all ▸ List.mem_append_left _ inside)).1 rfl
      · exact (fresh.plain _ (all ▸ List.mem_append_right _ inside)).1 rfl
    have same : evaluateAmid (L.map (runTasks n din)) s =
        ((restorePart (cutPart { x1 with now := shareExcess x1.now })).finish).handOver
          (.status (restorePart (cutPart { x1 with now := shareExcess x1.now })).finish.statusContent) := by
      rw [← hx1]
      rfl
    rw [← between] at ended
    rw [same]
    exact .trans (.head (.forms closed tested formed) ended) (.single (.status (mem_took.mpr (.inl List.mem_cons_self)) notYet))

end Sys2Proof.Machine


/-! The admission of an epoch start as a run of steps (R9, R141, R145, R146), and the epoch start proper as one, in whatever order its
parts are taken. -/

namespace Sys2Proof.Machine

section
variable {n : Nat} {din : DinLevels} {D : List Milestone} {K : List Chan}

/-- What comes after one another is taken in order. -/
theorem foldl_runTask (n : Nat) (din : DinLevels) (ts : List EpochTask) (s : State) :
    (ts.map (runTask n din)).foldl (fun s event => event s) s = runTasks n din ts s := by
  rw [List.foldl_map]
  rfl

/-- A grant and the parts before and after its arrival. -/
theorem grantAfter_reaches {x : Claim} {r : Ruling} (admitted : r.admitted = some x) {ts : List EpochTask} (fresh : Fresh ts D)
    (atChannels : ∀ t ∈ ts, t.atChannels = true) (early : .decided ∉ D) {s : State}
    (held : s.sched.ordinary = some { x with phase := .held }) :
    ∃ D', (∀ m, m ∈ D' ↔ m ∈ D ∨ m = .decided ∨ ∃ t ∈ ts, m = .taken t) ∧
      Reaches n din r ⟨D, K, s⟩ ⟨D', K, grantAfter x.chan (ts.map (runTask n din)) s⟩ := by
  induction ts generalizing D s with
  | nil => exact ⟨.decided :: D, by simp [or_comm], .single (.grants x admitted early fun _ => held)⟩
  | cons t rest ih =>
    have plain := fresh.plain t List.mem_cons_self
    have first : Takes n din r ⟨D, K, s⟩ ⟨.taken t :: D, K, runTask n din t s⟩ :=
      .part t plain.1 plain.2 fun _ => fresh.new t List.mem_cons_self
    have later : Fresh rest (.taken t :: D) := Fresh.right (ts := [t]) fresh
    have early : Milestone.decided ∉ .taken t :: D := by simpa using early
    have span := runTask_spanKept (c := x.chan) (atChannels t List.mem_cons_self) n din s
    rw [List.map_cons]
    unfold grantAfter
    simp only []
    split
    next waits =>
      obtain ⟨D', all, run⟩ := ih later (fun u hu => atChannels u (List.mem_cons_of_mem _ hu)) early (span waits _ held rfl)
      exact ⟨D', fun m => by rw [all]; simp only [List.mem_cons]; grind, .head first run⟩
    next left =>
      have arrives : Takes n din r ⟨.taken t :: D, K, runTask n din t s⟩ ⟨.decided :: .taken t :: D, K, _⟩ :=
        .grants x admitted early fun waits => absurd waits left
      have later : Fresh rest (.decided :: .taken t :: D) :=
        later.congr fun u hu => .inl ((List.mem_cons.mp hu).resolve_left (by simp))
      rw [foldl_runTask]
      exact ⟨_, fun m => by simp only [mem_took, List.mem_cons]; grind,
        .head first (.head arrives (reaches_runTasks later _))⟩

/-- The claim that the admission decision admits (R145). -/
def State.admittedClaim (s : State) : Option Claim := s.sched.ordinary.filter fun x => x.phase = .settling && s.admits x

theorem admittedClaim_eq_some {s : State} {x : Claim} :
    s.admittedClaim = some x ↔ s.sched.ordinary = some x ∧ x.phase = .settling ∧ s.admits x = true := by
  simp [State.admittedClaim, Option.filter_eq_some_iff]

theorem admittedClaim_eq_none {s : State} {x : Claim} (hx : s.sched.ordinary = some x)
    (fails : x.phase = .settling → ¬s.admits x = true) : s.admittedClaim = none := by
  rw [Option.eq_none_iff_forall_ne_some]
  intro y hy
  obtain ⟨same, hp, admits⟩ := admittedClaim_eq_some.mp hy
  cases hx.symm.trans same
  exact fails hp admits

/-- Admission and selection, with parts taken before a grant arrives, are a run (R141, R145, R146). -/
theorem budgetEvaluatedAmid_reaches {r : Ruling} {ts : List EpochTask} (fresh : Fresh ts D) (atChannels : ∀ t ∈ ts, t.atChannels = true)
    (evaluated : .taken .budget ∈ D) (early : .decided ∉ D) (once : .taken .admission ∉ D) {s : State}
    (ruled : r.admitted = s.admittedClaim) :
    ∃ D', (∀ m, m ∈ D' ↔ m ∈ D ∨ m = .decided ∨ m = .taken .admission ∨ ∃ t ∈ ts, m = .taken t) ∧
      Reaches n din r ⟨D, K, s⟩ ⟨D', K, budgetEvaluatedAmid (ts.map (runTask n din)) s⟩ := by
  -- once the decision is made, the other parts and the selection follow
  have later : Fresh ts (.decided :: D) := fresh.congr fun t ht => .inl ((List.mem_cons.mp ht).resolve_left (by simp))
  have ends (u : State) : Reaches n din r ⟨.decided :: D, K, u⟩
      ⟨.taken .admission :: took ts (.decided :: D), K, select (runTasks n din ts u)⟩ := by
    refine (reaches_runTasks later u).tail (.selects (mem_took.mpr (.inl List.mem_cons_self))
      (mem_took.mpr (.inl (List.mem_cons_of_mem _ evaluated))) fun is => ?_)
    rcases mem_took.mp is with old | ⟨t, ht, same⟩
    · exact once (by simpa using old)
    · cases same
      exact (fresh.plain _ ht).2 rfl
  have spec (m : Milestone) : m ∈ .taken .admission :: took ts (.decided :: D) ↔
      m ∈ D ∨ m = .decided ∨ m = .taken .admission ∨ ∃ t ∈ ts, m = .taken t := by
    simp only [mem_took, List.mem_cons]
    grind
  unfold budgetEvaluatedAmid decideAdmissionAmid
  simp only [foldl_runTask]
  split
  next x hx =>
    split_ifs with hp admits
    · have admitted : r.admitted = some x := ruled.trans (admittedClaim_eq_some.mpr ⟨hx, hp, admits⟩)
      have hold : Takes n din r ⟨D, K, s⟩ ⟨D, K, holdClaim x s⟩ := .holds x hx hp admits admitted evaluated early
      obtain ⟨D', all, run⟩ := grantAfter_reaches (n := n) (din := din) (K := K) admitted fresh atChannels early
        (holdClaim_ordinary x s)
      refine ⟨.taken .admission :: D', fun m => by rw [List.mem_cons, all]; grind, (Relation.ReflTransGen.head hold run).tail ?_⟩
      refine .selects ((all _).mpr (by simp)) ((all _).mpr (.inl evaluated)) fun is => ?_
      rcases (all _).mp is with old | same | ⟨t, ht, same⟩
      · exact once old
      · cases same
      · cases same
        exact (fresh.plain _ ht).2 rfl
    · have admitted : r.admitted = none := ruled.trans (admittedClaim_eq_none hx fun _ => admits)
      exact ⟨_, spec, .head (.refuses x hx hp (Bool.eq_false_of_not_eq_true admits) admitted evaluated early) (ends _)⟩
    · have admitted : r.admitted = none := ruled.trans (admittedClaim_eq_none hx fun is => absurd is hp)
      refine ⟨_, spec, .head (.idles (fun y hy => ?_) admitted early) (ends _)⟩
      rwa [← Option.some.inj (hx.symm.trans hy)]
  next hx =>
    have admitted : r.admitted = none := ruled.trans (by rw [State.admittedClaim, hx]; rfl)
    exact ⟨_, spec, .head (.idles (fun y hy => nomatch hx.symm.trans hy) admitted early) (ends _)⟩

end

/-! ### The order of the parts -/

/-- No `b` stands before the first `a`. -/
def Leading (a b : EpochTask) : List EpochTask → Prop
  | [] => True
  | t :: rest => t = a ∨ t ≠ b ∧ Leading a b rest

section
variable {a b : EpochTask}

theorem Leading.filter {P : EpochTask → Bool} (ha : P a = true) {l : List EpochTask} (h : Leading a b l) : Leading a b (l.filter P) := by
  induction l with
  | nil => trivial
  | cons t rest ih =>
    rw [List.filter_cons]
    rcases h with rfl | ⟨other, h⟩
    · rw [if_pos ha]
      exact .inl rfl
    · split
      · exact .inr ⟨other, ih h⟩
      · exact ih h

theorem Leading.firstOnly {l : List EpochTask} (h : Leading a b l) : Leading a b (firstOnly l) := by
  induction l with
  | nil => trivial
  | cons t rest ih =>
    rcases h with rfl | ⟨other, h⟩
    · exact .inl rfl
    · by_cases is : t = a
      · exact .inl is
      · exact .inr ⟨other, (ih h).filter (by simpa using Ne.symm is)⟩

theorem Leading.mem {l m : List EpochTask} (ne : a ≠ b) (h : Leading a b (l ++ b :: m)) : a ∈ l := by
  induction l with
  | nil => exact h.elim (fun e => absurd e.symm ne) fun ⟨e, _⟩ => absurd rfl e
  | cons t rest ih =>
    rcases h with rfl | ⟨-, h⟩
    · exact List.mem_cons_self
    · exact List.mem_cons_of_mem _ (ih h)

/-- What the parts need stands before them. -/
theorem leading_withNeeds (h : (a, b) ∈ [(EpochTask.closeMeasurement, EpochTask.budget), (.supplyTest, .budget), (.budget, .admission)])
    (l : List EpochTask) : Leading a b (l.flatMap withNeeds) := by
  simp only [List.mem_cons, Prod.mk.injEq, List.not_mem_nil, or_false] at h
  induction l with
  | nil => trivial
  | cons t rest ih =>
    rw [List.flatMap_cons]
    rcases h with ⟨rfl, rfl⟩ | ⟨rfl, rfl⟩ | ⟨rfl, rfl⟩ <;> cases t <;> simp [withNeeds, Leading, ih]

end

/-- The outside parts in which nothing but the evaluation and the admission is taken amid others: what they need stands before. -/
theorem outsideParts_split (o : EpochOrder) : ∃ A B C, outsideParts o = A ++ .budget :: (B ++ .admission :: C) ∧
    .closeMeasurement ∈ A ∧ .supplyTest ∈ A := by
  have leads {a b : EpochTask} (h : (a, b) ∈ [(EpochTask.closeMeasurement, EpochTask.budget), (.supplyTest, .budget), (.budget, .admission)])
      (ha : a.atChannels = false) : Leading a b (outsideParts o) := by
    refine ((leading_withNeeds h _).firstOnly).filter ?_
    rw [Bool.not_eq_true', ← Bool.not_eq_true, List.contains_iff_mem, List.mem_append]
    rintro (inside | span)
    · exact absurd (insideParts_spec inside).1 (by simp [ha])
    · exact absurd (spanParts_spec span).1 (by simp [ha])
  have admission : EpochTask.admission ∈ outsideParts o := by
    refine List.mem_filter.mpr ⟨mem_orderParts (by decide) o, ?_⟩
    rw [Bool.not_eq_true', ← Bool.not_eq_true, List.contains_iff_mem, List.mem_append]
    rintro (inside | span)
    · exact absurd (insideParts_spec inside).1 (by decide)
    · exact absurd (spanParts_spec span).1 (by decide)
  obtain ⟨P, C, split⟩ := List.append_of_mem admission
  obtain ⟨A, B, rfl⟩ := List.append_of_mem ((split ▸ leads (a := .budget) (by simp) rfl).mem (by decide))
  have whole : outsideParts o = A ++ .budget :: (B ++ .admission :: C) := by simp [split]
  exact ⟨A, B, C, whole, (whole ▸ leads (a := .closeMeasurement) (by simp) rfl).mem (by decide),
    (whole ▸ leads (a := .supplyTest) (by simp) rfl).mem (by decide)⟩

theorem onceEach_nodup (taken : List EpochTask) (w : List (List EpochTask)) : (onceEach taken w).flatten.Nodup := by
  induction w generalizing taken with
  | nil => exact List.nodup_nil
  | cons ts rest ih =>
    simp only [onceEach, List.flatten_cons]
    refine List.nodup_append.mpr ⟨(firstOnly_nodup ts).filter _, ih _, fun a ha b hb same => ?_⟩
    exact (onceEach_spec _ _ hb).2 (List.mem_append_right _ (same ▸ ha))

section
variable {o : EpochOrder} {A B C : List EpochTask}

/-- The parts but the evaluation and the admission, in the order in which they are taken, are taken once each. -/
theorem plainParts_fresh (whole : outsideParts o = A ++ .budget :: (B ++ .admission :: C)) :
    Fresh (A ++ ((insideParts o).flatten ++ (B ++ (spanParts o ++ C)))) [] := by
  have nodup : (A ++ .budget :: (B ++ .admission :: C)).Nodup := whole ▸ (orderParts_nodup o).filter _
  have outside (t : EpochTask) : t ∈ outsideParts o ↔ t ∈ A ∨ t = .budget ∨ t ∈ B ∨ t = .admission ∨ t ∈ C := by
    rw [whole]
    simp
  have inside := onceEach_nodup o.tasks o.within
  have span := onceEach_nodup (o.tasks ++ (insideParts o).flatten) [o.granting]
  have apart (t : EpochTask) (h : t ∈ (insideParts o).flatten) := insideParts_spec h
  have apart' (t : EpochTask) (h : t ∈ spanParts o) := spanParts_spec h
  refine ⟨?_, fun t ht => ?_, by simp⟩
  · simp only [List.nodup_append, List.nodup_cons, List.mem_append, List.mem_cons] at nodup ⊢
    exact ⟨nodup.1, ⟨inside, ⟨nodup.2.1.2.1, ⟨span, by grind, by grind⟩, by grind⟩, by grind⟩, by grind⟩
  · have atChannels (h : t.atChannels = true) : t ≠ .budget ∧ t ≠ .admission := by
      constructor <;> rintro rfl <;> cases h
    simp only [List.nodup_append, List.nodup_cons, List.mem_append, List.mem_cons] at nodup ht
    grind

/-- Every part of the epoch start proper is taken, at one moment or another (R32). -/
theorem epochParts_taken (whole : outsideParts o = A ++ .budget :: (B ++ .admission :: C)) {t : EpochTask} (h : t ∈ epochParts) :
    t = .budget ∨ t = .admission ∨ t ∈ A ++ ((insideParts o).flatten ++ (B ++ (spanParts o ++ C))) := by
  by_cases amid : t ∈ (insideParts o).flatten ++ spanParts o
  · rw [List.mem_append] at amid
    simp only [List.mem_append]
    tauto
  · have outside : t ∈ outsideParts o := List.mem_filter.mpr ⟨mem_orderParts h o, by simpa using amid⟩
    rw [whole] at outside
    simp only [List.mem_append, List.mem_cons] at outside ⊢
    tauto

/-- A part that is neither the evaluation nor the admission is as `runTask` takes it. -/
theorem foldl_epochTask (n : Nat) (din : DinLevels) {ts : List EpochTask} (h : ∀ t ∈ ts, t ≠ .budget ∧ t ≠ .admission) (s : State) :
    ts.foldl (fun s t => epochTask n din o t s) s = runTasks n din ts s := by
  refine List.foldl_ext _ _ _ fun u t ht => ?_
  obtain ⟨hb, ha⟩ := h t ht
  cases t with
  | budget => exact absurd rfl hb
  | admission => exact absurd rfl ha
  | _ => rfl

end

/-- The epoch start proper is a run in which every part comes about (R32, log entries 3–5, 36). -/
theorem outsideParts_reaches (n : Nat) (din : DinLevels) (o : EpochOrder) (s : State) :
    ∃ r D K, (∀ t ∈ epochParts, .taken t ∈ D) ∧ .formed ∈ D ∧ .settled ∈ D ∧ .decided ∈ D ∧
      Reaches n din r ⟨[], [], s⟩ ⟨D, K, (outsideParts o).foldl (fun s t => epochTask n din o t s) s⟩ ∧
      ∀ x, r.admitted = some x → ∃ E L u, .decided ∉ E ∧ Reaches n din r ⟨[], [], s⟩ ⟨E, L, u⟩ ∧
        u.sched.ordinary = some x ∧ x.phase = .settling := by
  obtain ⟨A, B, C, whole, closed, tested⟩ := outsideParts_split o
  have fresh := plainParts_fresh whole
  have all := fun t ht => epochParts_taken (t := t) whole ht
  have freshA : Fresh A [] := fresh.left
  have freshI := fresh.right.left
  have freshB := fresh.right.right.left
  have freshS := fresh.right.right.right.left
  have freshC := fresh.right.right.right.right
  have memA {t : EpochTask} (h : t ∈ A) : Milestone.taken t ∈ took A [] := mem_took.mpr (.inr ⟨t, h, rfl⟩)
  -- the evaluation, with the parts taken inside it
  obtain ⟨cutting, low, evaluation⟩ := evaluateAmid_reaches (n := n) (din := din) freshI (fun t ht => (insideParts_spec ht).1)
    (memA closed) (memA tested) (by simp [mem_took]) (by simp [mem_took])
    (by simpa [mem_took] using fun h => (freshA.plain _ h).1 rfl) (runTasks n din A s)
  generalize hu : runTasks n din B (evaluateAmid ((insideParts o).map (runTasks n din)) (runTasks n din A s)) = u
  obtain ⟨E, K, memE, evaluated⟩ := evaluation u.admittedClaim
  generalize hr : Ruling.mk cutting low u.admittedClaim = r at evaluated
  have toB := reaches_runTasks (n := n) (din := din) (r := r) (K := K) (D := E) (ts := B)
    (freshB.congr fun t is => by
      simp only [memE, mem_took, List.not_mem_nil, false_or, reduceCtorEq, Milestone.taken.injEq, exists_eq_right'] at is ⊢
      rcases is with h | rfl | h
      · exact .inl (.inl h)
      · exact .inr fun hb => (freshB.plain _ hb).1 rfl
      · exact .inl (.inr h)) (evaluateAmid ((insideParts o).map (runTasks n din)) (runTasks n din A s))
  rw [hu] at toB
  have before := ((reaches_runTasks freshA s).trans evaluated).trans toB
  have early : Milestone.decided ∉ took B E := by simp [mem_took, memE]
  -- the admission, with the parts taken before a grant arrives
  obtain ⟨F, memF, decided⟩ := budgetEvaluatedAmid_reaches (n := n) (din := din) (K := K) (r := r) (D := took B E) (s := u)
    (freshS.congr fun t is => by
      simp only [memE, mem_took, List.not_mem_nil, false_or, reduceCtorEq, Milestone.taken.injEq, exists_eq_right'] at is ⊢
      rcases is with (h | rfl | h) | h
      · exact .inl (.inl (.inl h))
      · exact .inr fun hb => (freshS.plain _ hb).1 rfl
      · exact .inl (.inl (.inr h))
      · exact .inl (.inr h))
    (fun t ht => (spanParts_spec ht).1) (by simp [mem_took, memE]) early
    (by
      simp only [memE, mem_took, List.not_mem_nil, false_or, reduceCtorEq, Milestone.taken.injEq, exists_eq_right']
      rintro ((h | h) | h)
      · exact (freshA.plain _ h).2 rfl
      · exact (freshI.plain _ h).2 rfl
      · exact (freshB.plain _ h).2 rfl)
    (hr ▸ rfl)
  -- the parts after it
  have toC := reaches_runTasks (n := n) (din := din) (r := r) (K := K) (D := F) (ts := C)
    (freshC.congr fun t is => by
      simp only [memF, memE, mem_took, List.not_mem_nil, false_or, reduceCtorEq, Milestone.taken.injEq, exists_eq_right'] at is ⊢
      rcases is with ((h | rfl | h) | h) | rfl | h
      · exact .inl (.inl (.inl (.inl h)))
      · exact .inr fun hc => (freshC.plain _ hc).1 rfl
      · exact .inl (.inl (.inl (.inr h)))
      · exact .inl (.inl (.inr h))
      · exact .inr fun hc => (freshC.plain _ hc).2 rfl
      · exact .inl (.inr h)) (budgetEvaluatedAmid ((spanParts o).map (runTask n din)) u)
  have same : (outsideParts o).foldl (fun s t => epochTask n din o t s) s =
      runTasks n din C (budgetEvaluatedAmid ((spanParts o).map (runTask n din)) u) := by
    rw [whole, List.foldl_append, List.foldl_cons, List.foldl_append, List.foldl_cons, foldl_epochTask n din freshA.plain,
      foldl_epochTask n din freshC.plain]
    refine congrArg _ (congrArg _ ?_)
    rw [foldl_epochTask n din freshB.plain, ← hu]
    rfl
  rw [same]
  refine ⟨r, _, K, fun t ht => ?_, ?_, ?_, ?_, (before.trans decided).trans toC, fun x hx => ?_⟩
  · have first (h : .taken t ∈ E) : .taken t ∈ took C F := mem_took.mpr (.inl ((memF _).mpr (.inl (mem_took.mpr (.inl h)))))
    rcases all t ht with rfl | rfl | h
    · exact first ((memE _).mpr (by simp))
    · exact mem_took.mpr (.inl ((memF _).mpr (by simp)))
    · simp only [List.mem_append] at h
      rcases h with h | h | h | h | h
      · exact first ((memE _).mpr (.inl (memA h)))
      · exact first ((memE _).mpr (.inr (.inr (.inr (.inr ⟨t, h, rfl⟩)))))
      · exact mem_took.mpr (.inl ((memF _).mpr (.inl (mem_took.mpr (.inr ⟨t, h, rfl⟩)))))
      · exact mem_took.mpr (.inl ((memF _).mpr (.inr (.inr (.inr ⟨t, h, rfl⟩)))))
      · exact mem_took.mpr (.inr ⟨t, h, rfl⟩)
  · simp [mem_took, memF, memE]
  · simp [mem_took, memF, memE]
  · simp [mem_took, memF]
  · obtain ⟨hx, hp, -⟩ := admittedClaim_eq_some.mp ((show r.admitted = u.admittedClaim from hr ▸ rfl).symm.trans hx)
    exact ⟨_, K, u, early, before, hx, hp⟩

end Sys2Proof.Machine


/-! What every step of an epoch start leaves alone beyond the channels, the Scheduler's records and the frames: the Loader, the timer, the
Modulator, the bindings and the Store, the own MARK, the entries that stand, and how the rest may move. -/

namespace Sys2Proof.Machine

section
variable (c : Chan) (s : State)

theorem retryDue_kept : s.KeptByParts (retryDue c s) := by
  unfold retryDue retryAtChannel
  exact ite_kept ((updCh_kept s c _).trans (ite_kept (switchOn_kept c _)))

theorem attemptReset_kept : s.KeptByParts (attemptReset c s) := ite_kept (updCh_kept s c _)

theorem shed_kept (r : ShedReason) : s.KeptByParts (shed c r s) := ite_kept (enter_kept c s _ _)

theorem throttle_kept (n : Nat) : s.KeptByParts (throttle c n s) := by
  unfold throttle
  refine ite_kept ?_
  split
  · exact updCh_kept s c _
  · exact enter_kept c s _ _

theorem capRaise_kept (n : Nat) : s.KeptByParts (capRaise c n s) := ite_kept (updCh_kept s c _)

theorem restore_kept : s.KeptByParts (restore c s) := ite_kept (switchOn_kept c s)

theorem loadDuties_kept : s.KeptByParts (loadDuties s) := ⟨rfl, ⟨rfl, rfl, rfl⟩, .refl _, rfl⟩

end

/-- How far a peer has fallen silent (R100–R102). -/
def Presence.silence : Presence → Nat
  | .present => 0
  | .stale => 1
  | .absent => 2

/-- A peer entry stands, or falls silent; its age stays. -/
structure PeerEntry.Wanes (e f : PeerEntry) : Prop where
  age : f.age = e.age
  presence : f = e ∨ e.presence.silence < f.presence.silence

section
variable {e f g : PeerEntry}

theorem PeerEntry.Wanes.refl (e : PeerEntry) : e.Wanes e := ⟨rfl, .inl rfl⟩

theorem PeerEntry.Wanes.trans (h : e.Wanes f) (k : f.Wanes g) : e.Wanes g := by
  refine ⟨k.age.trans h.age, ?_⟩
  rcases h.presence with rfl | first
  · exact k.presence
  · rcases k.presence with rfl | last
    · exact .inr first
    · exact .inr (first.trans last)

/-- An entry that has not fallen silent stands. -/
theorem PeerEntry.Wanes.eq (h : e.Wanes f) (same : f.presence = e.presence) : f = e :=
  h.presence.resolve_right fun more => absurd more (by rw [same]; exact lt_irrefl _)

theorem PeerEntry.Wanes.silence_le (h : e.Wanes f) : e.presence.silence ≤ f.presence.silence := by
  rcases h.presence with rfl | more
  · exact le_refl _
  · exact more.le

theorem Presence.silence_inj {p q : Presence} (h : p.silence = q.silence) : p = q := by
  cases p <;> cases q <;> simp [Presence.silence] at h ⊢

theorem PeerEntry.toStale_wanes (e : PeerEntry) : e.Wanes e.toStale := by
  refine ⟨e.toStale_age, ?_⟩
  unfold PeerEntry.toStale
  split
  next due =>
    simp only [Bool.and_eq_true, decide_eq_true_eq] at due
    exact .inr (by simp [due.1, Presence.silence])
  next => exact .inl rfl

theorem PeerEntry.toAbsent_wanes (e : PeerEntry) : e.Wanes e.toAbsent := by
  refine ⟨e.toAbsent_age, ?_⟩
  unfold PeerEntry.toAbsent
  split
  next due =>
    simp only [Bool.and_eq_true, decide_eq_true_eq] at due
    exact .inr (by simp [due.1, Presence.silence])
  next => exact .inl rfl

end

/-- What an epoch start keeps beyond the channels, the supply and the figures: the peers fall silent or stand, a link once ISOLATED stays
so, and nothing else moves but the Scheduler's records, frames other than the MARK, the levels held of the inputs with the publication
count, entries that have run out, and the FAULT pin. -/
structure State.EpochKeeps (s t : State) : Prop where
  loader : t.loader = s.loader := by rfl
  timer : t.timer = s.timer := by rfl
  modulator : t.modulator = s.modulator := by rfl
  pins : t.pins = s.pins := by rfl
  isolate : t.cuts.isolate = s.cuts.isolate := by rfl
  table : t.signal = { s.signal with inputs := t.signal.inputs, pubCount := t.signal.pubCount } := by rfl
  diag : t.diag = { s.diag with faultAsserted := t.diag.faultAsserted } := by rfl
  link : { t.link with isolated := s.link.isolated }.blank = s.link.blank := by rfl
  markSlot : t.link.slots.mark = s.link.slots.mark := by rfl
  behindMark : s.link.onLine = some .mark →
    t.link.heldAside = s.link.heldAside ∧ t.link.lineWithdrawn = s.link.lineWithdrawn := by exact fun _ => ⟨rfl, rfl⟩
  isolated : s.link.isolated = true → t.link.isolated = true := by exact id
  peers : ∀ p, (s.peer p).Wanes (t.peer p) := by exact fun _ => .refl _
  entries : t.standingEntries = s.standingEntries := by rfl
  listen : t.sched.listen = s.sched.listen := by rfl

section
variable {s t u : State}

theorem State.EpochKeeps.refl (s : State) : s.EpochKeeps s := {}

theorem State.EpochKeeps.onLine (h : s.EpochKeeps t) : t.link.onLine = s.link.onLine :=
  (LinkController.onLine_of_blank h.link :)

theorem State.EpochKeeps.muted (h : s.EpochKeeps t) : t.link.muted = s.link.muted :=
  (LinkController.muted_of_blank h.link :)

theorem State.EpochKeeps.silence (h : s.EpochKeeps t) : t.link.silence = s.link.silence :=
  (LinkController.silence_of_blank h.link :)

theorem State.EpochKeeps.trans (h : s.EpochKeeps t) (g : t.EpochKeeps u) : s.EpochKeeps u where
  loader := g.loader.trans h.loader
  timer := g.timer.trans h.timer
  modulator := g.modulator.trans h.modulator
  pins := g.pins.trans h.pins
  isolate := g.isolate.trans h.isolate
  table := by rw [g.table, h.table]
  diag := by rw [g.diag, h.diag]
  link := (congrArg (fun l : LinkController => { l with isolated := s.link.isolated }) g.link).trans h.link
  markSlot := g.markSlot.trans h.markSlot
  behindMark on := by
    obtain ⟨held, noted⟩ := h.behindMark on
    obtain ⟨held', noted'⟩ := g.behindMark (h.onLine.trans on)
    exact ⟨held'.trans held, noted'.trans noted⟩
  isolated was := g.isolated (h.isolated was)
  peers p := (h.peers p).trans (g.peers p)
  entries := g.entries.trans h.entries
  listen := g.listen.trans h.listen

/-- The channels, the Scheduler and the slots alone. -/
theorem State.KeptByParts.epochKeeps (h : s.KeptByParts t) : s.EpochKeeps t where
  loader := h.loader
  timer := h.timer
  modulator := h.modulator
  pins := h.pins
  isolate := congrArg CutCauses.isolate h.cuts
  table := h.table
  diag := by rw [h.diag]
  link := by
    have same : t.link.blank.isolated = s.link.blank.isolated := congrArg LinkController.isolated h.mark.blank
    change t.link.isolated = s.link.isolated at same
    rw [← same]
    exact h.mark.blank
  markSlot := h.mark.slot
  behindMark := h.mark.behind
  isolated was := (congrArg LinkController.isolated h.mark.blank : t.link.blank.isolated = s.link.blank.isolated).trans was
  peers p := by
    rw [peer_congr h.peers]
    exact .refl _
  entries := by rw [State.standingEntries, State.standingEntries, h.reservations]
  listen := h.counts.2.2

theorem ite_epochKeeps {p : Prop} [Decidable p] (h : s.EpochKeeps t) : s.EpochKeeps (if p then t else s) := by
  split
  · exact h
  · exact .refl s

end

theorem forChans_epochKeeps {f : Chan → State → State} (h : ∀ c (s : State), s.EpochKeeps (f c s)) (s : State) :
    s.EpochKeeps (forChans f s) :=
  List.foldlRecOn allChans (motive := fun t : State => s.EpochKeeps t) _ (.refl s) fun _ ht c _ => ht.trans (h c _)

section
variable (s : State)

theorem trip_epochKeeps (c : Chan) (k : FaultKind) (current step : Nat) : s.EpochKeeps (trip c k current step s) := by
  unfold trip
  refine ite_epochKeeps ?_
  exact ((updCh_kept s c _).trans (enter_kept c _ _ _)).epochKeeps.trans {}

theorem windowEnd_epochKeeps (c : Chan) : s.EpochKeeps (windowEnd c s) := by
  unfold windowEnd
  refine ite_epochKeeps ?_
  split
  · split
    · exact trip_epochKeeps s c _ _ _
    · exact (enter_kept c s _ _).epochKeeps
  · exact (enter_kept c s _ _).epochKeeps

theorem setSupplyCause_epochKeeps (low : Bool) : s.EpochKeeps (setSupplyCause low s) := by
  have set : s.EpochKeeps (s.setCauses { s.cuts with supply := low }) := {}
  have begins : (s.setCauses { s.cuts with supply := low }).KeptByParts (cutBegins (s.setCauses { s.cuts with supply := low })) :=
    forChans_kept (fun c s => enter_kept c s _ _) _
  have ends : (s.setCauses { s.cuts with supply := low }).KeptByParts (cutEnds (s.setCauses { s.cuts with supply := low })) :=
    forChans_kept (fun c s => ite_kept (retake_kept c s)) _
  simp only [setSupplyCause, changeCauses]
  split_ifs
  · exact set.trans begins.epochKeeps
  · exact set.trans ends.epochKeeps
  · exact set

theorem publish_epochKeeps : s.EpochKeeps (publish s) := (publish_kept s).epochKeeps

theorem peerPresence_peer (p : Stn) : (peerPresence s).peer p = (s.peer p).toStale.toAbsent := by
  simp [peerPresence, State.mapPeers_peer]

theorem peerPresence_epochKeeps : s.EpochKeeps (peerPresence s) where
  peers p := by
    rw [peerPresence_peer]
    exact (s.peer p).toStale_wanes.trans (s.peer p).toStale.toAbsent_wanes

theorem removeRunOut_epochKeeps : s.EpochKeeps (removeRunOut s) where
  entries := by simp [State.standingEntries, removeRunOut, State.setReservations, List.filter_filter]

theorem isolationDue_epochKeeps : s.EpochKeeps (isolationDue s) := by
  unfold isolationDue
  refine ite_epochKeeps ?_
  exact { isolated := fun _ => rfl }

/-- The parts but the evaluation and the admission. -/
theorem runTask_epochKeeps {t : EpochTask} (n : Nat) (din : DinLevels) (hb : t ≠ .budget) (ha : t ≠ .admission) :
    s.EpochKeeps (runTask n din t s) := by
  cases t with
  | budget => exact absurd rfl hb
  | admission => exact absurd rfl ha
  | loadDuties => exact (loadDuties_kept s).epochKeeps
  | readInputs => exact (readInputs_kept s din).epochKeeps
  | closeMeasurement => exact { entries := by simp [State.standingEntries, runTask, closeMeasurement] }
  | supplyTest =>
    simp only [runTask, testSupply]
    split
    · exact State.EpochKeeps.trans (t := s.setSense _) {} (setSupplyCause_epochKeeps _ false)
    · exact {}
  | signals =>
    simp only [runTask, resolveAll]
    exact (resolve_kept s _).epochKeeps
  | windowEnds => exact forChans_epochKeeps (fun c s => windowEnd_epochKeeps s c) s
  | retries => exact (forChans_kept retryDue_kept s).epochKeeps
  | attemptResets => exact (forChans_kept attemptReset_kept s).epochKeeps
  | peerPresence => exact peerPresence_epochKeeps s
  | holdRemovals => exact removeRunOut_epochKeeps s
  | publication => exact ite_epochKeeps (publish_epochKeeps s)
  | isolation => exact isolationDue_epochKeeps s

theorem holdClaim_epochKeeps (x : Claim) : s.EpochKeeps (holdClaim x s) := {}

theorem handOver_epochKeeps {f : Frame} (hf : f.slot ≠ .mark) : s.EpochKeeps (s.handOver f) := (handOver_kept s hf).epochKeeps

theorem refuse_epochKeeps (x : Claim) : s.EpochKeeps (refuse x s) := by
  unfold refuse
  exact ((releaseClaim_kept s x).trans (setClaim_kept _ none)).epochKeeps.trans {}

theorem select_epochKeeps : s.EpochKeeps (select s) := by
  unfold select
  refine ite_epochKeeps ?_
  split
  next c _ =>
    extract_lets x s1 s2
    have turned : s.EpochKeeps s1 := ite_epochKeeps {}
    refine (turned.trans (setClaim_kept s1 _).epochKeeps).trans (ite_epochKeeps ?_)
    exact handOver_epochKeeps s2 (by simp [Frame.slot])
  next => exact .refl s

end

section
variable {n : Nat} {din : DinLevels} {r : Ruling} {p q : Point}

theorem Takes.epochKeeps (h : Takes n din r p q) : p.state.EpochKeeps q.state := by
  cases h with
  | part t hb ha _ => exact runTask_epochKeeps _ n din hb ha
  | forms => exact {}
  | shares => exact {}
  | settles => exact {}
  | status => exact handOver_epochKeeps _ (by simp [Frame.slot])
  | sheds c reason => exact (shed_kept c _ reason).epochKeeps
  | throttles c cap => exact (throttle_kept c _ cap).epochKeeps
  | raises c by_ => exact (capRaise_kept c _ by_).epochKeeps
  | restores c => exact (restore_kept c _).epochKeeps
  | holds x => exact holdClaim_epochKeeps _ x
  | grants x => exact (grant_kept x.chan _).epochKeeps
  | refuses x => exact refuse_epochKeeps _ x
  | idles => exact .refl _
  | selects => exact select_epochKeeps _

theorem Reaches.epochKeeps (h : Reaches n din r p q) : p.state.EpochKeeps q.state :=
  h.relates .refl .trans fun _ _ => Takes.epochKeeps

end

end Sys2Proof.Machine


/-! The epoch start at one channel: `Befalls` lists what its steps make of a channel, and every epoch start takes the channel through a
run of them. -/

namespace Sys2Proof.Machine

/-! ### The waits of one channel -/

/-- The end of the inrush window of a channel whose count has run out (R12, R51). -/
def Channel.windowEnded (x : Channel) (k : ChannelConfig) (epoch : Nat) : Channel :=
  if x.state = .inrush ∧ x.inrushRemaining = 0 then
    match x.lastSample with
    | some v => if k.steadyLimit < v then x.trips k .stall v epoch 0 else x.enter .on .none k.window
    | none => x.enter .on .none k.window
  else x

/-- The retry of a channel whose timer has run out (R14, R54). -/
def Channel.retriedDue (x : Channel) (k : ChannelConfig) : Channel :=
  if x.retryTimer = some 0 then
    if x.state = .tripped ∧ demandOn k.mode x.demandLevel = true then Channel.wanted { x with retryTimer := none } k
    else { x with retryTimer := none }
  else x

/-- The reset of the attempt count (R55). -/
def Channel.attemptsDue (x : Channel) : Channel := if x.onEpochs = 50 then x.resetAttempts else x

section
variable (c d : Chan) (s : State)

theorem windowEnd_ch : (windowEnd c s).ch d =
    if d = c then (s.ch c).windowEnded (s.cfg c) s.timer.number else s.ch d := by
  have live (h : (s.ch c).state = .inrush) : (s.ch c).state.live = true := by simp [h, ChState.live]
  unfold windowEnd Channel.windowEnded
  simp only [Bool.and_eq_true, decide_eq_true_eq]
  split
  next ended =>
    cases (s.ch c).lastSample with
    | none => exact enter_ch c d s _ _
    | some v =>
      simp only []
      split
      · exact trip_ch c d s _ _ _ (live ended.1)
      · exact enter_ch c d s _ _
  next =>
    split
    next same => rw [same]
    next => rfl

theorem retryDue_ch : (retryDue c s).ch d = if d = c then (s.ch c).retriedDue (s.cfg c) else s.ch d := by
  unfold retryDue Channel.retriedDue
  split
  next due =>
    unfold retryAtChannel
    simp only [State.wants, State.updCh_cfg, State.updCh_ch_self, Bool.and_eq_true, decide_eq_true_eq]
    split
    · rw [switchOn_ch, State.updCh_ch_self, State.updCh_cfg]
      split
      · rfl
      next other => exact State.updCh_ch_ne s c _ other
    · exact State.updCh_ch s c _ d
  next =>
    split
    next same => rw [same]
    next => rfl

theorem attemptReset_ch : (attemptReset c s).ch d = if d = c then (s.ch c).attemptsDue else s.ch d := by
  unfold attemptReset Channel.attemptsDue
  split
  · exact State.updCh_ch s c _ d
  · split
    next same => rw [same]
    next => rfl

theorem windowEnds_ch : (windowEnds s).ch c = (s.ch c).windowEnded (s.cfg c) s.timer.number :=
  forChans_ch (g := fun c x => x.windowEnded (s.cfg c) s.timer.number)
    (fun e t ht => ⟨(windowEnd_blank e t).trans ht, fun d => by rw [windowEnd_ch, cfg_of_blank ht, timer_of_blank ht]⟩) c

theorem retries_ch : (retries s).ch c = (s.ch c).retriedDue (s.cfg c) :=
  forChans_ch (g := fun c x => x.retriedDue (s.cfg c))
    (fun e t ht => ⟨(retryDue_blank e t).trans ht, fun d => by rw [retryDue_ch, cfg_of_blank ht]⟩) c

theorem attemptResets_ch : (attemptResets s).ch c = (s.ch c).attemptsDue :=
  forChans_ch (g := fun _ x => x.attemptsDue)
    (fun e t ht => ⟨(attemptReset_blank e t).trans ht, fun d => attemptReset_ch e d t⟩) c

/-- The supply test ends the cut of SUPPLY where the mean lets it and ISOLATE is no cause (R20, R62). -/
abbrev State.SupplyEnds (n : Nat) : Prop :=
  s.sense.supply = .cut ∧ supplyAfterMean .cut (s.sense.supplySum / n) s.params.vLow s.params.vCut ≠ .cut ∧
    s.cuts = { isolate := false, supply := true }

theorem setSupplyCause_ch (x : SenseUnit) : (setSupplyCause false (s.setSense x)).ch c =
    if s.cuts = { isolate := false, supply := true } ∧ (s.ch c).state = .cut then (s.ch c).retaken (s.cfg c) else s.ch c := by
  unfold setSupplyCause changeCauses
  rcases hcuts : s.cuts with ⟨isolate, supply⟩
  cases isolate <;> cases supply <;> simp [CutCauses.isEmpty, hcuts, cutEnds_ch]

theorem testSupply_ch (n : Nat) : (testSupply n s).ch c =
    if s.SupplyEnds n ∧ (s.ch c).state = .cut then (s.ch c).retaken (s.cfg c) else s.ch c := by
  simp only [testSupply, Bool.and_eq_true, decide_eq_true_eq]
  split
  next ends =>
    rw [setSupplyCause_ch c s]
    exact if_congr (and_congr_left' ⟨fun set => ⟨ends.1, ends.1 ▸ ends.2, set⟩, fun h => h.2.2⟩) rfl rfl
  next other => exact (if_neg fun h => other ⟨h.1.1, by rw [h.1.1]; exact h.1.2.1⟩).symm

end

/-! ### What befalls a channel -/

/-- Where an epoch start stands at one channel. -/
structure Spot where
  done : List Milestone
  capped : Bool
  now : Channel

/-- What an epoch start holds for one channel: whether a direct input that changes is bound to it, the cut of SUPPLY ends, orders take from
it, and its claim is admitted. -/
structure Prospect where
  moves : Prop
  ends : Prop
  down : Prop
  admitted : Prop

/-- What one step makes of a channel of configuration `k` in an epoch start that closes `n` periods. -/
inductive Befalls (n : Nat) (k : ChannelConfig) (g : Prospect) : Spot → Spot → Prop
  /-- Something comes about that does not touch the channel. -/
  | notes {D b x} (m : Milestone)
      (h : m ∉ [.taken .closeMeasurement, .taken .loadDuties, .taken .signals, .taken .readInputs, .taken .supplyTest]) :
      Befalls n k g ⟨D, b, x⟩ ⟨m :: D, b, x⟩
  /-- A cap order is ignored. -/
  | ignores {D b x} : Befalls n k g ⟨D, b, x⟩ ⟨D, true, x⟩
  | closes {D b x} (once : .taken .closeMeasurement ∉ D) : Befalls n k g ⟨D, b, x⟩ ⟨.taken .closeMeasurement :: D, b, x.closeEpoch n⟩
  | loads {D b x} (once : .taken .loadDuties ∉ D) :
      Befalls n k g ⟨D, b, x⟩ ⟨.taken .loadDuties :: D, b, { x with activeDuty := x.shadowDuty }⟩
  | resolves {D b x} (level : Nat) (once : .taken .signals ∉ D) :
      Befalls n k g ⟨D, b, x⟩ ⟨.taken .signals :: D, b, if k.enabled = true then x.resolvedTo k level else x⟩
  | reads {D b x} (level : Nat) (once : .taken .readInputs ∉ D) (moves : g.moves) (enabled : k.enabled = true) :
      Befalls n k g ⟨D, b, x⟩ ⟨.taken .readInputs :: D, b, x.resolvedTo k level⟩
  | rests {D b x} (once : .taken .readInputs ∉ D) (still : ¬g.moves) : Befalls n k g ⟨D, b, x⟩ ⟨.taken .readInputs :: D, b, x⟩
  | freed {D b x} (once : .taken .supplyTest ∉ D) (ends : g.ends) (state : x.state = .cut) :
      Befalls n k g ⟨D, b, x⟩ ⟨.taken .supplyTest :: D, b, x.retaken k⟩
  | stays {D b x} (once : .taken .supplyTest ∉ D) (other : ¬(g.ends ∧ x.state = .cut)) :
      Befalls n k g ⟨D, b, x⟩ ⟨.taken .supplyTest :: D, b, x⟩
  | passes {D b x} (state : x.state = .inrush) (over_ : x.inrushRemaining = 0) :
      Befalls n k g ⟨D, b, x⟩ ⟨D, b, x.enter .on .none k.window⟩
  | stalls {D b x} (v epoch : Nat) (state : x.state = .inrush) (over_ : x.inrushRemaining = 0) (sample : x.lastSample = some v) :
      Befalls n k g ⟨D, b, x⟩ ⟨D, b, x.trips k .stall v epoch 0⟩
  | retries {D b x} (due : x.retryTimer = some 0) (state : x.state = .tripped) (on : demandOn k.mode x.demandLevel = true) :
      Befalls n k g ⟨D, b, x⟩ ⟨D, b, Channel.wanted { x with retryTimer := none } k⟩
  | expires {D b x} (due : x.retryTimer = some 0) (other : ¬(x.state = .tripped ∧ demandOn k.mode x.demandLevel = true)) :
      Befalls n k g ⟨D, b, x⟩ ⟨D, b, { x with retryTimer := none }⟩
  | forgives {D b x} : Befalls n k g ⟨D, b, x⟩ ⟨D, b, x.resetAttempts⟩
  | sheds {D b x} (r : ShedReason) (hr : r ≠ .none) (state : x.state = .on) (cls : k.cls ≠ 0) (down : g.down) :
      Befalls n k g ⟨D, b, x⟩ ⟨D, b, x.enter .shed r k.window⟩
  | caps {D x} (cap : Nat) (state : x.state = .on) (cls : k.cls ≠ 0) :
      Befalls n k g ⟨D, false, x⟩ ⟨D, true, Channel.recompute { x with cap := cap }⟩
  | restores {D b x} (state : x.state = .shed) (up : ¬g.down) : Befalls n k g ⟨D, b, x⟩ ⟨D, b, x.wanted k⟩
  | grants {D b x} (state : x.state = .requested) (admitted : g.admitted) :
      Befalls n k g ⟨D, b, x⟩ ⟨D, b, x.enter .inrush .none k.window⟩

/-- A run of what befalls a channel. -/
abbrev Undergoes (n : Nat) (k : ChannelConfig) (g : Prospect) : Spot → Spot → Prop := Relation.ReflTransGen (Befalls n k g)

section
variable {n : Nat} {k : ChannelConfig} {g : Prospect} {p q : Spot}

/-- What each step keeps, a run keeps. -/
theorem Undergoes.keeps (h : Undergoes n k g p q) {P : Spot → Prop} (keep : ∀ p q, Befalls n k g p q → P p → P q) (hp : P p) : P q := by
  induction h with
  | refl => exact hp
  | tail _ last ih => exact keep _ _ last ih

variable {D : List Milestone} {b : Bool} {x : Channel}

theorem undergoes_windowEnded (epoch : Nat) : Undergoes n k g ⟨D, b, x⟩ ⟨D, b, x.windowEnded k epoch⟩ := by
  unfold Channel.windowEnded
  split
  next h =>
    split
    next v sample =>
      split
      · exact .single (.stalls v epoch h.1 h.2 sample)
      · exact .single (.passes h.1 h.2)
    next => exact .single (.passes h.1 h.2)
  next => exact .refl

theorem undergoes_retriedDue : Undergoes n k g ⟨D, b, x⟩ ⟨D, b, x.retriedDue k⟩ := by
  unfold Channel.retriedDue
  split
  next due =>
    split
    next h => exact .single (.retries due h.1 h.2)
    next other => exact .single (.expires due other)
  next => exact .refl

theorem undergoes_attemptsDue : Undergoes n k g ⟨D, b, x⟩ ⟨D, b, x.attemptsDue⟩ := by
  unfold Channel.attemptsDue
  split
  · exact .single .forgives
  · exact .refl

end

/-! ### Every step of an epoch start, at one channel -/

/-- What an epoch start that has come to `s` and gives the ruling `r` holds for channel `c`. -/
def State.prospect (s : State) (n : Nat) (din : DinLevels) (r : Ruling) (c : Chan) : Prospect where
  moves := s.InputMoves din c
  ends := s.SupplyEnds n
  down := r.down (s.cfg c).cls = true
  admitted := ∃ x, r.admitted = some x ∧ x.chan = c

/-- An epoch start at channel `c`. -/
def Point.spot (p : Point) (c : Chan) : Spot := ⟨p.done, p.capped.contains c, p.state.ch c⟩

/-- Before the inputs are read and the supply is tested, what they hold for the channels stands. -/
structure Foresees (n : Nat) (din : DinLevels) (s : State) (p : Point) : Prop where
  loader : p.state.loader = s.loader
  bindings : p.state.signal.bindings = s.signal.bindings
  inputs : .taken .readInputs ∉ p.done → p.state.signal.inputs = s.signal.inputs
  supply : .taken .supplyTest ∉ p.done → p.state.sense.supply = s.sense.supply ∧ p.state.sense.supplySum = s.sense.supplySum ∧
    p.state.cuts = s.cuts

section
variable {n : Nat} {din : DinLevels} {r : Ruling} {s : State} {p q : Point}

theorem Foresees.moves (h : Foresees n din s p) (early : .taken .readInputs ∉ p.done) (c : Chan) :
    p.state.InputMoves din c ↔ s.InputMoves din c := inputMoves_congr h.loader h.bindings (h.inputs early) din

theorem Foresees.ends (h : Foresees n din s p) (early : .taken .supplyTest ∉ p.done) : p.state.SupplyEnds n ↔ s.SupplyEnds n := by
  obtain ⟨supply, sum, cuts⟩ := h.supply early
  simp only [State.SupplyEnds, supply, sum, cuts, params_congr h.loader]

/-- All but the reading of the inputs leave the levels held. -/
theorem runTask_inputs {t : EpochTask} (n : Nat) (din : DinLevels) (s : State) (hr : t ≠ .readInputs) (hb : t ≠ .budget)
    (ha : t ≠ .admission) : (runTask n din t s).signal.inputs = s.signal.inputs := by
  cases t with
  | readInputs => exact absurd rfl hr
  | budget => exact absurd rfl hb
  | admission => exact absurd rfl ha
  | loadDuties => rw [runTask, signal_of_blank (loadDuties_blank s)]
  | closeMeasurement => simp [runTask, closeMeasurement]
  | supplyTest =>
    simp only [runTask, testSupply]
    split
    · rw [signal_of_blank (setSupplyCause_blank _ _)]
      rfl
    · rfl
  | signals => simp only [runTask, resolveAll, signal_of_blank (resolve_blank _ s)]
  | windowEnds => exact congrArg _ (signal_of_blank (forChans_blank windowEnd_blank s))
  | retries => exact congrArg _ (signal_of_blank (forChans_blank retryDue_blank s))
  | attemptResets => exact congrArg _ (signal_of_blank (forChans_blank attemptReset_blank s))
  | peerPresence => simp [runTask, peerPresence]
  | holdRemovals => rfl
  | publication =>
    simp only [runTask, periodicPublication]
    split
    · exact publish_inputs s
    · rfl
  | isolation =>
    simp only [runTask, isolationDue]
    split <;> rfl

/-- The channels' and the Scheduler's steps leave the levels held of the inputs. -/
theorem Takes.inputs (h : Takes n din r p q) (late : .taken .readInputs ∉ q.done) :
    q.state.signal.inputs = p.state.signal.inputs := by
  cases h with
  | part t hb ha _ => exact runTask_inputs n din _ (fun e => late (e ▸ List.mem_cons_self)) hb ha
  | forms | shares | settles | status | idles => rfl
  | sheds c reason => exact congrArg _ (signal_of_blank (shed_blank c reason _))
  | throttles c cap => exact congrArg _ (signal_of_blank (throttle_blank c cap _))
  | raises c by_ => exact congrArg _ (signal_of_blank (capRaise_blank c by_ _))
  | restores c => exact congrArg _ (signal_of_blank (restore_blank c _))
  | holds x => exact congrArg _ (signal_of_blank (holdClaim_blank x _))
  | grants x => exact congrArg _ (signal_of_blank (grant_blank x.chan _))
  | refuses x => exact congrArg _ (signal_of_blank (refuse_blank x _))
  | selects => exact congrArg _ (signal_of_blank (select_blank _))

/-- All that is done stays done. -/
theorem Takes.done_subset (h : Takes n din r p q) : p.done ⊆ q.done := by
  cases h <;> simp

end

end Sys2Proof.Machine


namespace Sys2Proof.Machine

/-! ### The supply and the cut causes until the supply is tested -/

section
variable (s : State)

theorem trip_keeps_cuts (c : Chan) (k : FaultKind) (current step : Nat) : (trip c k current step s).cuts = s.cuts := by
  unfold trip
  split
  · exact ((updCh_kept s c _).trans (enter_kept c _ _ _)).cuts
  · rfl

theorem windowEnd_cuts (c : Chan) : (windowEnd c s).cuts = s.cuts := by
  unfold windowEnd
  split
  · split
    · split
      · exact trip_keeps_cuts s c _ _ _
      · exact (enter_kept c s _ _).cuts
    · exact (enter_kept c s _ _).cuts
  · rfl

theorem windowEnds_cuts : (windowEnds s).cuts = s.cuts := by
  unfold windowEnds forChans
  exact List.foldlRecOn allChans (motive := fun t : State => t.cuts = s.cuts) _ rfl fun _ ht c _ => (windowEnd_cuts _ c).trans ht

/-- The supply condition, its sum and the cut causes stand. -/
def State.SameSupply (s t : State) : Prop :=
  t.sense.supply = s.sense.supply ∧ t.sense.supplySum = s.sense.supplySum ∧ t.cuts = s.cuts

end

section
variable {s t u : State}

theorem State.SameSupply.refl (s : State) : s.SameSupply s := ⟨rfl, rfl, rfl⟩

theorem State.KeptByParts.sameSupply (h : s.KeptByParts t) : s.SameSupply t := ⟨by rw [h.sense], by rw [h.sense], h.cuts⟩

theorem runTask_sameSupply {t : EpochTask} (n : Nat) (din : DinLevels) (s : State) (hs : t ≠ .supplyTest) (hb : t ≠ .budget)
    (ha : t ≠ .admission) : s.SameSupply (runTask n din t s) := by
  cases t with
  | supplyTest => exact absurd rfl hs
  | budget => exact absurd rfl hb
  | admission => exact absurd rfl ha
  | loadDuties => exact (loadDuties_kept s).sameSupply
  | readInputs => exact (readInputs_kept s din).sameSupply
  | closeMeasurement => exact ⟨rfl, rfl, rfl⟩
  | signals =>
    simp only [runTask, resolveAll]
    exact (resolve_kept s _).sameSupply
  | windowEnds =>
    have sense := sense_of_blank (forChans_blank windowEnd_blank s)
    exact ⟨congrArg _ sense, congrArg _ sense, windowEnds_cuts s⟩
  | retries => exact (forChans_kept retryDue_kept s).sameSupply
  | attemptResets => exact (forChans_kept attemptReset_kept s).sameSupply
  | peerPresence => exact ⟨rfl, rfl, rfl⟩
  | holdRemovals => exact ⟨rfl, rfl, rfl⟩
  | publication => exact (ite_kept (publish_kept s)).sameSupply
  | isolation =>
    simp only [runTask, isolationDue]
    split <;> exact ⟨rfl, rfl, rfl⟩

variable {n : Nat} {din : DinLevels} {r : Ruling} {p q : Point}

theorem Takes.sameSupply (h : Takes n din r p q) (late : .taken .supplyTest ∉ q.done) : p.state.SameSupply q.state := by
  cases h with
  | part t hb ha _ => exact runTask_sameSupply n din _ (fun e => late (e ▸ List.mem_cons_self)) hb ha
  | forms | shares | settles | status | idles | holds => exact .refl _
  | sheds c reason => exact (shed_kept c _ reason).sameSupply
  | throttles c cap => exact (throttle_kept c _ cap).sameSupply
  | raises c by_ => exact (capRaise_kept c _ by_).sameSupply
  | restores c => exact (restore_kept c _).sameSupply
  | grants x => exact (grant_kept x.chan _).sameSupply
  | refuses x =>
    rw [refuse_eq]
    exact ⟨rfl, rfl, rfl⟩
  | selects =>
    refine ⟨?_, ?_, ?_⟩
    · rw [sense_of_blank (select_blank _)]
    · rw [sense_of_blank (select_blank _)]
    · unfold select
      split
      · split
        · simp only []
          split_ifs <;> rfl
        · rfl
      · rfl

theorem Foresees.start (n : Nat) (din : DinLevels) (s : State) (D : List Milestone) (K : List Chan) : Foresees n din s ⟨D, K, s⟩ :=
  ⟨rfl, rfl, fun _ => rfl, fun _ => ⟨rfl, rfl, rfl⟩⟩

theorem Foresees.takes (h : Foresees n din s p) (g : Takes n din r p q) : Foresees n din s q where
  loader := g.loader.trans h.loader
  bindings := by
    have table := g.epochKeeps.table
    rw [table]
    exact h.bindings
  inputs late := (g.inputs late).trans (h.inputs fun is => late (g.done_subset is))
  supply late := by
    obtain ⟨supply, sum, cuts⟩ := g.sameSupply late
    obtain ⟨supply', sum', cuts'⟩ := h.supply fun is => late (g.done_subset is)
    exact ⟨supply.trans supply', sum.trans sum', cuts.trans cuts'⟩

end

/-! ### What each step makes of a channel -/

section
variable {n : Nat} {din : DinLevels} {r : Ruling} {s : State} {p q : Point} (c : Chan)

theorem closeMeasurement_ch (n : Nat) (s : State) : (closeMeasurement n s).ch c = (s.ch c).closeEpoch n := by
  simp [closeMeasurement]

theorem resolveAll_ch (s : State) : (resolveAll s).ch c =
    if (s.cfg c).enabled = true then (s.ch c).resolvedTo (s.cfg c) (s.level c) else s.ch c := by
  rw [resolveAll, resolve_ch]
  simp

variable {D : List Milestone} {K : List Chan} {v : State}

/-- A part at channel `c`. -/
theorem runTask_undergoes (h : Foresees n din s ⟨D, K, v⟩) {t : EpochTask} (hb : t ≠ .budget) (ha : t ≠ .admission)
    (once : t ∈ epochParts → .taken t ∉ D) (b : Bool) : Undergoes n (s.cfg c) (s.prospect n din r c) ⟨D, b, v.ch c⟩
      ⟨.taken t :: D, b, (runTask n din t v).ch c⟩ := by
  have cfg : v.cfg c = s.cfg c := cfg_congr h.loader c
  cases t with
  | budget => exact absurd rfl hb
  | admission => exact absurd rfl ha
  | loadDuties =>
    refine .single ?_
    rw [runTask, loadDuties_ch]
    exact .loads (once (by decide))
  | readInputs =>
    refine .single ?_
    have early := once (by decide)
    by_cases moves : v.InputMoves din c
    · rw [runTask, readInputs_ch_of_moves moves, cfg]
      exact .reads _ early ((h.moves early c).mp moves) (cfg ▸ moves.1)
    · rw [runTask, readInputs_ch_of_not_moves moves]
      exact .rests early (mt (h.moves early c).mpr moves)
  | closeMeasurement =>
    refine .single ?_
    rw [runTask, closeMeasurement_ch]
    exact .closes (once (by decide))
  | supplyTest =>
    refine .single ?_
    have early := once (by decide)
    rw [runTask, testSupply_ch, cfg]
    split
    next ends => exact .freed early ((h.ends early).mp ends.1) ends.2
    next other => exact .stays early fun ends => other ⟨(h.ends early).mpr ends.1, ends.2⟩
  | signals =>
    refine .single ?_
    rw [runTask, resolveAll_ch, cfg]
    exact .resolves _ (once (by decide))
  | windowEnds =>
    rw [runTask, windowEnds_ch, cfg]
    exact (undergoes_windowEnded _).tail (.notes _ (by simp))
  | retries =>
    rw [runTask, retries_ch, cfg]
    exact undergoes_retriedDue.tail (.notes _ (by simp))
  | attemptResets =>
    rw [runTask, attemptResets_ch]
    exact undergoes_attemptsDue.tail (.notes _ (by simp))
  | peerPresence =>
    rw [show (runTask n din .peerPresence v).ch c = v.ch c by simp [runTask, peerPresence]]
    exact .single (.notes _ (by simp))
  | holdRemovals => exact .single (.notes _ (by simp))
  | publication =>
    rw [show (runTask n din .publication v).ch c = v.ch c by
      simp only [runTask, periodicPublication]; split <;> [exact publish_ch v c; rfl]]
    exact .single (.notes _ (by simp))
  | isolation =>
    rw [show (runTask n din .isolation v).ch c = v.ch c by
      simp only [runTask, isolationDue]; split <;> rfl]
    exact .single (.notes _ (by simp))

theorem refuse_ch (x : Claim) (s : State) : (refuse x s).ch c = s.ch c := by simp [refuse]

theorem spot_mk : Point.spot ⟨D, K, v⟩ c = ⟨D, K.contains c, v.ch c⟩ := rfl

theorem contains_of_not_mem {d : Chan} {K : List Chan} (h : d ∉ K) : K.contains d = false := by simpa using h

theorem contains_cons_of_ne {d : Chan} (h : c ≠ d) (K : List Chan) : (d :: K).contains c = K.contains c := by
  simp [h]

/-- A shed order at channel `c`. -/
theorem shed_undergoes {g : Prospect} {k : ChannelConfig} (cfg : v.cfg c = k) (d : Chan) {reason : ShedReason} (hr : reason ≠ .none)
    (down : c = d → g.down) (b : Bool) : Undergoes n k g ⟨D, b, v.ch c⟩ ⟨D, b, (shed d reason v).ch c⟩ := by
  unfold shed
  split
  next orderable =>
    rw [enter_ch]
    split
    next same =>
      subst same
      obtain ⟨state, cls⟩ := (orderable_iff c v).mp orderable
      rw [cfg] at cls ⊢
      exact .single (.sheds reason hr state cls (down rfl))
    next => exact .refl
  next => exact .refl

/-- A cap order at channel `c`, its first. -/
theorem setCap_undergoes {g : Prospect} {k : ChannelConfig} (cfg : v.cfg c = k) (orderable : v.orderable c = true) (cap : Nat) :
    Undergoes n k g ⟨D, false, v.ch c⟩ ⟨D, true, (setCap c cap v).ch c⟩ := by
  obtain ⟨state, cls⟩ := (orderable_iff c v).mp orderable
  rw [setCap, State.updCh_ch_self]
  exact .single (.caps cap state (cfg ▸ cls))

/-- Every step at channel `c`. -/
theorem Takes.undergoes (h : Foresees n din s p) (g : Takes n din r p q) :
    Undergoes n (s.cfg c) (s.prospect n din r c) (p.spot c) (q.spot c) := by
  have cfg (d : Chan) : p.state.cfg d = s.cfg d := cfg_congr h.loader d
  cases g with
  | part t hb ha once => exact runTask_undergoes c h hb ha once _
  | forms | status | idles => exact .single (.notes _ (by simp))
  | settles => exact .single (.notes _ (by simp))
  | shares => exact .refl
  | sheds d reason hr down =>
    refine shed_undergoes c (cfg c) d hr (fun same => ?_) _
    rw [cfg d, ← same] at down
    exact down
  | throttles d cap down once =>
    rw [cfg d] at down
    by_cases same : c = d
    · subst same
      rw [spot_mk, spot_mk, show (c :: _ : List Chan).contains c = true by simp, contains_of_not_mem once]
      unfold throttle
      split
      next orderable =>
        split
        · exact setCap_undergoes c (cfg c) (Bool.and_eq_true_iff.mp orderable).1 cap
        · refine .head .ignores ?_
          have := shed_undergoes (n := n) (D := ‹_›) (g := s.prospect n din r c) c (cfg c) c (reason := .budget) (by decide) (fun _ => down) true
          rwa [shed, if_pos (Bool.and_eq_true_iff.mp orderable).1] at this
      next => exact .single .ignores
    · rw [spot_mk, spot_mk, contains_cons_of_ne c same, show (throttle d cap _).ch c = _ from ?_]
      unfold throttle
      split_ifs
      · exact State.updCh_ch_ne _ d _ same
      · exact enter_ch_ne d c _ _ _ same
      · rfl
  | raises d by_ up once =>
    by_cases same : c = d
    · subst same
      rw [spot_mk, spot_mk, show (c :: _ : List Chan).contains c = true by simp, contains_of_not_mem once]
      unfold capRaise
      split
      next orderable => exact setCap_undergoes c (cfg c) orderable _
      next => exact .single .ignores
    · rw [spot_mk, spot_mk, contains_cons_of_ne c same, show (capRaise d by_ _).ch c = _ from ?_]
      unfold capRaise
      split
      · exact State.updCh_ch_ne _ d _ same
      · rfl
  | restores d up =>
    rw [cfg d] at up
    rw [spot_mk, spot_mk]
    unfold restore
    split
    next state =>
      rw [switchOn_ch]
      split
      next same =>
        subst same
        rw [cfg c]
        exact .single (.restores state (by simp [State.prospect, up]))
      next => exact .refl
    next => exact .refl
  | holds x =>
    exact .refl
  | grants x admitted =>
    refine .trans ?_ (.single (.notes .decided (by simp)))
    rw [spot_mk]
    unfold grant
    split
    next state =>
      rw [enter_ch]
      split
      next same =>
        rw [← same, cfg c]
        exact .single (.grants (same ▸ state) ⟨x, admitted, same.symm⟩)
      next => exact .refl
    next => exact .refl
  | refuses x =>
    rw [spot_mk, spot_mk, refuse_ch]
    exact .single (.notes _ (by simp))
  | selects =>
    rw [spot_mk, spot_mk, show (select _).ch c = _ from ?_]
    · exact .single (.notes _ (by simp))
    · unfold select
      split
      · split
        · simp only []
          split_ifs <;> simp
        · rfl
      · rfl

/-- An epoch start takes each channel through a run of what may befall it. -/
theorem Reaches.undergoes (h : Reaches n din r p q) (g : Foresees n din s p) :
    Undergoes n (s.cfg c) (s.prospect n din r c) (p.spot c) (q.spot c) := by
  have both : Foresees n din s q ∧ Undergoes n (s.cfg c) (s.prospect n din r c) (p.spot c) (q.spot c) :=
    h.keeps (P := fun q => Foresees n din s q ∧ Undergoes n (s.cfg c) (s.prospect n din r c) (p.spot c) (q.spot c))
      (fun _ _ last ⟨foresees, run⟩ => ⟨foresees.takes last, run.trans (last.undergoes c foresees)⟩) ⟨g, .refl⟩
  exact both.2

end

end Sys2Proof.Machine


/-! What an epoch start leaves of the measurement of a channel, its markers and its record (R31, R44, R45). -/

namespace Sys2Proof.Machine

/-! ### A resolution by its outcome -/

section
variable (x : Channel) (k : ChannelConfig) (level : Nat)

theorem Channel.delivered_of_falls (off : x.state ≠ .off) (cut : x.state ≠ .cut) (was : demandOn k.mode x.demandLevel = true)
    (falls : demandOn k.mode level = false) : x.delivered k level =
      (Channel.resetAttempts { x with demandLevel := level, demandDuty := demandDutyOf k.mode level }).enter .off .none k.window := by
  unfold Channel.delivered
  split
  next is => exact absurd is off
  next is => exact absurd is cut
  next => simp [was, falls]

/-- A level delivered, with the record it leaves: nothing, a rise from OFF, a fall to OFF, or the duty computed again (R7). -/
theorem Channel.resolvedTo_cases : ∃ f : FaultRecord, f.isNew = x.fault.isNew ∧
    (level = x.demandLevel ∧ x.resolvedTo k level = x ∨
    (x.state = .off ∧ demandOn k.mode x.demandLevel = false ∧ demandOn k.mode level = true) ∧ x.resolvedTo k level =
      Channel.wanted { x with demandLevel := level, demandDuty := demandDutyOf k.mode level, fault := f } k ∨
    (x.state ≠ .off ∧ x.state ≠ .cut ∧ demandOn k.mode x.demandLevel = true ∧ demandOn k.mode level = false) ∧
      x.resolvedTo k level = Channel.enter
        { x with demandLevel := level, demandDuty := demandDutyOf k.mode level, fault := f } .off .none k.window ∨
    (demandOn k.mode x.demandLevel = true → demandOn k.mode level = false → x.state = .off ∨ x.state = .cut) ∧
      ¬(x.state = .off ∧ demandOn k.mode x.demandLevel = false ∧ demandOn k.mode level = true) ∧
      x.resolvedTo k level = Channel.recompute
        { x with demandLevel := level, demandDuty := demandDutyOf k.mode level, fault := f }) := by
  by_cases same : level = x.demandLevel
  · exact ⟨x.fault, rfl, .inl ⟨same, if_pos same⟩⟩
  rw [Channel.resolvedTo, if_neg same]
  by_cases falls : demandOn k.mode x.demandLevel = true ∧ demandOn k.mode level = false
  · refine ⟨{ x.fault with attempts := 0, persistNoted := false }, rfl, .inr (.inr ?_)⟩
    by_cases dark : x.state = .off ∨ x.state = .cut
    · refine .inr ⟨fun _ _ => dark, fun rises => by simp [falls] at rises, ?_⟩
      rcases dark with dark | dark <;> simp [Channel.delivered, dark, falls, Channel.resetAttempts]
    · obtain ⟨off, cut⟩ := not_or.mp dark
      exact .inl ⟨⟨off, cut, falls⟩, x.delivered_of_falls k level off cut falls.1 falls.2⟩
  · by_cases rises : x.state = .off ∧ demandOn k.mode x.demandLevel = false ∧ demandOn k.mode level = true
    · exact ⟨x.fault, rfl, .inr (.inl ⟨rises, Channel.delivered_of_rises rises.1 rises.2.1 rises.2.2⟩)⟩
    · exact ⟨x.fault, rfl, .inr (.inr (.inr ⟨fun was is => absurd ⟨was, is⟩ falls, rises, x.delivered_of_stays k level falls rises⟩))⟩

end

/-! ### What no state change touches -/

/-- The measurement stands, a marker set stays, and a record once new stays so. -/
structure Channel.Stands (x y : Channel) : Prop where
  measurement : y.measurement = x.measurement := by rfl
  marker : x.runningMarker = true → y.runningMarker = true := by exact id
  new : x.fault.isNew = true → y.fault.isNew = true := by exact id

section
variable {x y z : Channel} {k : ChannelConfig}

theorem Channel.Stands.refl (x : Channel) : x.Stands x := {}

theorem Channel.Stands.trans (h : x.Stands y) (g : y.Stands z) : x.Stands z where
  measurement := g.measurement.trans h.measurement
  marker := fun set => g.marker (h.marker set)
  new := fun set => g.new (h.new set)

theorem Channel.enter_stands (x : Channel) (st : ChState) (r : ShedReason) (window : Nat) : x.Stands (x.enter st r window) where
  marker set := by simp [Channel.enter, Channel.recompute, set]

theorem Channel.wanted_stands (x : Channel) (k : ChannelConfig) : x.Stands (x.wanted k) := by
  unfold Channel.wanted
  split <;> exact x.enter_stands _ _ _

theorem Channel.retaken_stands (x : Channel) (k : ChannelConfig) : x.Stands (x.retaken k) := by
  simp only [Channel.retaken]
  split
  · exact (x.enter_stands _ _ _).trans (Channel.wanted_stands _ k)
  · exact x.enter_stands _ _ _

theorem Channel.trips_stands (x : Channel) (k : ChannelConfig) (kind : FaultKind) (current epoch step : Nat) :
    x.Stands (x.trips k kind current epoch step) :=
  .trans (y := x.tripped kind current epoch step (retryDecision k x.fault.attempts)) { new := fun _ => rfl }
    (Channel.enter_stands _ _ _ _)

theorem Channel.resolvedTo_stands (x : Channel) (k : ChannelConfig) (level : Nat) : x.Stands (x.resolvedTo k level) := by
  obtain ⟨f, new, ⟨-, e⟩ | ⟨-, e⟩ | ⟨-, e⟩ | ⟨-, -, e⟩⟩ := x.resolvedTo_cases k level <;> rw [e]
  · exact .refl x
  · exact .trans (y := { x with demandLevel := level, demandDuty := demandDutyOf k.mode level, fault := f })
      { new := fun set => new.trans set } (Channel.wanted_stands _ k)
  · exact .trans (y := { x with demandLevel := level, demandDuty := demandDutyOf k.mode level, fault := f })
      { new := fun set => new.trans set } (Channel.enter_stands _ _ _ _)
  · exact { new := fun set => new.trans set }

theorem Channel.windowEnded_stands (x : Channel) (k : ChannelConfig) (epoch : Nat) : x.Stands (x.windowEnded k epoch) := by
  unfold Channel.windowEnded
  split
  · split
    · split
      · exact x.trips_stands _ _ _ _ _
      · exact x.enter_stands _ _ _
    · exact x.enter_stands _ _ _
  · exact .refl x

theorem Channel.retriedDue_stands (x : Channel) (k : ChannelConfig) : x.Stands (x.retriedDue k) := by
  unfold Channel.retriedDue
  split
  · split
    · exact .trans (y := { x with retryTimer := none }) {} (Channel.wanted_stands _ k)
    · exact {}
  · exact .refl x

theorem Channel.attemptsDue_stands (x : Channel) : x.Stands x.attemptsDue := by
  unfold Channel.attemptsDue
  split
  · exact {}
  · exact .refl x

variable {n : Nat} {g : Prospect} {p q : Spot}

/-- All but the closing of the measurement. -/
theorem Befalls.stands (h : Befalls n k g p q) : p.now.Stands q.now ∧
      (.taken .closeMeasurement ∈ q.done ↔ .taken .closeMeasurement ∈ p.done) ∨
    .taken .closeMeasurement ∉ p.done ∧ .taken .closeMeasurement ∈ q.done ∧ q.now = p.now.closeEpoch n := by
  cases h with
  | closes once => exact .inr ⟨once, List.mem_cons_self, rfl⟩
  | notes m other =>
    refine .inl ⟨.refl _, ?_⟩
    simp only [List.mem_cons, not_or] at other
    simp [Ne.symm other.1]
  | ignores => exact .inl ⟨.refl _, Iff.rfl⟩
  | loads => exact .inl ⟨{}, by simp⟩
  | resolves level =>
    refine .inl ⟨?_, by simp⟩
    simp only []
    split
    · exact Channel.resolvedTo_stands _ k level
    · exact .refl _
  | reads level => exact .inl ⟨Channel.resolvedTo_stands _ k level, by simp⟩
  | rests | stays => exact .inl ⟨.refl _, by simp⟩
  | freed => exact .inl ⟨Channel.retaken_stands _ k, by simp⟩
  | passes | sheds | grants => exact .inl ⟨Channel.enter_stands _ _ _ _, Iff.rfl⟩
  | stalls v epoch => exact .inl ⟨Channel.trips_stands _ _ _ _ _ _, Iff.rfl⟩
  | @retries D b x due => exact .inl ⟨.trans (y := { x with retryTimer := none }) {} (Channel.wanted_stands _ k), Iff.rfl⟩
  | expires | forgives | caps => exact .inl ⟨{}, Iff.rfl⟩
  | restores => exact .inl ⟨Channel.wanted_stands _ k, Iff.rfl⟩

/-- What the closing of the measurement leaves of a channel whose accumulated draw was `acc`, and whose running marker was set where
`marked` (R44, R45). -/
structure Measured (n acc : Nat) (marked : Prop) (p : Spot) : Prop where
  pending : p.now.pendingTerm = none
  before : .taken .closeMeasurement ∉ p.done → p.now.drawAcc = acc ∧ (marked → p.now.runningMarker = true)
  after : .taken .closeMeasurement ∈ p.done →
    p.now.epochDraw = acc / (n * 255) ∧ p.now.drawAcc = 0 ∧ (marked → p.now.closedMarker = true)

theorem Undergoes.measured {acc : Nat} {marked : Prop} (h : Undergoes n k g p q) (hp : Measured n acc marked p) :
    Measured n acc marked q := by
  refine h.keeps (P := Measured n acc marked) (fun p q last hp => ?_) hp
  rcases last.stands with ⟨stands, closed⟩ | ⟨before, after, e⟩
  · obtain ⟨drawAcc, pending, epochDraw, marker⟩ : _ ∧ _ ∧ _ ∧ _ := by
      simpa [Channel.measurement] using stands.measurement
    refine ⟨pending.trans hp.pending, fun early => ?_, fun late => ?_⟩
    · obtain ⟨draw, mark⟩ := hp.before (mt closed.mpr early)
      exact ⟨drawAcc.trans draw, fun m => stands.marker (mark m)⟩
    · obtain ⟨draw, zero, mark⟩ := hp.after (closed.mp late)
      exact ⟨epochDraw.trans draw, drawAcc.trans zero, fun m => marker.trans (mark m)⟩
  · obtain ⟨draw, mark⟩ := hp.before before
    refine ⟨?_, fun early => absurd after early, fun _ => ?_⟩
    · rw [e]
      exact hp.pending
    · rw [e]
      exact ⟨by rw [← draw]; rfl, rfl, mark⟩

/-- A record once new stays so through an epoch start (R53, R55). -/
theorem Undergoes.isNew (h : Undergoes n k g p q) (new : p.now.fault.isNew = true) : q.now.fault.isNew = true := by
  refine h.keeps (P := fun p => p.now.fault.isNew = true) (fun p q last new => ?_) new
  rcases last.stands with ⟨stands, -⟩ | ⟨-, -, e⟩
  · exact stands.new new
  · rw [e]
    exact new

end

end Sys2Proof.Machine


/-! What an epoch start leaves of the counts and the markers of a channel (R12, R31, R45, R54). -/

namespace Sys2Proof.Machine

/-! ### How a state is reached -/

section
variable (x : Channel) (st : ChState) (r : ShedReason) (window : Nat)

@[simp] theorem Channel.enter_state : (x.enter st r window).state = st := rfl
@[simp] theorem Channel.enter_demandLevel : (x.enter st r window).demandLevel = x.demandLevel := rfl
@[simp] theorem Channel.enter_demandDuty : (x.enter st r window).demandDuty = x.demandDuty := rfl
@[simp] theorem Channel.enter_inrushRemaining : (x.enter st r window).inrushRemaining = if st = .inrush then window else 0 := rfl
@[simp] theorem Channel.enter_runningMarker :
    (x.enter st r window).runningMarker = (decide (st = .inrush) || x.runningMarker) := rfl
@[simp] theorem Channel.enter_closedMarker : (x.enter st r window).closedMarker = x.closedMarker := rfl
@[simp] theorem Channel.enter_lastSample : (x.enter st r window).lastSample = if st = .inrush then none else x.lastSample := rfl
@[simp] theorem Channel.enter_onEpochs : (x.enter st r window).onEpochs =
    if (decide (st = .on) || decide (x.state = .on)) = true then 0 else x.onEpochs := rfl
@[simp] theorem Channel.recompute_state : x.recompute.state = x.state := rfl
@[simp] theorem Channel.recompute_demandLevel : x.recompute.demandLevel = x.demandLevel := rfl
@[simp] theorem Channel.recompute_inrushRemaining : x.recompute.inrushRemaining = x.inrushRemaining := rfl
@[simp] theorem Channel.recompute_runningMarker : x.recompute.runningMarker = x.runningMarker := rfl
@[simp] theorem Channel.recompute_closedMarker : x.recompute.closedMarker = x.closedMarker := rfl
@[simp] theorem Channel.recompute_lastSample : x.recompute.lastSample = x.lastSample := rfl
@[simp] theorem Channel.recompute_onEpochs : x.recompute.onEpochs = x.onEpochs := rfl
@[simp] theorem Channel.recompute_retryTimer : x.recompute.retryTimer = x.retryTimer := rfl

end

section
variable (x : Channel) (k : ChannelConfig)

/-- Wanting power enters INRUSH in class 0, REQUESTED elsewhere (R10). -/
theorem Channel.wanted_cases : k.cls = 0 ∧ x.wanted k = x.enter .inrush .none k.window ∨
    k.cls ≠ 0 ∧ x.wanted k = x.enter .requested .none k.window := by
  unfold Channel.wanted
  split
  next zero => exact .inl ⟨zero, rfl⟩
  next other => exact .inr ⟨other, rfl⟩

/-- A channel freed enters OFF, and from there takes its demand again (R20). -/
theorem Channel.retaken_cases : x.retaken k = x.enter .off .none k.window ∨
    x.retaken k = (x.enter .off .none k.window).enter .inrush .none k.window ∨
    x.retaken k = (x.enter .off .none k.window).enter .requested .none k.window := by
  simp only [Channel.retaken]
  split
  · exact .inr ((Channel.wanted_cases _ k).imp And.right And.right)
  · exact .inl rfl

/-- A STALL leaves INRUSH for TRIPPED with a retry timer that runs, or for LATCHED (R52–R54). -/
theorem Channel.stalls_cases (hk : 1 ≤ k.retryBase) (v epoch : Nat) :
    (x.trips k .stall v epoch 0).state = .tripped ∧ (∃ m, (x.trips k .stall v epoch 0).retryTimer = some (m + 1)) ∨
    (x.trips k .stall v epoch 0).state = .latched := by
  rw [Channel.trips_state, Channel.tripState]
  split
  next again =>
    refine .inl ⟨rfl, ?_⟩
    rw [Channel.trips_retryTimer]
    split
    · have : 1 ≤ k.retryBase * 2 ^ x.fault.attempts := Nat.mul_pos hk (Nat.two_pow_pos _)
      exact ⟨min 255 (k.retryBase * 2 ^ x.fault.attempts) - 1, congrArg some (by omega)⟩
    next none_ =>
      rw [if_pos (again.resolve_left none_)]
      exact ⟨254, rfl⟩
  next => exact .inr rfl

end

/-! ### What each step makes of the state -/

/-- The state and what its counts read. -/
structure Channel.SameCourse (x y : Channel) : Prop where
  state : y.state = x.state := by rfl
  remaining : y.inrushRemaining = x.inrushRemaining := by rfl
  timer : y.retryTimer = x.retryTimer ∨ x.retryTimer = some 0 ∧ y.retryTimer = none := by exact .inl rfl
  sample : y.lastSample = x.lastSample := by rfl
  onEpochs : y.onEpochs = x.onEpochs := by rfl
  markers : y.runningMarker = x.runningMarker ∧ y.closedMarker = x.closedMarker := by exact ⟨rfl, rfl⟩

/-- How a channel comes from one state to another in an epoch start: each with its guard. -/
inductive Channel.Goes (k : ChannelConfig) (g : Prospect) (x : Channel) : Channel → Prop
  /-- It stays. -/
  | stays {y} (h : x.SameCourse y) : x.Goes k g y
  /-- It leaves for OFF where demand falls. -/
  | falls {y : Channel} (level : Nat) (duty : Nat) (f : FaultRecord) (off : x.state ≠ .off) (cut : x.state ≠ .cut)
      (was : demandOn k.mode x.demandLevel = true) (is : demandOn k.mode level = false)
      (h : y = Channel.enter { x with demandLevel := level, demandDuty := duty, fault := f } .off .none k.window) : x.Goes k g y
  /-- It wants power from OFF. -/
  | rises {y : Channel} (level : Nat) (duty : Nat) (f : FaultRecord) (off : x.state = .off)
      (was : demandOn k.mode x.demandLevel = false) (is : demandOn k.mode level = true)
      (h : y = Channel.wanted { x with demandLevel := level, demandDuty := duty, fault := f } k) : x.Goes k g y
  | freed {y : Channel} (ends : g.ends) (state : x.state = .cut) (h : y = x.retaken k) : x.Goes k g y
  | passes {y : Channel} (state : x.state = .inrush) (ended : x.inrushRemaining = 0) (h : y = x.enter .on .none k.window) : x.Goes k g y
  | stalls {y : Channel} (v epoch : Nat) (state : x.state = .inrush) (ended : x.inrushRemaining = 0) (sample : x.lastSample = some v)
      (h : y = x.trips k .stall v epoch 0) : x.Goes k g y
  | retries {y : Channel} (due : x.retryTimer = some 0) (state : x.state = .tripped) (on : demandOn k.mode x.demandLevel = true)
      (h : y = Channel.wanted { x with retryTimer := none } k) : x.Goes k g y
  | sheds {y : Channel} (r : ShedReason) (state : x.state = .on) (cls : k.cls ≠ 0) (down : g.down)
      (h : y = x.enter .shed r k.window) : x.Goes k g y
  | restores {y : Channel} (state : x.state = .shed) (up : ¬g.down) (h : y = x.wanted k) : x.Goes k g y
  | grants {y : Channel} (state : x.state = .requested) (admitted : g.admitted) (h : y = x.enter .inrush .none k.window) : x.Goes k g y

section
variable {n : Nat} {k : ChannelConfig} {g : Prospect} {p q : Spot}

theorem Channel.resolvedTo_goes (x : Channel) (k : ChannelConfig) (g : Prospect) (level : Nat) : x.Goes k g (x.resolvedTo k level) := by
  obtain ⟨f, -, ⟨-, e⟩ | ⟨⟨off, was, is⟩, e⟩ | ⟨⟨off, cut, was, is⟩, e⟩ | ⟨-, -, e⟩⟩ := x.resolvedTo_cases k level
  · rw [e]
    exact .stays {}
  · exact .rises level _ f off was is e
  · exact .falls level _ f off cut was is e
  · rw [e]
    exact .stays {}

/-- A step of an epoch start closes the measurement of the channel, or takes it from a state to another. -/
theorem Befalls.goes (h : Befalls n k g p q) :
    (.taken .closeMeasurement ∈ q.done ↔ .taken .closeMeasurement ∈ p.done) ∧ p.now.Goes k g q.now ∨
    .taken .closeMeasurement ∉ p.done ∧ .taken .closeMeasurement ∈ q.done ∧ q.now = p.now.closeEpoch n := by
  cases h with
  | closes once => exact .inr ⟨once, List.mem_cons_self, rfl⟩
  | notes m other =>
    simp only [List.mem_cons, not_or] at other
    exact .inl ⟨by simp [Ne.symm other.1], .stays {}⟩
  | ignores | forgives | caps => exact .inl ⟨Iff.rfl, .stays {}⟩
  | expires due => exact .inl ⟨Iff.rfl, .stays { timer := .inr ⟨due, rfl⟩ }⟩
  | loads | rests | stays => exact .inl ⟨by simp, .stays {}⟩
  | resolves level =>
    refine .inl ⟨by simp, ?_⟩
    simp only []
    split
    · exact Channel.resolvedTo_goes _ k g level
    · exact .stays {}
  | reads level => exact .inl ⟨by simp, Channel.resolvedTo_goes _ k g level⟩
  | freed _ ends state => exact .inl ⟨by simp, .freed ends state rfl⟩
  | passes state ended => exact .inl ⟨Iff.rfl, .passes state ended rfl⟩
  | stalls v epoch state ended sample => exact .inl ⟨Iff.rfl, .stalls v epoch state ended sample rfl⟩
  | retries due state on => exact .inl ⟨Iff.rfl, .retries due state on rfl⟩
  | sheds r _ state cls down => exact .inl ⟨Iff.rfl, .sheds r state cls down rfl⟩
  | restores state up => exact .inl ⟨Iff.rfl, .restores state up rfl⟩
  | grants state admitted => exact .inl ⟨Iff.rfl, .grants state admitted rfl⟩

/-- Where no changed input reaches the channel, its demand level moves with the resolution of the epoch start alone (R73). -/
theorem Befalls.level (h : Befalls n k g p q) (still : ¬g.moves) :
    (.taken .signals ∈ q.done ↔ .taken .signals ∈ p.done) ∧ q.now.demandLevel = p.now.demandLevel ∨
    .taken .signals ∉ p.done ∧ .taken .signals ∈ q.done := by
  have wanted (x : Channel) : (x.wanted k).demandLevel = x.demandLevel := x.wanted_demandLevel k
  cases h with
  | resolves level once => exact .inr ⟨once, List.mem_cons_self⟩
  | reads level once moves => exact absurd moves still
  | notes m other =>
    simp only [List.mem_cons, not_or] at other
    exact .inl ⟨by simp [Ne.symm other.2.2.1], rfl⟩
  | ignores | forgives | caps | expires | passes | stalls | sheds | grants => exact .inl ⟨Iff.rfl, rfl⟩
  | retries => exact .inl ⟨Iff.rfl, wanted _⟩
  | restores => exact .inl ⟨Iff.rfl, wanted _⟩
  | closes | loads | rests | stays => exact .inl ⟨by simp, rfl⟩
  | @freed D b x =>
    refine .inl ⟨by simp, ?_⟩
    rcases x.retaken_cases k with e | e | e <;> rw [e] <;> rfl

/-- A demand that falls or begins does so at a resolution. -/
theorem Befalls.resolved (h : Befalls n k g p q) (still : ¬g.moves) (moved : demandOn k.mode q.now.demandLevel ≠ demandOn k.mode p.now.demandLevel) :
    .taken .signals ∉ p.done ∧ .taken .signals ∈ q.done :=
  (h.level still).resolve_left fun ⟨_, same⟩ => moved (by rw [same])

end

end Sys2Proof.Machine


namespace Sys2Proof.Machine

/-! ### The waits and the counts at the head of an epoch start -/

/-- The waits of one channel that an epoch start ends before it counts (log entry 5). -/
def Channel.settledWaits (x : Channel) (k : ChannelConfig) (epoch : Nat) : Channel :=
  ((x.windowEnded k epoch).retriedDue k).attemptsDue

/-- What the waits leave a channel that they do not move from its state. -/
structure Channel.Waits (x y : Channel) : Prop where
  state : y.state = x.state := by rfl
  remaining : y.inrushRemaining = x.inrushRemaining := by rfl
  timer : x.retryTimer ≠ some 0 → y.retryTimer = x.retryTimer := by exact fun _ => rfl
  sample : y.lastSample = x.lastSample := by rfl
  onEpochs : y.onEpochs = x.onEpochs := by rfl
  markers : y.runningMarker = x.runningMarker := by rfl
  shadow : y.shadowDuty = x.shadowDuty := by rfl

section
variable (x : Channel) (k : ChannelConfig) (epoch : Nat)

theorem Channel.attemptsDue_eq : ∃ f, x.attemptsDue = { x with fault := f } := by
  unfold Channel.attemptsDue
  split <;> exact ⟨_, rfl⟩

/-- What the waits make of a channel: a window that has run out ends, a retry that is due rejoins, and any other channel waits on. -/
theorem Channel.settledWaits_cases (hk : 1 ≤ k.retryBase) :
    (x.settledWaits k epoch).demandLevel = x.demandLevel ∧
    ((x.state = .inrush ∧ x.inrushRemaining = 0) ∧
      ((x.settledWaits k epoch).state = .on ∨
        (x.settledWaits k epoch).state = .tripped ∧ (∃ m, (x.settledWaits k epoch).retryTimer = some (m + 1)) ∨
        (x.settledWaits k epoch).state = .latched) ∧ (x.settledWaits k epoch).runningMarker = x.runningMarker ∨
    (x.state = .tripped ∧ x.retryTimer = some 0) ∧
      ((x.settledWaits k epoch).state = .inrush ∧ (x.settledWaits k epoch).inrushRemaining = k.window ∧
          (x.settledWaits k epoch).lastSample = none ∨
        (x.settledWaits k epoch).state = .requested) ∨
    ¬(x.state = .inrush ∧ x.inrushRemaining = 0) ∧ x.Waits (x.settledWaits k epoch)) := by
  unfold Channel.settledWaits
  obtain ⟨f, e⟩ := ((x.windowEnded k epoch).retriedDue k).attemptsDue_eq
  rw [e]
  by_cases ended : x.state = .inrush ∧ x.inrushRemaining = 0
  · -- the channel comes to ON, TRIPPED or LATCHED, where no retry is due
    have left : (x.windowEnded k epoch).demandLevel = x.demandLevel ∧ (x.windowEnded k epoch).runningMarker = x.runningMarker ∧
        ((x.windowEnded k epoch).state = .on ∨
        (x.windowEnded k epoch).state = .tripped ∧ (∃ m, (x.windowEnded k epoch).retryTimer = some (m + 1)) ∨
        (x.windowEnded k epoch).state = .latched) := by
      unfold Channel.windowEnded
      rw [if_pos ended]
      split
      next v _ =>
        split
        · refine ⟨rfl, ?_, .inr (x.stalls_cases k hk v epoch)⟩
          rw [Channel.trips_eq, Channel.enter_runningMarker]
          unfold Channel.tripState
          split <;> rfl
        · exact ⟨rfl, rfl, .inl rfl⟩
      next => exact ⟨rfl, rfl, .inl rfl⟩
    generalize x.windowEnded k epoch = w at left
    obtain ⟨level, marker, left⟩ := left
    have notDue : w.retryTimer = some 0 → w.state ≠ .tripped := by
      rintro due is
      rcases left with on | ⟨-, m, timer⟩ | latched
      · cases on.symm.trans is
      · cases timer.symm.trans due
      · cases latched.symm.trans is
    unfold Channel.retriedDue
    split
    next due =>
      rw [if_neg fun h => notDue due h.1]
      refine ⟨level, .inl ⟨ended, left.imp_right (.imp_left fun h => absurd h.1 (notDue due)), marker⟩⟩
    next => exact ⟨level, .inl ⟨ended, left, marker⟩⟩
  · have same : x.windowEnded k epoch = x := if_neg ended
    rw [same]
    unfold Channel.retriedDue
    split
    next due =>
      split
      next takes =>
        refine ⟨Channel.wanted_demandLevel _ k, .inr (.inl ⟨⟨takes.1, due⟩, ?_⟩)⟩
        rcases Channel.wanted_cases { x with retryTimer := none } k with ⟨-, w⟩ | ⟨-, w⟩ <;> rw [w]
        · exact .inl ⟨rfl, rfl, rfl⟩
        · exact .inr rfl
      next => exact ⟨rfl, .inr (.inr ⟨ended, { timer := fun h => absurd due h }⟩)⟩
    next => exact ⟨rfl, .inr (.inr ⟨ended, {}⟩)⟩

end

/-! ### The count of the window -/

section
variable {n : Nat} {k : ChannelConfig} {g : Prospect} {p q : Spot} {x y : Channel}

/-- The window count of a channel in INRUSH is the one it had there, or the whole window (R11, R12). -/
theorem Channel.Goes.remaining (h : x.Goes k g y) (is : y.state = .inrush) :
    x.state = .inrush ∧ y.inrushRemaining = x.inrushRemaining ∧ y.runningMarker = x.runningMarker ∨
      y.inrushRemaining = k.window ∧ y.lastSample = none ∧ y.runningMarker = true := by
  have wanted (z : Channel) (e : y = z.wanted k) : y.inrushRemaining = k.window ∧ y.lastSample = none ∧ y.runningMarker = true := by
    rcases z.wanted_cases k with ⟨-, w⟩ | ⟨-, w⟩ <;> rw [w] at e
    · rw [e]
      exact ⟨rfl, rfl, rfl⟩
    · rw [e] at is
      cases is
  cases h with
  | stays h => exact .inl ⟨h.state.symm.trans is, h.remaining, h.markers.1⟩
  | falls level duty f off cut was is' h => exact absurd is (by rw [h]; exact nofun)
  | rises level duty f off was is' h => exact .inr (wanted _ h)
  | freed ends state h =>
    rw [h] at is ⊢
    rcases x.retaken_cases k with e | e | e <;> rw [e] at is ⊢
    · cases is
    · exact .inr ⟨rfl, rfl, rfl⟩
    · cases is
  | passes state ended h => exact absurd is (by rw [h]; exact nofun)
  | stalls v epoch state ended sample h =>
    rw [h, Channel.trips_state, Channel.tripState] at is
    split at is <;> cases is
  | retries due state on h => exact .inr (wanted _ h)
  | sheds r state cls down h => exact absurd is (by rw [h]; exact nofun)
  | restores state up h => exact .inr (wanted _ h)
  | grants state admitted h =>
    rw [h]
    exact .inr ⟨rfl, rfl, rfl⟩

theorem Channel.countEpoch_inrush (x : Channel) (is : x.state = .inrush) :
    x.countEpoch.inrushRemaining = x.inrushRemaining - 1 := if_pos is

/-- The window count of a channel that ends in INRUSH. -/
theorem Undergoes.remaining {m : Nat} (h : Undergoes n k g p q) {N : Nat → Prop} (window : N k.window)
    (hp : p.now.state = .inrush → N p.now.inrushRemaining) (hm : m = q.now.inrushRemaining) (is : q.now.state = .inrush) : N m := by
  subst hm
  refine h.keeps (P := fun p => p.now.state = .inrush → N p.now.inrushRemaining) (fun p q last hp is => ?_) hp is
  rcases last.goes with ⟨-, goes⟩ | ⟨-, -, e⟩
  · rcases goes.remaining is with ⟨was, same, -⟩ | ⟨whole, -⟩
    · rw [same]
      exact hp was
    · rwa [whole]
  · rw [e] at is ⊢
    exact hp is

/-! ### The epochs in ON -/

/-- A channel not in ON has no count of epochs there (R54). -/
theorem Channel.Goes.onEpochs (h : x.Goes k g y) (hx : x.state ≠ .on → x.onEpochs = 0) (off : y.state ≠ .on) : y.onEpochs = 0 := by
  have entered (z : Channel) (st : ChState) (r : ShedReason) (hz : z.state = x.state) (ho : z.onEpochs = x.onEpochs) :
      (z.enter st r k.window).onEpochs = 0 := by
    rw [Channel.enter_onEpochs]
    split
    · rfl
    next other =>
      rw [ho]
      exact hx fun on => other (by simp [hz, on])
  have wanted (z : Channel) (hz : z.state = x.state) (ho : z.onEpochs = x.onEpochs) : (z.wanted k).onEpochs = 0 := by
    rcases z.wanted_cases k with ⟨-, w⟩ | ⟨-, w⟩ <;> rw [w] <;> exact entered z _ _ hz ho
  cases h with
  | stays h => exact h.onEpochs.trans (hx (h.state ▸ off))
  | falls level duty f off cut was is' h => exact h ▸ entered _ _ _ rfl rfl
  | rises level duty f off was is' h => exact h ▸ wanted _ rfl rfl
  | freed ends state h =>
    have first := entered x .off .none rfl rfl
    rw [h]
    rcases x.retaken_cases k with e | e | e <;> rw [e]
    · exact first
    · rw [Channel.enter_onEpochs]
      split
      · rfl
      · exact first
    · rw [Channel.enter_onEpochs]
      split
      · rfl
      · exact first
  | passes state ended h => exact absurd (by rw [h]; rfl) off
  | stalls v epoch state ended sample h =>
    rw [h, Channel.trips_eq]
    exact entered _ _ _ rfl rfl
  | retries due state on h => exact h ▸ wanted _ rfl rfl
  | sheds r state cls down h => exact h ▸ entered _ _ _ rfl rfl
  | restores state up h => exact h ▸ wanted _ rfl rfl
  | grants state admitted h => exact h ▸ entered _ _ _ rfl rfl

theorem Undergoes.onEpochs (h : Undergoes n k g p q) (hp : p.now.state ≠ .on → p.now.onEpochs = 0) (off : q.now.state ≠ .on) :
    q.now.onEpochs = 0 := by
  refine h.keeps (P := fun p => p.now.state ≠ .on → p.now.onEpochs = 0) (fun p q last hp off => ?_) hp off
  rcases last.goes with ⟨-, goes⟩ | ⟨-, -, e⟩
  · exact goes.onEpochs hp off
  · rw [e] at off ⊢
    exact hp off

end

end Sys2Proof.Machine


namespace Sys2Proof.Machine

section
variable {n : Nat} {k : ChannelConfig} {g : Prospect} {p q : Spot} {x y : Channel}

/-! ### A channel that stays, and one that has left -/

/-- ON, TRIPPED and LATCHED are reached from a window that has run out alone. -/
theorem Channel.Goes.ends (h : x.Goes k g y) (is : y.state = .on ∨ y.state = .tripped ∨ y.state = .latched) :
    x.SameCourse y ∨ x.state = .inrush ∧ x.inrushRemaining = 0 := by
  have never (e : y.state = .off ∨ y.state = .requested ∨ y.state = .inrush ∨ y.state = .shed) :
      x.SameCourse y ∨ x.state = .inrush ∧ x.inrushRemaining = 0 := by
    exfalso
    rcases is with is | is | is <;> rw [is] at e <;> simp at e
  have wanted (z : Channel) (e : y = z.wanted k) := never (by
    rcases z.wanted_cases k with ⟨-, w⟩ | ⟨-, w⟩ <;> simp [e, w])
  cases h with
  | stays h => exact .inl h
  | falls level duty f off cut was is' h => exact never (.inl (by rw [h]; rfl))
  | rises level duty f off was is' h => exact wanted _ h
  | freed ends state h => exact never (by rcases x.retaken_cases k with e | e | e <;> simp [h, e])
  | passes state ended h => exact .inr ⟨state, ended⟩
  | stalls v epoch state ended sample h => exact .inr ⟨state, ended⟩
  | retries due state on h => exact wanted _ h
  | sheds r state cls down h => exact never (by simp [h])
  | restores state up h => exact wanted _ h
  | grants state admitted h => exact never (by simp [h])

/-- A channel away from `st`, any window of it still running. -/
def Channel.Away (st : ChState) (x : Channel) : Prop := x.state ≠ st ∧ (x.state = .inrush → x.inrushRemaining ≠ 0)

/-- One that is away from ON or TRIPPED stays away for the epoch start. -/
theorem Channel.Away.goes {st : ChState} (hw : 1 ≤ k.window) (hst : st = .on ∨ st = .tripped) (away : x.Away st)
    (h : x.Goes k g y) : y.Away st := by
  obtain ⟨other, runs⟩ := away
  refine ⟨fun is => ?_, fun is => ?_⟩
  · rcases h.ends (by rcases hst with rfl | rfl <;> simp [is]) with same | ⟨inrush, ended⟩
    · exact other (same.state.symm.trans is)
    · exact runs inrush ended
  · rcases h.remaining is with ⟨was, same, -⟩ | ⟨whole, -⟩
    · rw [same]
      exact runs was
    · omega

theorem Channel.Away.closeEpoch {st : ChState} (away : x.Away st) : (x.closeEpoch n).Away st := away

/-- A channel in ON stays there with its count of epochs, or is away from ON for good. -/
theorem Undergoes.stays_on (hw : 1 ≤ k.window) {e : Nat} (h : Undergoes n k g p q)
    (hp : p.now.state = .on ∧ p.now.onEpochs = e ∨ p.now.Away .on) : q.now.state = .on ∧ q.now.onEpochs = e ∨ q.now.Away .on := by
  refine h.keeps (P := fun p => p.now.state = .on ∧ p.now.onEpochs = e ∨ p.now.Away .on) (fun p q last hp => ?_) hp
  rcases last.goes with ⟨-, goes⟩ | ⟨-, -, closed⟩
  · rcases hp with ⟨on, count⟩ | away
    · by_cases is : q.now.state = .on
      · rcases goes.ends (.inl is) with same | ⟨inrush, -⟩
        · exact .inl ⟨is, same.onEpochs.trans count⟩
        · cases on.symm.trans inrush
      · refine .inr ⟨is, fun inrush => ?_⟩
        rcases goes.remaining inrush with ⟨was, -⟩ | ⟨whole, -⟩
        · cases on.symm.trans was
        · omega
    · exact .inr (away.goes hw (.inl rfl) goes)
  · rw [closed]
    exact hp.imp id Channel.Away.closeEpoch

/-- A channel in TRIPPED stays there with its timer, which ends where it has run out, or is away for good. -/
theorem Undergoes.stays_tripped (hw : 1 ≤ k.window) {m : Nat} (h : Undergoes n k g p q)
    (hp : p.now.state = .tripped ∧ (p.now.retryTimer = some m ∨ m = 0 ∧ p.now.retryTimer = none) ∨ p.now.Away .tripped) :
    q.now.state = .tripped ∧ (q.now.retryTimer = some m ∨ m = 0 ∧ q.now.retryTimer = none) ∨ q.now.Away .tripped := by
  refine h.keeps (P := fun p => p.now.state = .tripped ∧ (p.now.retryTimer = some m ∨ m = 0 ∧ p.now.retryTimer = none) ∨
    p.now.Away .tripped) (fun p q last hp => ?_) hp
  rcases last.goes with ⟨-, goes⟩ | ⟨-, -, closed⟩
  · rcases hp with ⟨tripped, timer⟩ | away
    · by_cases is : q.now.state = .tripped
      · rcases goes.ends (.inr (.inl is)) with same | ⟨inrush, -⟩
        · refine .inl ⟨is, ?_⟩
          rcases same.timer with e | ⟨due, e⟩
          · rwa [e]
          · refine .inr ⟨?_, e⟩
            rcases timer with timer | ⟨zero, -⟩
            · exact Option.some.inj (timer.symm.trans due)
            · exact zero
        · cases tripped.symm.trans inrush
      · refine .inr ⟨is, fun inrush => ?_⟩
        rcases goes.remaining inrush with ⟨was, -⟩ | ⟨whole, -⟩
        · cases tripped.symm.trans was
        · omega
    · exact .inr (away.goes hw (.inr rfl) goes)
  · rw [closed]
    exact hp.imp id Channel.Away.closeEpoch

/-! ### A demand that falls -/

/-- Until the resolution the demand level is the one at the head of the epoch start. -/
def Heard (level : Nat) (p : Spot) : Prop := .taken .signals ∉ p.done → p.now.demandLevel = level

/-- The resolution has let a demand of level `level` fall. -/
def Fell (k : ChannelConfig) (level : Nat) (p : Spot) : Prop :=
  .taken .signals ∈ p.done ∧ demandOn k.mode level = true ∧ demandOn k.mode p.now.demandLevel = false

variable {level : Nat} (still : ¬g.moves)
include still

theorem Heard.befalls (heard : Heard level p) (h : Befalls n k g p q) : Heard level q := by
  intro early
  rcases h.level still with ⟨same, e⟩ | ⟨-, late⟩
  · exact e.trans (heard (mt same.mpr early))
  · exact absurd late early

theorem Fell.befalls (fell : Fell k level p) (h : Befalls n k g p q) : Fell k level q := by
  obtain ⟨late, was, is⟩ := fell
  rcases h.level still with ⟨same, e⟩ | ⟨early, -⟩
  · exact ⟨same.mpr late, was, e ▸ is⟩
  · exact absurd late early

/-- A demand that falls at a step of the epoch start falls at the resolution. -/
theorem Heard.falls (heard : Heard level p) (h : Befalls n k g p q) (was : demandOn k.mode p.now.demandLevel = true)
    (is : demandOn k.mode q.now.demandLevel = false) : Fell k level q := by
  obtain ⟨early, late⟩ := h.resolved still (by rw [was, is]; decide)
  exact ⟨late, heard early ▸ was, is⟩

theorem Undergoes.heard (h : Undergoes n k g p q) (heard : Heard level p) : Heard level q :=
  h.keeps (P := Heard level) (fun _ _ last hp => hp.befalls still last) heard

theorem Undergoes.fell (h : Undergoes n k g p q) (fell : Fell k level p) : Fell k level q :=
  h.keeps (P := Fell k level) (fun _ _ last hp => hp.befalls still last) fell

/-- A channel whose window still runs stays in INRUSH, unless its demand falls. -/
theorem Undergoes.stays_inrush {m : Nat} (hm : m ≠ 0) (h : Undergoes n k g p q) (heard : Heard level p)
    (hp : p.now.state = .inrush ∧ p.now.inrushRemaining = m ∨ Fell k level p) :
    q.now.state = .inrush ∧ q.now.inrushRemaining = m ∨ Fell k level q := by
  have both : Heard level q ∧ (q.now.state = .inrush ∧ q.now.inrushRemaining = m ∨ Fell k level q) := by
    refine h.keeps (P := fun p => Heard level p ∧ (p.now.state = .inrush ∧ p.now.inrushRemaining = m ∨ Fell k level p))
      (fun p q last ⟨heard, hp⟩ => ⟨heard.befalls still last, ?_⟩) ⟨heard, hp⟩
    rcases hp with ⟨state, count⟩ | fell
    · rcases last.goes with ⟨-, goes⟩ | ⟨-, -, closed⟩
      · cases goes with
        | stays same => exact .inl ⟨same.state.trans state, same.remaining.trans count⟩
        | falls l d f off cut was is e => exact .inr (heard.falls still last was (by rw [e]; exact is))
        | passes _ ended => exact absurd (count.symm.trans ended) hm
        | stalls _ _ _ ended => exact absurd (count.symm.trans ended) hm
        | rises _ _ _ other => cases state.symm.trans other
        | freed _ other => cases state.symm.trans other
        | retries _ other => cases state.symm.trans other
        | sheds _ other => cases state.symm.trans other
        | restores other => cases state.symm.trans other
        | grants other => cases state.symm.trans other
      · rw [closed]
        exact .inl ⟨state, count⟩
    · exact .inr (fell.befalls still last)
  exact both.2

/-- A channel in REQUESTED waits there, unless its claim is admitted or its demand falls. -/
theorem Befalls.waits (h : Befalls n k g p q) (heard : Heard level p) (state : p.now.state = .requested) :
    q.now.state = .requested ∨ g.admitted ∧ q.now = p.now.enter .inrush .none k.window ∨ Fell k level q := by
  rcases h.goes with ⟨-, goes⟩ | ⟨-, -, closed⟩
  · cases goes with
    | stays same => exact .inl (same.state.trans state)
    | falls l d f off cut was is e => exact .inr (.inr (heard.falls still h was (by rw [e]; exact is)))
    | grants _ admitted e => exact .inr (.inl ⟨admitted, e⟩)
    | passes other => cases state.symm.trans other
    | stalls _ _ other => cases state.symm.trans other
    | rises _ _ _ other => cases state.symm.trans other
    | freed _ other => cases state.symm.trans other
    | retries _ other => cases state.symm.trans other
    | sheds _ other => cases state.symm.trans other
    | restores other => cases state.symm.trans other
  · rw [closed]
    exact .inl state

end

end Sys2Proof.Machine


/-! The inrush markers of a channel through an epoch start (R31, R45). -/

namespace Sys2Proof.Machine

section
variable {n : Nat} {k : ChannelConfig} {g : Prospect} {p q : Spot} {x y : Channel}

@[simp] theorem Channel.closeEpoch_state (x : Channel) (n : Nat) : (x.closeEpoch n).state = x.state := rfl

/-- INRUSH is entered with the marker set; elsewhere a state change leaves the markers. -/
theorem Channel.Goes.marker (h : x.Goes k g y) (out : y.state ≠ .inrush) : y.runningMarker = x.runningMarker := by
  have entered (z : Channel) (st : ChState) (r : ShedReason) (e : y = z.enter st r k.window)
      (hz : z.runningMarker = x.runningMarker) : y.runningMarker = x.runningMarker := by
    have other : st ≠ .inrush := fun is => out (by rw [e, is]; rfl)
    simp [e, hz, other]
  have wanted (z : Channel) (e : y = z.wanted k) (hz : z.runningMarker = x.runningMarker) :
      y.runningMarker = x.runningMarker := by
    rcases z.wanted_cases k with ⟨-, w⟩ | ⟨-, w⟩ <;> exact entered z _ _ (e.trans w) hz
  cases h with
  | stays h => exact h.markers.1
  | falls level duty f off cut was is' h => exact entered _ _ _ h rfl
  | rises level duty f off was is' h => exact wanted _ h rfl
  | freed ends state h =>
    rcases x.retaken_cases k with e | e | e
    · exact entered _ _ _ (h.trans e) rfl
    · exact absurd (by rw [h, e]; rfl) out
    · exact entered _ _ _ (h.trans e) (by simp)
  | passes state ended h => exact entered _ _ _ h rfl
  | stalls v epoch state ended sample h =>
    rw [Channel.trips_eq] at h
    exact entered _ _ _ h rfl
  | retries due state on h => exact wanted _ h rfl
  | sheds r state cls down h => exact entered _ _ _ h rfl
  | restores state up h => exact wanted _ h rfl
  | grants state admitted h => exact entered _ _ _ h rfl

theorem Channel.Goes.closedMarker (h : x.Goes k g y) : y.closedMarker = x.closedMarker := by
  have wanted (z : Channel) (e : y = z.wanted k) (hz : z.closedMarker = x.closedMarker) : y.closedMarker = x.closedMarker := by
    rcases z.wanted_cases k with ⟨-, w⟩ | ⟨-, w⟩ <;> rw [e, w] <;> exact hz
  cases h with
  | stays h => exact h.markers.2
  | falls level duty f off cut was is' h => rw [h]; rfl
  | rises level duty f off was is' h => exact wanted _ h rfl
  | freed ends state h => rcases x.retaken_cases k with e | e | e <;> rw [h, e] <;> rfl
  | passes state ended h => rw [h]; rfl
  | stalls v epoch state ended sample h => rw [h]; rfl
  | retries due state on h => exact wanted _ h rfl
  | sheds r state cls down h => rw [h]; rfl
  | restores state up h => exact wanted _ h rfl
  | grants state admitted h => rw [h]; rfl

/-- In INRUSH the running marker shows, once the measurement is closed, whether the window still runs. -/
theorem Undergoes.inrushMarker (hw : 1 ≤ k.window) (h : Undergoes n k g p q) (start : .taken .closeMeasurement ∉ p.done)
    (closed : .taken .closeMeasurement ∈ q.done) (is : q.now.state = .inrush) :
    q.now.runningMarker = true ↔ q.now.inrushRemaining ≠ 0 := by
  refine h.keeps (P := fun p => .taken .closeMeasurement ∈ p.done → p.now.state = .inrush →
    (p.now.runningMarker = true ↔ p.now.inrushRemaining ≠ 0)) (fun p q last hp closed is => ?_)
    (fun late => absurd late start) closed is
  rcases last.goes with ⟨same, goes⟩ | ⟨-, -, e⟩
  · rcases goes.remaining is with ⟨was, count, marker⟩ | ⟨whole, -, marker⟩
    · rw [count, marker]
      exact hp (same.mp closed) was
    · simp only [marker, true_iff]
      omega
  · rw [e] at is ⊢
    simp only [Channel.closeEpoch_state] at is
    simp [Channel.closeEpoch, is]

variable {level : Nat} (still : ¬g.moves)
include still


omit still in
/-- Whether the channel is marked for the epoch that closes: by the running marker until it has closed, then by the closed one. -/
def Spot.Marked (p : Spot) : Prop :=
  (.taken .closeMeasurement ∉ p.done → p.now.runningMarker = true) ∧ (.taken .closeMeasurement ∈ p.done → p.now.closedMarker = true)

/-- A channel marked within the epoch start has its window before it, unless its demand has fallen. -/
theorem Undergoes.marked (hw : 1 ≤ k.window) (h : Undergoes n k g p q) (heard : Heard level p) (start : .taken .closeMeasurement ∉ p.done)
    (clear : p.now.runningMarker = false) (marked : q.Marked) :
    q.now.state = .inrush ∧ q.now.inrushRemaining ≠ 0 ∨ Fell k level q := by
  have both : Heard level q ∧ (q.Marked → q.now.state = .inrush ∧ q.now.inrushRemaining ≠ 0 ∨ Fell k level q) := by
    refine h.keeps (P := fun p => Heard level p ∧ (p.Marked → p.now.state = .inrush ∧ p.now.inrushRemaining ≠ 0 ∨ Fell k level p))
      (fun p q last ⟨heard, hp⟩ => ⟨heard.befalls still last, fun marked => ?_⟩)
      ⟨heard, fun m => absurd (m.1 start) (by simp [clear])⟩
    rcases last.goes with ⟨same, goes⟩ | ⟨early, late, e⟩
    · by_cases is : q.now.state = .inrush
      · rcases goes.remaining is with ⟨was, count, marker⟩ | ⟨whole, -⟩
        · have before : p.Marked := ⟨fun early => marker ▸ marked.1 (mt same.mp early),
            fun late => goes.closedMarker ▸ marked.2 (same.mpr late)⟩
          rcases hp before with ⟨-, runs⟩ | fell
          · exact .inl ⟨is, count ▸ runs⟩
          · exact .inr (fell.befalls still last)
        · exact .inl ⟨is, by omega⟩
      · have before : p.Marked := ⟨fun early => goes.marker is ▸ marked.1 (mt same.mp early),
          fun late => goes.closedMarker ▸ marked.2 (same.mpr late)⟩
        rcases hp before with ⟨was, runs⟩ | fell
        · rcases Undergoes.stays_inrush still runs (.single last) heard (.inl ⟨was, rfl⟩) with ⟨stays, -⟩ | fell
          · exact absurd stays is
          · exact .inr fell
        · exact .inr (fell.befalls still last)
    · have before : p.Marked := ⟨fun _ => by have := marked.2 late; rwa [e] at this, fun late => absurd late early⟩
      rw [e]
      rcases hp before with inrush | fell
      · exact .inl inrush
      · have := fell.befalls still last
        exact .inr this
  exact both.2 marked

/-- Once the measurement is closed, the running marker is that of a channel in INRUSH, unless its demand has fallen. -/
theorem Undergoes.runningMarker (hw : 1 ≤ k.window) (h : Undergoes n k g p q) (heard : Heard level p)
    (start : .taken .closeMeasurement ∉ p.done) (closed : .taken .closeMeasurement ∈ q.done) (set : q.now.runningMarker = true) :
    q.now.state = .inrush ∧ q.now.inrushRemaining ≠ 0 ∨ Fell k level q := by
  have both : Heard level q ∧ (.taken .closeMeasurement ∈ q.done → q.now.runningMarker = true →
      q.now.state = .inrush ∧ q.now.inrushRemaining ≠ 0 ∨ Fell k level q) := by
    refine h.keeps (P := fun p => Heard level p ∧ (.taken .closeMeasurement ∈ p.done → p.now.runningMarker = true →
      p.now.state = .inrush ∧ p.now.inrushRemaining ≠ 0 ∨ Fell k level p))
      (fun p q last ⟨heard, hp⟩ => ⟨heard.befalls still last, fun closed set => ?_⟩) ⟨heard, fun late => absurd late start⟩
    rcases last.goes with ⟨same, goes⟩ | ⟨-, -, e⟩
    · by_cases is : q.now.state = .inrush
      · rcases goes.remaining is with ⟨was, count, marker⟩ | ⟨whole, -⟩
        · rcases hp (same.mp closed) (marker ▸ set) with ⟨-, runs⟩ | fell
          · exact .inl ⟨is, count ▸ runs⟩
          · exact .inr (fell.befalls still last)
        · exact .inl ⟨is, by omega⟩
      · rcases hp (same.mp closed) (goes.marker is ▸ set) with ⟨was, runs⟩ | fell
        · rcases Undergoes.stays_inrush still runs (.single last) heard (.inl ⟨was, rfl⟩) with ⟨stays, -⟩ | fell
          · exact absurd stays is
          · exact .inr fell
        · exact .inr (fell.befalls still last)
    · rw [e] at set ⊢
      simp only [Channel.closeEpoch, Bool.and_eq_true, decide_eq_true_eq] at set
      exact .inl set
  exact both.2 closed set

omit still in
/-- A channel whose window has run out does not come back to INRUSH in this epoch start: where it may be. -/
def Channel.Spent (g : Prospect) (x : Channel) : Prop :=
  x.state = .inrush ∧ x.inrushRemaining = 0 ∨ x.state = .on ∨ x.state = .shed ∧ g.down ∨
    x.state = .tripped ∧ x.retryTimer ≠ some 0 ∨ x.state = .latched

/-- Its marker is clear once the measurement is closed. -/
theorem Undergoes.spent (hk : 1 ≤ k.retryBase) (h : Undergoes n k g p q) (start : .taken .closeMeasurement ∉ p.done)
    (hp : p.now.Spent g) : (q.now.Spent g ∨ .taken .signals ∈ q.done ∧ q.now.state = .off) ∧
      (.taken .closeMeasurement ∈ q.done → q.now.runningMarker = false) := by
  refine h.keeps (P := fun p => (p.now.Spent g ∨ .taken .signals ∈ p.done ∧ p.now.state = .off) ∧
    (.taken .closeMeasurement ∈ p.done → p.now.runningMarker = false)) (fun p q last ⟨spent, clear⟩ => ?_)
    ⟨.inl hp, fun late => absurd late start⟩
  rcases last.goes with ⟨same, goes⟩ | ⟨-, -, e⟩
  · have markers (out : q.now.state ≠ .inrush) : .taken .closeMeasurement ∈ q.done → q.now.runningMarker = false :=
      fun closed => (goes.marker out).trans (clear (same.mp closed))
    have latest (demand : demandOn k.mode q.now.demandLevel ≠ demandOn k.mode p.now.demandLevel) :=
      last.resolved still demand
    cases goes with
    | stays same' =>
      refine ⟨?_, fun closed => same'.markers.1.trans (clear (same.mp closed))⟩
      rcases spent with spent | ⟨late, off⟩
      · refine .inl ?_
        unfold Channel.Spent
        rw [same'.state, same'.remaining]
        rcases spent with h | h | h | ⟨h, timer⟩ | h
        · exact .inl h
        · exact .inr (.inl h)
        · exact .inr (.inr (.inl h))
        · refine .inr (.inr (.inr (.inl ⟨h, ?_⟩)))
          rcases same'.timer with e | ⟨due, -⟩
          · rwa [e]
          · exact absurd due timer
        · exact .inr (.inr (.inr (.inr h)))
      · refine .inr ⟨?_, same'.state.trans off⟩
        rcases last.level still with ⟨iff, -⟩ | ⟨-, now⟩
        · exact iff.mpr late
        · exact now
    | falls l d f off cut was is e =>
      exact ⟨.inr ⟨(latest (by rw [e]; simp [was, is])).2, by rw [e]; rfl⟩, markers (by rw [e]; exact nofun)⟩
    | rises l d f off was is e =>
      have early := (latest (by rw [e, Channel.wanted_demandLevel]; simp [was, is])).1
      rcases spent with h | ⟨late, -⟩
      · simp [Channel.Spent, off] at h
      · exact absurd late early
    | freed ends state => simp [Channel.Spent, state] at spent
    | passes state ended e => exact ⟨.inl (.inr (.inl (by rw [e]; rfl))), markers (by rw [e]; exact nofun)⟩
    | stalls v epoch state ended sample e =>
      have cases' := p.now.stalls_cases k hk v epoch
      rw [← e] at cases'
      rcases cases' with ⟨tripped, m, timer⟩ | latched
      · exact ⟨.inl (.inr (.inr (.inr (.inl ⟨tripped, by simp [timer]⟩)))), markers (by simp [tripped])⟩
      · exact ⟨.inl (.inr (.inr (.inr (.inr latched)))), markers (by simp [latched])⟩
    | retries due state => simp [Channel.Spent, state, due] at spent
    | sheds r state cls down e => exact ⟨.inl (.inr (.inr (.inl ⟨by rw [e]; rfl, down⟩))), markers (by rw [e]; exact nofun)⟩
    | restores state up => simp [Channel.Spent, state, up] at spent
    | grants state => simp [Channel.Spent, state] at spent
  · rw [e]
    refine ⟨?_, fun _ => ?_⟩
    · rcases spent with h | ⟨late, off⟩
      · exact .inl h
      · refine .inr ⟨?_, off⟩
        rcases last.level still with ⟨iff, -⟩ | ⟨-, now⟩
        · exact iff.mpr late
        · exact now
    · rcases spent with h | ⟨late, off⟩
      · rcases h with h | h | h | h | h <;> simp [Channel.closeEpoch, h]
      · simp [Channel.closeEpoch, off]

end

end Sys2Proof.Machine


/-! The duties of a channel through an epoch start (R27), and the end of the cut at one channel (R20, R62). -/

namespace Sys2Proof.Machine

section
variable {n : Nat} {k : ChannelConfig} {g : Prospect} {p q : Spot} {x y : Channel}

/-! ### The duty loaded -/

/-- A channel that has just wanted power: it waits, or its window begins (R10). -/
def Channel.Joining (k : ChannelConfig) (x : Channel) : Prop :=
  x.state = .requested ∨ x.state = .inrush ∧ x.inrushRemaining = k.window

theorem Channel.wanted_joining (x : Channel) (k : ChannelConfig) : (x.wanted k).Joining k := by
  rcases x.wanted_cases k with ⟨-, w⟩ | ⟨-, w⟩ <;> rw [w]
  · exact .inr ⟨rfl, rfl⟩
  · exact .inl rfl

/-- How a step takes a channel from one state to another, its demand standing. -/
theorem Channel.Goes.course (hk : 1 ≤ k.retryBase) (h : x.Goes k g y)
    (demand : demandOn k.mode y.demandLevel = demandOn k.mode x.demandLevel) :
    x.SameCourse y ∨ x.state = .cut ∧ (y.state = .off ∨ y.Joining k) ∨
      (x.state = .inrush ∧ x.inrushRemaining = 0) ∧
        (y.state = .on ∨ x.lastSample ≠ none ∧ (y.state = .tripped ∧ y.retryTimer ≠ some 0 ∨ y.state = .latched)) ∨
      (x.state = .tripped ∧ x.retryTimer = some 0) ∧ y.Joining k ∨ (x.state = .on ∧ g.down) ∧ y.state = .shed ∨
      (x.state = .shed ∧ ¬g.down) ∧ y.Joining k ∨ x.state = .requested ∧ y.state = .inrush ∧ y.inrushRemaining = k.window := by
  cases h with
  | stays h => exact .inl h
  | falls l d f off cut was is e => exact absurd demand (by rw [e]; simp [was, is])
  | rises l d f off was is e => exact absurd demand (by rw [e, Channel.wanted_demandLevel]; simp [was, is])
  | freed ends state e =>
    refine .inr (.inl ⟨state, ?_⟩)
    rcases x.retaken_cases k with r | r | r <;> rw [e, r]
    · exact .inl rfl
    · exact .inr (.inr ⟨rfl, rfl⟩)
    · exact .inr (.inl rfl)
  | passes state ended e => exact .inr (.inr (.inl ⟨⟨state, ended⟩, .inl (by rw [e]; rfl)⟩))
  | stalls v epoch state ended sample e =>
    refine .inr (.inr (.inl ⟨⟨state, ended⟩, .inr ⟨by simp [sample], ?_⟩⟩))
    rcases x.stalls_cases k hk v epoch with ⟨tripped, m, timer⟩ | latched
    · exact .inl ⟨e ▸ tripped, by simp [e, timer]⟩
    · exact .inr (e ▸ latched)
  | retries due state on e => exact .inr (.inr (.inr (.inl ⟨⟨state, due⟩, e ▸ Channel.wanted_joining _ k⟩)))
  | sheds r state cls down e => exact .inr (.inr (.inr (.inr (.inl ⟨⟨state, down⟩, by rw [e]; rfl⟩))))
  | restores state up e => exact .inr (.inr (.inr (.inr (.inr (.inl ⟨⟨state, up⟩, e ▸ Channel.wanted_joining _ k⟩)))))
  | grants state admitted e => exact .inr (.inr (.inr (.inr (.inr (.inr ⟨state, by rw [e]; exact ⟨rfl, rfl⟩⟩)))))

/-- Where a channel that was in `σ` may be once it has left that state with its demand standing: it does not come back within the epoch
start. -/
def Channel.Gone (g : Prospect) (σ : ChState) (x : Channel) : Prop :=
  match σ with
  | .off | .latched => False
  | .requested => x.state = .inrush ∧ x.inrushRemaining ≠ 0
  | .inrush => x.state = .on ∨ x.state = .shed ∧ g.down ∨ x.state = .tripped ∧ x.retryTimer ≠ some 0 ∨ x.state = .latched
  | .on => x.state ≠ .on ∧ (x.state = .inrush → x.inrushRemaining ≠ 0)
  | .shed => x.state = .requested ∨ x.state = .inrush ∧ x.inrushRemaining ≠ 0
  | .tripped => x.state = .requested ∨ x.state = .on ∨ x.state = .shed ∨
      x.state = .inrush ∧ (x.inrushRemaining ≠ 0 ∨ x.lastSample = none)
  | .cut => x.state ≠ .cut

theorem Channel.Gone.state_ne {σ : ChState} (h : x.Gone g σ) : x.state ≠ σ := by
  cases σ <;> simp only [Channel.Gone] at h <;> grind

/-- One that stays in `σ`, or is gone from it, is so after the next step. -/
theorem Channel.Goes.gone (hw : 1 ≤ k.window) (hk : 1 ≤ k.retryBase) {σ : ChState} (h : x.Goes k g y)
    (demand : demandOn k.mode y.demandLevel = demandOn k.mode x.demandLevel) (hx : x.state = σ ∨ x.Gone g σ) :
    y.state = σ ∧ x.state = σ ∨ y.Gone g σ := by
  have course := h.course hk demand
  have window : k.window ≠ 0 := by omega
  by_cases same : x.SameCourse y
  · obtain ⟨state, remaining, timer, sample, -, -⟩ := same
    rcases hx with hx | gone
    · exact .inl ⟨state.trans hx, hx⟩
    · right
      cases σ <;> simp only [Channel.Gone, state, remaining, sample] at gone ⊢ <;> grind
  · replace course := course.resolve_left same
    unfold Channel.Joining at course
    clear h demand
    cases σ <;> simp only [Channel.Gone] at hx ⊢ <;> grind

/-- What the loading of the duties comes to at a channel of shadow duty `d` that stays in its state: it has one cap order at most. -/
structure Loaded (d : Nat) (p : Spot) : Prop where
  uncapped : p.capped = false → p.now.shadowDuty = d
  loaded : .taken .loadDuties ∈ p.done → p.now.activeDuty = d ∨ p.capped = true ∧ p.now.activeDuty = p.now.shadowDuty

/-- A step that leaves state and level keeps it. -/
theorem Loaded.befalls {d : Nat} (loaded : Loaded d p) (h : Befalls n k g p q) (still : ¬g.moves) (state : q.now.state = p.now.state)
    (level : q.now.demandLevel = p.now.demandLevel) : Loaded d q := by
  obtain ⟨uncapped, loaded⟩ := loaded
  have wanted (x : Channel) (h : (x.wanted k).state = p.now.state) (hp : p.now.state = .tripped ∨ p.now.state = .shed) : False := by
    rcases x.wanted_joining k with w | ⟨w, -⟩ <;> rw [w] at h <;> simp [← h] at hp
  cases h with
  | notes m other =>
    simp only [List.mem_cons, not_or] at other
    exact ⟨uncapped, fun late => loaded ((List.mem_cons.mp late).resolve_left (Ne.symm other.2.1))⟩
  | ignores => exact ⟨nofun, fun late => (loaded late).imp_right fun h => ⟨rfl, h.2⟩⟩
  | closes => exact ⟨uncapped, fun late => loaded (by simpa using late)⟩
  | @loads D b x =>
    refine ⟨uncapped, fun _ => ?_⟩
    cases b with
    | false => exact .inl (uncapped rfl)
    | true => exact .inr ⟨rfl, rfl⟩
  | @resolves D b x lev =>
    have same : (if k.enabled = true then x.resolvedTo k lev else x) = x := by
      split
      next on =>
        simp only [on, if_true, Channel.resolvedTo_demandLevel] at level
        rw [level, Channel.resolvedTo_self]
      next => rfl
    simp only [same]
    exact ⟨uncapped, fun late => loaded (by simpa using late)⟩
  | reads lev once moves => exact absurd moves still
  | rests | stays => exact ⟨uncapped, fun late => loaded (by simpa using late)⟩
  | @freed D b x once ends cut => exact absurd (state.trans cut) (x.retaken_uncut k)
  | @passes D b x is => exact absurd (state.symm.trans rfl) (by simp [show x.state = .inrush from is])
  | @stalls D b x v epoch is =>
    have := state.symm.trans (x.trips_state k _ _ _ _)
    simp only [is, Channel.tripState] at this
    split at this <;> cases this
  | retries due is => exact (wanted _ state (.inl is)).elim
  | restores is => exact (wanted _ state (.inr is)).elim
  | expires | forgives => exact ⟨uncapped, loaded⟩
  | sheds r hr is => exact absurd (state.symm.trans rfl) (by simp [is])
  | caps cap is =>
    refine ⟨nofun, fun late => .inl ?_⟩
    exact (loaded late).resolve_right fun h => nomatch h.1
  | grants is => exact absurd (state.symm.trans rfl) (by simp [is])

/-- The duty loaded at a channel that keeps its state, its level and its shadow duty is the one it had (R27). -/
theorem Undergoes.loaded (hw : 1 ≤ k.window) (hk : 1 ≤ k.retryBase) (still : ¬g.moves) {σ : ChState} {ℓ d : Nat}
    (h : Undergoes n k g p q) (heard : Heard ℓ p)
    (hp : (p.now.state = σ ∧ p.now.demandLevel = ℓ ∧ Loaded d p) ∨ p.now.Gone g σ) (late : .taken .loadDuties ∈ q.done)
    (state : q.now.state = σ) (level : q.now.demandLevel = ℓ) (shadow : q.now.shadowDuty = d) : q.now.activeDuty = d := by
  have all : Heard ℓ q ∧ (.taken .signals ∈ q.done ∧ q.now.demandLevel ≠ ℓ ∨
      (q.now.state = σ ∧ q.now.demandLevel = ℓ ∧ Loaded d q) ∨ q.now.Gone g σ) := by
    refine h.keeps (P := fun q => Heard ℓ q ∧ (.taken .signals ∈ q.done ∧ q.now.demandLevel ≠ ℓ ∨
      (q.now.state = σ ∧ q.now.demandLevel = ℓ ∧ Loaded d q) ∨ q.now.Gone g σ))
      (fun p q last ⟨heard, hp⟩ => ⟨heard.befalls still last, ?_⟩) ⟨heard, .inr hp⟩
    rcases hp with ⟨done, other⟩ | hp
    · rcases last.level still with ⟨iff, e⟩ | ⟨early, -⟩
      · exact .inl ⟨iff.mpr done, e ▸ other⟩
      · exact absurd done early
    · by_cases moved : .taken .signals ∈ q.done ∧ q.now.demandLevel ≠ ℓ
      · exact .inl moved
      right
      have hx : p.now.state = σ ∨ p.now.Gone g σ := hp.imp_left And.left
      have demand : demandOn k.mode q.now.demandLevel = demandOn k.mode p.now.demandLevel := by
        by_contra other
        obtain ⟨early, done⟩ := last.resolved still other
        rw [heard early] at other
        exact moved ⟨done, fun e => other (by rw [e])⟩
      rcases last.goes with ⟨-, goes⟩ | ⟨-, -, e⟩
      · rcases goes.gone hw hk demand hx with ⟨is, was⟩ | gone
        · obtain ⟨-, level, loaded⟩ := hp.resolve_right fun gone => gone.state_ne was
          have same : q.now.demandLevel = p.now.demandLevel := by
            rcases last.level still with ⟨-, e⟩ | ⟨-, done⟩
            · exact e
            · rw [level]
              by_contra other
              exact moved ⟨done, other⟩
          exact .inl ⟨is, same.trans level, loaded.befalls last still (is.trans was.symm) same⟩
        · exact .inr gone
      · refine hp.imp (fun ⟨state, level, loaded⟩ => ?_) fun gone => by rw [e]; exact gone
        exact ⟨by rw [e]; exact state, by rw [e]; exact level, loaded.befalls last still (by rw [e]; rfl) (by rw [e]; rfl)⟩
  rcases all.2 with ⟨-, other⟩ | ⟨-, -, loaded⟩ | gone
  · exact absurd level other
  · rcases loaded.loaded late with e | ⟨-, e⟩
    · exact e
    · exact e.trans shadow
  · exact absurd state gone.state_ne

/-! ### The end of the cut -/

/-- A cut that does not end keeps the channel. -/
theorem Undergoes.stays_cut (h : Undergoes n k g p q) (holds : ¬g.ends) (hp : p.now.state = .cut) : q.now.state = .cut := by
  refine h.keeps (P := fun p => p.now.state = .cut) (fun p q last hp => ?_) hp
  rcases last.goes with ⟨-, goes⟩ | ⟨-, -, e⟩
  · cases goes with
    | stays same => exact same.state.trans hp
    | falls l d f off cut => exact absurd hp cut
    | freed ends => exact absurd ends holds
    | rises l d f other => cases hp.symm.trans other
    | passes other => cases hp.symm.trans other
    | stalls _ _ other => cases hp.symm.trans other
    | retries _ other => cases hp.symm.trans other
    | sheds _ other => cases hp.symm.trans other
    | restores other => cases hp.symm.trans other
    | grants other => cases hp.symm.trans other
  · rw [e]
    exact hp

/-- A channel that the cut has freed: it has its demand taken again, and waits on from there (R20). -/
structure Channel.Freed (k : ChannelConfig) (x : Channel) : Prop where
  state : x.state = if k.enabled = true ∧ demandOn k.mode x.demandLevel = true then (if k.cls = 0 then .inrush else .requested) else .off
  remaining : x.inrushRemaining = if x.state = .inrush then k.window else 0
  duty : x.effectiveDuty = if x.state = .inrush then x.demandDuty else 0
  shadow : x.shadowDuty = x.effectiveDuty
  cap : x.cap = 255
  reason : x.shedReason = .none

theorem Channel.enter_freed {st : ChState} (h : st = .off ∨ st = .requested ∨ st = .inrush)
    (state : st = if k.enabled = true ∧ demandOn k.mode x.demandLevel = true then (if k.cls = 0 then .inrush else .requested) else .off) :
    (x.enter st .none k.window).Freed k where
  state := state
  remaining := rfl
  duty := by rcases h with rfl | rfl | rfl <;> rfl
  shadow := rfl
  cap := rfl
  reason := rfl

theorem Channel.wanted_freed (takes : k.enabled = true ∧ demandOn k.mode x.demandLevel = true) : (x.wanted k).Freed k := by
  rcases x.wanted_cases k with ⟨zero, w⟩ | ⟨other, w⟩ <;> rw [w]
  · exact Channel.enter_freed (.inr (.inr rfl)) (by rw [if_pos takes, if_pos zero])
  · exact Channel.enter_freed (.inr (.inl rfl)) (by rw [if_pos takes, if_neg other])

theorem Channel.retaken_freed (x : Channel) (k : ChannelConfig) : (x.retaken k).Freed k := by
  simp only [Channel.retaken, Bool.and_eq_true]
  split
  next takes => exact Channel.wanted_freed takes
  next other => exact Channel.enter_freed (.inl rfl) (by rw [if_neg other])

/-- A resolution keeps to it. -/
theorem Channel.Freed.resolvedTo (h : x.Freed k) (enabled : k.enabled = true) (level : Nat) : (x.resolvedTo k level).Freed k := by
  obtain ⟨f, -, ⟨-, e⟩ | ⟨⟨off, was, is⟩, e⟩ | ⟨⟨off, cut, was, is⟩, e⟩ | ⟨falls, rises, e⟩⟩ := x.resolvedTo_cases k level <;> rw [e]
  · exact h
  · exact Channel.wanted_freed ⟨enabled, is⟩
  · exact Channel.enter_freed (.inl rfl) (by simp [is])
  · obtain ⟨state, remaining, -, -, cap, reason⟩ := h
    have demand : demandOn k.mode level = demandOn k.mode x.demandLevel := by
      rw [state] at falls rises
      grind
    refine ⟨by simp [demand, ← state], remaining, ?_, rfl, cap, reason⟩
    have among : x.state = .off ∨ x.state = .requested ∨ x.state = .inrush := by rw [state]; grind
    rcases among with is | is | is <;> simp [Channel.recompute, effectiveDutyOf, is]

theorem Channel.resolvedTo_cut (cut : x.state = .cut) (level : Nat) : (x.resolvedTo k level).state = .cut := by
  obtain ⟨f, -, ⟨-, e⟩ | ⟨⟨other, -⟩, -⟩ | ⟨⟨-, other, -⟩, -⟩ | ⟨-, -, e⟩⟩ := x.resolvedTo_cases k level
  · rwa [e]
  · cases cut.symm.trans other
  · exact absurd cut other
  · rwa [e]

/-- A channel in CUT stays there until the supply is tested, which frees it. -/
theorem Befalls.uncut (ends : g.ends) (h : Befalls n k g p q) (early : .taken .supplyTest ∉ p.done) (cut : p.now.state = .cut) :
    .taken .supplyTest ∉ q.done ∧ q.now.state = .cut ∨ .taken .supplyTest ∈ q.done ∧ q.now.Freed k := by
  have never {st : ChState} (other : p.now.state = st) (ne : st ≠ .cut) {P : Prop} : P := absurd (other.symm.trans cut) ne
  cases h with
  | freed => exact .inr ⟨List.mem_cons_self, Channel.retaken_freed _ k⟩
  | stays once other => exact absurd ⟨ends, cut⟩ other
  | notes m other =>
    simp only [List.mem_cons, not_or] at other
    exact .inl ⟨by simp [early, Ne.symm other.2.2.2.2.1], cut⟩
  | ignores | expires | forgives => exact .inl ⟨early, cut⟩
  | closes | loads | rests => exact .inl ⟨by simpa using early, cut⟩
  | resolves level =>
    refine .inl ⟨by simpa using early, ?_⟩
    simp only []
    split
    · exact Channel.resolvedTo_cut cut level
    · exact cut
  | reads level => exact .inl ⟨by simpa using early, Channel.resolvedTo_cut cut level⟩
  | passes is | stalls _ _ is | retries _ is | sheds _ _ is | caps _ is | restores is | grants is => exact never is (by decide)

/-- A channel freed stays so where no claim is admitted. -/
theorem Befalls.freed_stays (hw : 1 ≤ k.window) (quiet : ¬g.admitted) (h : Befalls n k g p q) (late : .taken .supplyTest ∈ p.done)
    (freed : p.now.Freed k) : q.now.Freed k := by
  have never {st : ChState} (is : p.now.state = st) (ne : st ≠ .off ∧ st ≠ .requested ∧ st ≠ .inrush) {P : Prop} : P := by
    have := freed.state.symm.trans is
    grind
  have runs (is : p.now.state = .inrush) : p.now.inrushRemaining ≠ 0 := by
    rw [freed.remaining, if_pos is]
    omega
  cases h with
  | freed once => exact absurd late once
  | stays once => exact freed
  | notes | ignores | rests => exact freed
  | expires | forgives | closes | loads =>
    exact ⟨freed.state, freed.remaining, freed.duty, freed.shadow, freed.cap, freed.reason⟩
  | resolves level =>
    simp only []
    split
    next enabled => exact freed.resolvedTo enabled level
    next => exact freed
  | reads level _ _ enabled => exact freed.resolvedTo enabled level
  | passes is ended => exact absurd ended (runs is)
  | stalls _ _ is ended => exact absurd ended (runs is)
  | retries _ is | sheds _ _ is | caps _ is | restores is => exact never is (by decide)
  | grants _ admitted => exact absurd admitted quiet

theorem Befalls.done_subset (h : Befalls n k g p q) : p.done ⊆ q.done := by
  cases h <;> simp

/-- Until the supply is tested the channel is in CUT; then it is freed, and stays so where no claim is admitted. -/
theorem Undergoes.freed (hw : 1 ≤ k.window) (ends : g.ends) (quiet : ¬g.admitted) (h : Undergoes n k g p q)
    (start : .taken .supplyTest ∉ p.done) (cut : p.now.state = .cut) (tested : .taken .supplyTest ∈ q.done) : q.now.Freed k := by
  have all : .taken .supplyTest ∉ q.done ∧ q.now.state = .cut ∨ .taken .supplyTest ∈ q.done ∧ q.now.Freed k := by
    refine h.keeps (P := fun q => .taken .supplyTest ∉ q.done ∧ q.now.state = .cut ∨ .taken .supplyTest ∈ q.done ∧ q.now.Freed k)
      (fun p q last hp => ?_) (.inl ⟨start, cut⟩)
    rcases hp with ⟨early, cut⟩ | ⟨late, freed⟩
    · exact last.uncut ends early cut
    · exact .inr ⟨last.done_subset late, last.freed_stays hw quiet late freed⟩
  exact (all.resolve_left fun early => early.1 tested).2

end

end Sys2Proof.Machine


/-! The head of an epoch start: the waits that end before its parts, and what it counts (R32, log entry 5). -/

namespace Sys2Proof.Machine

/-! ### The waits -/

/-- The parts that an epoch start takes before it counts. -/
def headParts : List EpochTask := [.windowEnds, .retries, .attemptResets, .peerPresence, .holdRemovals, .publication, .isolation]

section
variable (n : Nat) (din : DinLevels) (s : State)

theorem settleWaits_eq : settleWaits s = runTasks n din headParts s := by
  unfold settleWaits headParts runTasks
  simp only [List.foldl, runTask]

theorem settleWaits_reaches (r : Ruling) :
    Reaches n din r ⟨[], [], s⟩ ⟨took headParts [], [], settleWaits s⟩ := by
  rw [settleWaits_eq n din s]
  exact reaches_runTasks ⟨by decide, by decide, by simp⟩ s

theorem settleWaits_epochKeeps : s.EpochKeeps (settleWaits s) := by
  have run := settleWaits_reaches 0 s.signal.inputs s ⟨false, false, none⟩
  generalize settleWaits s = t at run ⊢
  exact run.epochKeeps

/-- The waits at one channel. -/
theorem settleWaits_ch (c : Chan) : (settleWaits s).ch c = (s.ch c).settledWaits (s.cfg c) s.timer.number := by
  have ended := windowEnds_ch c s
  have rejoined := retries_ch c (windowEnds s)
  have forgiven := attemptResets_ch c (retries (windowEnds s))
  have cfg : (windowEnds s).cfg c = s.cfg c := (cfg_of_blank (forChans_blank windowEnd_blank s) c :)
  have published (u : State) : (periodicPublication u).ch c = u.ch c := by
    unfold periodicPublication
    split
    · exact publish_ch u c
    · rfl
  have isolated (u : State) : (isolationDue u).ch c = u.ch c := by
    unfold isolationDue
    split <;> rfl
  unfold settleWaits Channel.settledWaits
  rw [isolated, published, ← ended, ← cfg, ← rejoined, ← forgiven]
  simp [removeRunOut, peerPresence]

/-- What the waits leave of the blocks beside the channels and the frames. -/
structure State.WaitsLeave (s t : State) : Prop where
  sense : t.sense = s.sense := by rfl
  cuts : t.cuts = s.cuts := by rfl
  budget : t.budget = { s.budget with inUse := t.budget.inUse } := by rfl
  deferral : t.sched.deferral = s.sched.deferral := by rfl
  inputs : t.signal.inputs = s.signal.inputs := by rfl

theorem State.WaitsLeave.trans {s t u : State} (h : s.WaitsLeave t) (g : t.WaitsLeave u) : s.WaitsLeave u where
  sense := g.sense.trans h.sense
  cuts := g.cuts.trans h.cuts
  budget := by rw [g.budget, h.budget]
  deferral := g.deferral.trans h.deferral
  inputs := g.inputs.trans h.inputs

theorem windowEnd_sched_counts (c : Chan) (s : State) : s.sched.sameCounts (windowEnd c s).sched := by
  have tripped (k : FaultKind) (current step : Nat) : s.sched.sameCounts (trip c k current step s).sched := by
    unfold trip
    split
    · exact ((updCh_kept s c _).trans (enter_kept c _ _ _)).counts
    · exact ⟨rfl, rfl, rfl⟩
  unfold windowEnd
  split
  · split
    · split
      · exact tripped _ _ _
      · exact (enter_kept c s _ _).counts
    · exact (enter_kept c s _ _).counts
  · exact ⟨rfl, rfl, rfl⟩

theorem windowEnds_deferral : (windowEnds s).sched.deferral = s.sched.deferral := by
  unfold windowEnds forChans
  exact List.foldlRecOn allChans (motive := fun t : State => t.sched.deferral = s.sched.deferral) _ rfl
    fun t ht c _ => (windowEnd_sched_counts c t).2.1.trans ht

theorem State.KeptByParts.waitsLeave {s t : State} (h : s.KeptByParts t) (inputs : t.signal.inputs = s.signal.inputs) :
    s.WaitsLeave t where
  sense := h.sense
  cuts := h.cuts
  budget := by rw [h.budget]
  deferral := h.counts.2.1
  inputs := inputs

theorem settleWaits_leave : s.WaitsLeave (settleWaits s) := by
  have ended : s.WaitsLeave (windowEnds s) := by
    have blank := forChans_blank windowEnd_blank s
    refine ⟨sense_of_blank blank, windowEnds_cuts s, ?_, windowEnds_deferral s, congrArg _ (signal_of_blank blank)⟩
    rw [show (windowEnds s).budget = s.budget from budget_of_blank blank]
  have rejoined (u : State) : u.WaitsLeave (retries u) :=
    (forChans_kept retryDue_kept u).waitsLeave (congrArg _ (signal_of_blank (forChans_blank retryDue_blank u)))
  have forgiven (u : State) : u.WaitsLeave (attemptResets u) :=
    (forChans_kept attemptReset_kept u).waitsLeave (congrArg _ (signal_of_blank (forChans_blank attemptReset_blank u)))
  have published (u : State) : u.WaitsLeave (periodicPublication u) := by
    unfold periodicPublication
    split
    · exact (publish_kept u).waitsLeave (publish_inputs u)
    · exact {}
  have isolated (u : State) : u.WaitsLeave (isolationDue u) := by
    unfold isolationDue
    split <;> exact {}
  have middle (u : State) : u.WaitsLeave (removeRunOut (peerPresence u)) := by
    constructor <;> simp [removeRunOut, peerPresence]
  unfold settleWaits
  exact ended.trans ((rejoined _).trans ((forgiven _).trans ((middle _).trans ((published _).trans (isolated _)))))

/-- The publication count after a publication that is due (R75). -/
theorem settleWaits_pubCount : (settleWaits s).signal.pubCount =
    if s.publishes = true ∧ s.signal.pubCount = 8 then 0 else s.signal.pubCount := by
  have same : (removeRunOut (peerPresence (attemptResets (retries (windowEnds s))))).signal = s.signal ∧
      (removeRunOut (peerPresence (attemptResets (retries (windowEnds s))))).publishes = s.publishes := by
    have ended := forChans_blank windowEnd_blank s
    have rejoined := forChans_blank retryDue_blank (windowEnds s)
    have forgiven := forChans_blank attemptReset_blank (retries (windowEnds s))
    have blank : (attemptResets (retries (windowEnds s))).blank = s.blank := forgiven.trans (rejoined.trans ended)
    generalize attemptResets (retries (windowEnds s)) = u at blank ⊢
    have signal : (removeRunOut (peerPresence u)).signal = u.signal := by simp [removeRunOut, peerPresence]
    have loader : (removeRunOut (peerPresence u)).loader = u.loader := by simp [removeRunOut, peerPresence]
    rw [State.publishes, State.publishes, params_congr loader, loader, signal, signal_of_blank blank, loader_of_blank blank,
      params_congr (loader_of_blank blank)]
    exact ⟨rfl, rfl⟩
  have isolated (u : State) : (isolationDue u).signal = u.signal := by
    unfold isolationDue
    split <;> rfl
  unfold settleWaits
  rw [isolated, periodicPublication, same.1]
  generalize removeRunOut (peerPresence (attemptResets (retries (windowEnds s)))) = u at same ⊢
  obtain ⟨signal, publishes⟩ := same
  cases silent : s.publishes with
  | true =>
    split
    next due => rw [publish_of_publishes u (publishes.trans silent), if_pos ⟨rfl, due⟩]; rfl
    next due => rw [signal, if_neg fun h => due h.2]
  | false => simp [publish_of_silent u (publishes.trans silent), signal]

end

/-! ### What is counted -/

/-- The state in which the parts of an epoch start begin: the waits ended, the number taken, everything counted. -/
def State.begun (m : Nat) (charge first : Bool) (s : State) : State :=
  let s1 := (settleWaits s).setPins { s.pins with charge := charge }
  countEpochs first (s1.setTimer { s1.timer with number := m, completed := 0 })

theorem epochStart_eq (n m : Nat) (inp : Inputs) (ord : EpochOrder) (s : State) : epochStart n m inp ord s =
    (outsideParts ord).foldl (fun s t => epochTask n inp.din ord t s) (s.begun m inp.charge ord.schedulerFirst) := by
  unfold epochStart State.begun
  simp only []

section
variable (first : Bool) (s : State)

theorem countPublication_eq : countPublication s = { s with signal := { s.signal with
    pubCount := if s.publishes = true then min 8 (s.signal.pubCount + 1) else s.signal.pubCount } } := by
  unfold countPublication
  split <;> rfl

/-- What the blocks beside the Scheduler and the channels count. -/
theorem agedBlocks_eq : countPublication (ageSignals (countSilence (lowerHolds (s.mapPeers PeerEntry.grow)))) = { s with
    peers := (s.mapPeers PeerEntry.grow).peers
    reservations := s.reservations.map fun r => { r with hold := r.hold - 1 }
    link := { s.link with silence := min 10 (s.link.silence + 1) }
    signal := { s.signal with
      store := s.signal.store.map (·.grow s.params.lifetime), phaseOn := flashPhase s.timer.number
      pubCount := if s.publishes = true then min 8 (s.signal.pubCount + 1) else s.signal.pubCount } } := by
  rw [countPublication_eq]
  have loader : (ageSignals (countSilence (lowerHolds (s.mapPeers PeerEntry.grow)))).loader = s.loader := by
    simp [ageSignals, takePhase, State.setStore, countSilence, lowerHolds]
  have publishes : (ageSignals (countSilence (lowerHolds (s.mapPeers PeerEntry.grow)))).publishes = s.publishes := by
    rw [State.publishes, State.publishes, params_congr loader, loader]
  have params : (countSilence (lowerHolds (s.mapPeers PeerEntry.grow))).params = s.params := params_congr (by simp [countSilence, lowerHolds])
  rw [publishes]
  simp only [ageSignals, takePhase, params, State.setStore, State.setSignal]
  simp only [countSilence, lowerHolds, State.setLink, State.setReservations, State.mapPeers]

/-- Which counters an epoch start moves (R12, R54, R65, R74, R75, R99, R104, R116, R138, R149). -/
theorem countEpochs_eq : countEpochs first s = { s with
    channels := (s.mapCh fun _ x => x.countEpoch).channels
    sched := { s.sched with
      listen := s.sched.listen - 1, deferral := s.sched.deferral - 1
      announceHold := if first = true then s.surgeHold else (s.mapCh fun _ x => x.countEpoch).surgeHold }
    peers := (s.mapPeers PeerEntry.grow).peers
    reservations := s.reservations.map fun r => { r with hold := r.hold - 1 }
    link := { s.link with silence := min 10 (s.link.silence + 1) }
    signal := { s.signal with
      store := s.signal.store.map (·.grow s.params.lifetime), phaseOn := flashPhase s.timer.number
      pubCount := if s.publishes = true then min 8 (s.signal.pubCount + 1) else s.signal.pubCount } } := by
  have alike (u : State) (loader : u.loader = s.loader) : u.params = s.params ∧ u.publishes = s.publishes := by
    refine ⟨params_congr loader, ?_⟩
    rw [State.publishes, State.publishes, params_congr loader, loader]
  have peers (u : State) (same : u.peers = s.peers) : (u.mapPeers PeerEntry.grow).peers = (s.mapPeers PeerEntry.grow).peers := by
    simp only [State.mapPeers, peer_congr same]
  unfold countEpochs
  simp only [agedBlocks_eq]
  cases first with
  | true =>
    obtain ⟨params, publishes⟩ := alike ((schedulerEpoch s).mapCh fun _ x => x.countEpoch) (by simp [schedulerEpoch])
    simp only [if_true, params, publishes, peers ((schedulerEpoch s).mapCh fun _ x => x.countEpoch) (by simp [schedulerEpoch])]
    generalize (s.mapPeers PeerEntry.grow).peers = v
    have channels : ((schedulerEpoch s).mapCh fun _ x => x.countEpoch).channels = (s.mapCh fun _ x => x.countEpoch).channels := by
      simp [State.mapCh, schedulerEpoch]
    rw [channels]
    generalize (s.mapCh fun _ x => x.countEpoch).channels = w
    generalize hw : s.surgeHold = hold
    simp only [schedulerEpoch, State.setSched, State.mapCh, hw]
  | false =>
    obtain ⟨params, publishes⟩ := alike (schedulerEpoch (s.mapCh fun _ x => x.countEpoch)) (by simp [schedulerEpoch])
    simp only [Bool.false_eq_true, if_false, params, publishes, peers (schedulerEpoch (s.mapCh fun _ x => x.countEpoch)) (by simp [schedulerEpoch])]
    generalize (s.mapPeers PeerEntry.grow).peers = v
    simp only [schedulerEpoch, State.setSched, State.mapCh]

/-- What the head of an epoch start that takes the number `m` leaves. -/
structure State.Begun (m : Nat) (charge : Bool) (s t : State) : Prop where
  loader : t.loader = s.loader
  timer : t.timer = { s.timer with number := m, completed := 0 }
  modulator : t.modulator = s.modulator
  pins : t.pins = { s.pins with charge := charge }
  cuts : t.cuts = s.cuts
  sense : t.sense = s.sense
  budget : t.budget = { s.budget with inUse := t.budget.inUse }
  diag : t.diag = { s.diag with faultAsserted := t.diag.faultAsserted }
  table : t.signal = { s.signal with
    store := s.signal.store.map (·.grow s.params.lifetime), phaseOn := flashPhase m, pubCount := t.signal.pubCount }
  pubCount : t.signal.pubCount =
    if s.publishes = true then min 8 ((if s.signal.pubCount = 8 then 0 else s.signal.pubCount) + 1) else s.signal.pubCount
  link : { t.link with isolated := s.link.isolated, silence := s.link.silence }.blank = s.link.blank
  silence : t.link.silence = min 10 (s.link.silence + 1)
  markSlot : t.link.slots.mark = s.link.slots.mark
  behindMark : s.link.onLine = some .mark →
    t.link.heldAside = s.link.heldAside ∧ t.link.lineWithdrawn = s.link.lineWithdrawn
  isolated : s.link.isolated = true → t.link.isolated = true
  peers : ∀ p, ∃ e, (s.peer p).Wanes e ∧ t.peer p = e.grow
  entries : t.standingEntries = (s.reservations.map fun r => { r with hold := r.hold - 1 }).filter fun r => r.hold ≠ 0
  listen : t.sched.listen = s.sched.listen - 1
  deferral : t.sched.deferral = s.sched.deferral - 1
  ch : ∀ c, t.ch c = ((s.ch c).settledWaits (s.cfg c) s.timer.number).countEpoch

/-- An entry whose hold has run out is none that stands, before the holds are lowered and after. -/
theorem standing_lowered (l : List Reservation) :
    ((l.filter fun r => r.hold ≠ 0).map fun r => { r with hold := r.hold - 1 }).filter (fun r => r.hold ≠ 0) =
      (l.map fun r => { r with hold := r.hold - 1 }).filter fun r => r.hold ≠ 0 := by
  induction l with
  | nil => rfl
  | cons r rest ih =>
    by_cases zero : r.hold = 0
    · simpa [zero] using ih
    · by_cases one : r.hold - 1 = 0 <;> simp [zero, one] <;> simpa using ih

end

section
variable (m : Nat) (charge first : Bool) (s : State)

theorem begun_spec : s.Begun m charge (s.begun m charge first) := by
  have keeps := settleWaits_epochKeeps s
  have leave := settleWaits_leave s
  have pub := settleWaits_pubCount s
  have channel := settleWaits_ch s
  unfold State.begun
  generalize settleWaits s = w at keeps leave pub channel ⊢
  have params : w.params = s.params := params_congr keeps.loader
  have publishes : w.publishes = s.publishes := by rw [State.publishes, State.publishes, params, keeps.loader]
  simp only []
  generalize hv : (w.setPins { s.pins with charge := charge }).setTimer
    { (w.setPins { s.pins with charge := charge }).timer with number := m, completed := 0 } = v
  have vloader : v.loader = w.loader := by simp [← hv]
  have vparams : v.params = s.params := (params_congr vloader).trans params
  have vpublishes : v.publishes = s.publishes := by
    rw [State.publishes, State.publishes, vparams, vloader, keeps.loader]
  have vsignal : v.signal = w.signal := by simp [← hv]
  have vlink : v.link = w.link := by simp [← hv]
  have vsched : v.sched = w.sched := by simp [← hv]
  have vtimer : v.timer = { w.timer with number := m, completed := 0 } := by simp [← hv]
  rw [countEpochs_eq]
  constructor <;> simp only []
  case loader => exact vloader.trans keeps.loader
  case timer => rw [vtimer, keeps.timer]
  case modulator => rw [← keeps.modulator]; simp [← hv]
  case pins => simp [← hv]
  case cuts => rw [← leave.cuts]; simp [← hv]
  case sense => rw [← leave.sense]; simp [← hv]
  case budget => rw [show v.budget = w.budget by simp [← hv], leave.budget]
  case diag => rw [show v.diag = w.diag by simp [← hv], keeps.diag]
  case table => rw [vsignal, vparams, vtimer, keeps.table, leave.inputs]
  case pubCount => rw [vpublishes, vsignal, pub]; split_ifs <;> simp_all
  case link => rw [vlink]; exact (congrArg (fun l : LinkController => { l with silence := s.link.silence }) keeps.link :)
  case silence => rw [vlink, keeps.silence]
  case markSlot => rw [vlink]; exact keeps.markSlot
  case behindMark => rw [vlink]; exact keeps.behindMark
  case isolated => rw [vlink]; exact keeps.isolated
  case peers =>
    intro p
    refine ⟨w.peer p, keeps.peers p, ?_⟩
    rw [peer_congr (s := v.mapPeers PeerEntry.grow) (by simp only []), State.mapPeers_peer, ← hv]
    simp
  case entries =>
    have standing := keeps.entries
    simp only [State.standingEntries] at standing ⊢
    rw [show v.reservations = w.reservations by simp [← hv], ← standing_lowered, standing, standing_lowered]
  case listen => rw [vsched, keeps.listen]
  case deferral => rw [vsched, leave.deferral]
  case ch =>
    intro c
    rw [ch_congr (s := v.mapCh fun _ x => x.countEpoch) (by simp only []), State.mapCh_ch, ← channel, ← hv]
    simp

/-- The announce hold of the head: that of the channels in INRUSH, before their counts or after (R149, log entry 5). -/
theorem begun_announceHold : (s.begun m charge first).sched.announceHold =
    if first = true then (settleWaits s).surgeHold else (s.begun m charge first).surgeHold := by
  have head (u : State) (first : Bool) : (countEpochs first u).sched.announceHold =
      if first = true then u.surgeHold else (countEpochs first u).surgeHold := by
    rw [countEpochs_eq]
    simp only []
    split
    · rfl
    · exact (surgeHold_congr (fun c => cfg_congr (by simp) c) fun c => ch_congr (by simp only []) c).symm
  unfold State.begun
  simp only []
  rw [head]
  generalize settleWaits s = w
  split
  · exact surgeHold_congr (fun c => cfg_congr (by simp) c) fun c => by simp
  · rfl

end

end Sys2Proof.Machine


/-! What an epoch start makes of the measurement, the supply and the figures (R31, R45, R62, R117, R128). -/

namespace Sys2Proof.Machine

section
variable {n : Nat} {k : ChannelConfig} {g : Prospect} {p q : Spot}

/-- Once closed, the measurement stands. -/
theorem Undergoes.measurement (h : Undergoes n k g p q) (closed : .taken .closeMeasurement ∈ p.done) :
    q.now.measurement = p.now.measurement := by
  have both : .taken .closeMeasurement ∈ q.done ∧ q.now.measurement = p.now.measurement := by
    refine h.keeps (P := fun q => .taken .closeMeasurement ∈ q.done ∧ q.now.measurement = p.now.measurement)
      (fun u v last ⟨closed, same⟩ => ?_) ⟨closed, rfl⟩
    rcases last.stands with ⟨stands, iff⟩ | ⟨early, -⟩
    · exact ⟨iff.mpr closed, stands.measurement.trans same⟩
    · exact absurd closed early
  exact both.2

end

/-! ### The Sense Unit -/

theorem runTask_sense {t : EpochTask} (n : Nat) (din : DinLevels) (s : State) (hs : t ≠ .supplyTest) (hc : t ≠ .closeMeasurement)
    (hb : t ≠ .budget) (ha : t ≠ .admission) : (runTask n din t s).sense = s.sense := by
  cases t with
  | supplyTest => exact absurd rfl hs
  | closeMeasurement => exact absurd rfl hc
  | budget => exact absurd rfl hb
  | admission => exact absurd rfl ha
  | loadDuties | readInputs | signals | windowEnds | retries | attemptResets =>
    exact (runTask_sameFigures rfl n din s).sense
  | peerPresence | holdRemovals => simp [runTask, peerPresence, removeRunOut]
  | publication => exact (ite_kept (publish_kept s)).sense
  | isolation =>
    simp only [runTask, isolationDue]
    split <;> rfl

section
variable {n : Nat} {din : DinLevels} {r : Ruling} {p q : Point}

/-- A step closes the measurement, tests the supply, or leaves the Sense Unit and the cut causes. -/
theorem Takes.sense (h : Takes n din r p q) :
    ((q.state.sense = p.state.sense ∧ q.state.cuts = p.state.cuts) ∧
      (.taken .closeMeasurement ∈ q.done ↔ .taken .closeMeasurement ∈ p.done) ∧
      (.taken .supplyTest ∈ q.done ↔ .taken .supplyTest ∈ p.done)) ∨
    (.taken .closeMeasurement ∉ p.done ∧ q.done = .taken .closeMeasurement :: p.done ∧ q.state = closeMeasurement n p.state) ∨
    (.taken .supplyTest ∉ p.done ∧ q.done = .taken .supplyTest :: p.done ∧ q.state = testSupply n p.state) := by
  have kept {s t : State} (h : s.KeptByParts t) : t.sense = s.sense ∧ t.cuts = s.cuts := ⟨h.sense, h.cuts⟩
  cases h with
  | @part D K s t hb ha once =>
    by_cases hc : t = .closeMeasurement
    · subst hc
      exact .inr (.inl ⟨once (by decide), rfl, rfl⟩)
    by_cases hs : t = .supplyTest
    · subst hs
      exact .inr (.inr ⟨once (by decide), rfl, rfl⟩)
    · refine .inl ⟨⟨runTask_sense n din s hs hc hb ha, (runTask_sameSupply n din s hs hb ha).2.2⟩, ?_⟩
      simp [Ne.symm hc, Ne.symm hs]
  | forms | shares | settles | idles => exact .inl ⟨⟨rfl, rfl⟩, by simp⟩
  | holds => exact .inl ⟨⟨rfl, rfl⟩, by simp⟩
  | status => exact .inl ⟨kept (handOver_kept _ (by simp [Frame.slot])), by simp⟩
  | sheds c reason => exact .inl ⟨kept (shed_kept c _ reason), by simp⟩
  | throttles c cap => exact .inl ⟨kept (throttle_kept c _ cap), by simp⟩
  | raises c by_ => exact .inl ⟨kept (capRaise_kept c _ by_), by simp⟩
  | restores c => exact .inl ⟨kept (restore_kept c _), by simp⟩
  | grants x => exact .inl ⟨kept (grant_kept x.chan _), by simp⟩
  | refuses x => exact .inl ⟨by rw [refuse_talks x _]; exact ⟨rfl, rfl⟩, by simp⟩
  | selects => exact .inl ⟨by rw [select_talks _]; exact ⟨rfl, rfl⟩, by simp⟩

/-- The draws held are those of the channels (R45). -/
def State.DrawsHeld (s : State) : Prop := ∀ k, s.sense.draws.get k = s.classDraw k

theorem classDraw_congr {s t : State} (cfg : ∀ c, t.cfg c = s.cfg c) (same : ∀ c, (t.ch c).measurement = (s.ch c).measurement)
    (k : Cls) : t.classDraw k = s.classDraw k := by
  have closed (c : Chan) : (t.ch c).closedMarker = (s.ch c).closedMarker :=
    congrArg (fun x : Nat × Option PendingTerm × Nat × Bool => x.2.2.2) (same c)
  have draw (c : Chan) : (t.ch c).epochDraw = (s.ch c).epochDraw :=
    congrArg (fun x : Nat × Option PendingTerm × Nat × Bool => x.2.2.1) (same c)
  simp only [State.classDraw, cfg, closed, draw]

theorem closeMeasurement_drawsHeld (n : Nat) (s : State) : (closeMeasurement n s).DrawsHeld := by
  intro k
  have same : (closeMeasurement n s).classDraw k = (s.mapCh fun _ x => x.closeEpoch n).classDraw k :=
    classDraw_congr (fun c => by simp [closeMeasurement]) (fun c => by simp [closeMeasurement]) k
  rw [same]
  fin_cases k <;> rfl

theorem State.DrawsHeld.congr {s t : State} (h : s.DrawsHeld) (sense : t.sense.draws = s.sense.draws) (cfg : ∀ c, t.cfg c = s.cfg c)
    (same : ∀ c, (t.ch c).measurement = (s.ch c).measurement) : t.DrawsHeld := fun k => by
  rw [sense, h k, classDraw_congr cfg same]

/-- How the Sense Unit stands at a point of an epoch start that began in `s`. -/
structure Sensed (n : Nat) (s : State) (p : Point) : Prop where
  pending : p.state.sense.pendingSupply = s.sense.pendingSupply
  draws : .taken .closeMeasurement ∈ p.done → p.state.DrawsHeld
  before : .taken .supplyTest ∉ p.done → s.SameSupply p.state
  after : .taken .supplyTest ∈ p.done →
    p.state.sense.supply = supplyAfterMean s.sense.supply (s.sense.supplySum / n) s.params.vLow s.params.vCut ∧
    p.state.sense.supplySum = 0 ∧
    (s.sense.supply = .cut → p.state.sense.supply ≠ .cut → p.state.cuts.supply = false)

theorem testSupply_sense (n : Nat) (s : State) : (testSupply n s).sense =
    { s.sense with supply := supplyAfterMean s.sense.supply (s.sense.supplySum / n) s.params.vLow s.params.vCut, supplySum := 0 } := by
  unfold testSupply
  simp only []
  split
  · exact sense_of_blank (setSupplyCause_blank _ _)
  · rfl

theorem testSupply_cuts {n : Nat} {s : State} (was : s.sense.supply = .cut) (ends : (testSupply n s).sense.supply ≠ .cut) :
    (testSupply n s).cuts.supply = false := by
  rw [testSupply_sense] at ends
  unfold testSupply
  simp only [was] at ends ⊢
  rw [if_pos (by simpa using ends), setSupplyCause, (changeCauses_kept _ _).cuts]
  rfl

variable {s : State}

theorem Sensed.start (n : Nat) (s : State) : Sensed n s ⟨[], [], s⟩ where
  pending := rfl
  draws := nofun
  before _ := .refl s
  after := nofun

theorem Sensed.takes (h : Sensed n s p) (foresees : Foresees n din s p) (g : Takes n din r p q) : Sensed n s q := by
  have measured (c : Chan) (closed : .taken .closeMeasurement ∈ p.done) : (q.state.ch c).measurement = (p.state.ch c).measurement :=
    (g.undergoes c foresees).measurement closed
  have drawn (sense : q.state.sense.draws = p.state.sense.draws) (closed : .taken .closeMeasurement ∈ p.done) : q.state.DrawsHeld :=
    (h.draws closed).congr sense (cfg_congr g.loader) fun c => measured c closed
  rcases g.sense with ⟨⟨sense, cuts⟩, closed, tested⟩ | ⟨-, done, e⟩ | ⟨early, done, e⟩
  · refine ⟨sense ▸ h.pending, fun is => drawn (by rw [sense]) (closed.mp is), fun late => ?_, fun is => ?_⟩
    · obtain ⟨supply, sum, same⟩ := h.before (mt tested.mpr late)
      exact ⟨sense ▸ supply, sense ▸ sum, cuts.trans same⟩
    · rw [sense, cuts]
      exact h.after (tested.mp is)
  · refine ⟨by rw [e]; exact h.pending, fun _ => e ▸ closeMeasurement_drawsHeld n _, fun late => ?_, fun is => ?_⟩
    · obtain ⟨supply, sum, same⟩ := h.before fun is => late (g.done_subset is)
      obtain ⟨supply', sum', same'⟩ := g.sameSupply late
      exact ⟨supply'.trans supply, sum'.trans sum, same'.trans same⟩
    · rw [e]
      exact h.after (by rw [done] at is; simpa using is)
  · obtain ⟨supply, sum, -⟩ := h.before early
    have sense := testSupply_sense n p.state
    rw [← e] at sense
    refine ⟨by rw [sense]; exact h.pending, fun is => drawn (by rw [sense]) (by rw [done] at is; simpa using is), fun late => ?_, fun _ => ?_⟩
    · exact absurd (by rw [done]; exact List.mem_cons_self) late
    · refine ⟨by rw [sense, supply, sum, params_congr foresees.loader], by rw [sense], fun was ends => ?_⟩
      rw [e] at ends ⊢
      exact testSupply_cuts (supply.trans was) ends

end

end Sys2Proof.Machine


namespace Sys2Proof.Machine

/-! ### The Budget Unit -/

theorem runTask_budget {t : EpochTask} (n : Nat) (din : DinLevels) (s : State) (hb : t ≠ .budget) (ha : t ≠ .admission) :
    (runTask n din t s).budget = { s.budget with inUse := (runTask n din t s).budget.inUse } := by
  have kept {u : State} (h : u.budget = s.budget) : u.budget = { s.budget with inUse := u.budget.inUse } := by rw [h]
  cases t with
  | budget => exact absurd rfl hb
  | admission => exact absurd rfl ha
  | loadDuties | readInputs | signals | windowEnds | retries | attemptResets =>
    exact kept (runTask_sameFigures rfl n din s).budget
  | closeMeasurement => exact kept (by simp [runTask, closeMeasurement])
  | supplyTest =>
    refine kept ?_
    simp only [runTask, testSupply]
    split
    · exact (budget_of_blank (setSupplyCause_blank _ _)).trans rfl
    · rfl
  | peerPresence | holdRemovals => exact kept (by simp [runTask, peerPresence, removeRunOut])
  | publication => exact kept (ite_kept (publish_kept s)).budget
  | isolation =>
    simp only [runTask, isolationDue]
    split <;> rfl

section
variable {n : Nat} {din : DinLevels} {r : Ruling} {p q : Point}

/-- A step forms the figures, writes the cuts or the settle count, or leaves the Budget Unit but for the figures in use. -/
theorem Takes.budget (h : Takes n din r p q) :
    (q.state.budget = { p.state.budget with inUse := q.state.budget.inUse } ∧
      (.formed ∈ q.done ↔ .formed ∈ p.done) ∧ (.settled ∈ q.done ↔ .settled ∈ p.done)) ∨
    ((.taken .closeMeasurement ∈ p.done ∧ .taken .supplyTest ∈ p.done ∧ .formed ∉ p.done) ∧ q.done = .formed :: p.done ∧
      q.state = formFigures p.state) ∨
    ((.formed ∈ p.done ∧ .settled ∉ p.done) ∧ q.done = p.done ∧ q.state = shareExcess p.state) ∨
    (.formed ∈ p.done ∧ .settled ∉ p.done) ∧ q.done = .settled :: p.done ∧ ∃ k, q.state = settleTo k p.state ∧
      (0 < p.state.budget.settle → k = p.state.budget.settle - 1) ∧ (p.state.budget.settle = 0 → k = 0 ∨ k = 2) := by
  have kept {s t : State} (h : t.budget = s.budget) : t.budget = { s.budget with inUse := t.budget.inUse } := by rw [h]
  cases h with
  | part t hb ha => exact .inl ⟨runTask_budget n din _ hb ha, by simp⟩
  | forms closed tested once => exact .inr (.inl ⟨⟨closed, tested, once⟩, rfl, rfl⟩)
  | shares formed early => exact .inr (.inr (.inl ⟨⟨formed, early⟩, rfl, rfl⟩))
  | settles k formed once falls rests => exact .inr (.inr (.inr ⟨⟨formed, once⟩, rfl, k, rfl, falls, rests⟩))
  | status => exact .inl ⟨kept (handOver_kept _ (by simp [Frame.slot])).budget, by simp⟩
  | sheds c reason => exact .inl ⟨kept (shed_kept c _ reason).budget, by simp⟩
  | throttles c cap => exact .inl ⟨kept (throttle_kept c _ cap).budget, by simp⟩
  | raises c by_ => exact .inl ⟨kept (capRaise_kept c _ by_).budget, by simp⟩
  | restores c => exact .inl ⟨kept (restore_kept c _).budget, by simp⟩
  | holds | idles => exact .inl ⟨rfl, by simp⟩
  | grants x => exact .inl ⟨kept (grant_kept x.chan _).budget, by simp⟩
  | refuses x => exact .inl ⟨kept (budget_of_blank (refuse_blank x _)), by simp⟩
  | selects => exact .inl ⟨kept (budget_of_blank (select_blank _)), by simp⟩

/-- What the moments of an evaluation need before them. -/
structure Ordered (p : Point) : Prop where
  formed : .formed ∈ p.done → .taken .closeMeasurement ∈ p.done ∧ .taken .supplyTest ∈ p.done
  settled : .settled ∈ p.done → .formed ∈ p.done
  evaluated : .taken .budget ∈ p.done → .settled ∈ p.done

theorem Ordered.start (s : State) : Ordered ⟨[], [], s⟩ := ⟨nofun, nofun, nofun⟩

theorem Ordered.takes (h : Ordered p) (g : Takes n din r p q) : Ordered q := by
  obtain ⟨formed, settled, evaluated⟩ := h
  cases g with
  | part t hb ha =>
    refine ⟨fun is => ?_, fun is => ?_, fun is => ?_⟩
    · exact (formed (by simpa using is)).imp (List.mem_cons_of_mem _) (List.mem_cons_of_mem _)
    · exact List.mem_cons_of_mem _ (settled (by simpa using is))
    · exact List.mem_cons_of_mem _ (evaluated (by simpa [Ne.symm hb] using is))
  | forms closed tested =>
    exact ⟨fun _ => by simp [closed, tested], fun _ => List.mem_cons_self, fun is => by simpa using evaluated (by simpa using is)⟩
  | settles k formed' =>
    exact ⟨fun is => by simpa using formed (by simpa using is), fun _ => by simp [formed'], fun _ => List.mem_cons_self⟩
  | status settled' =>
    exact ⟨fun is => by simpa using formed (by simpa using is), fun is => by simpa using settled (by simpa using is),
      fun _ => by simp [settled']⟩
  | grants | refuses | idles | selects =>
    exact ⟨fun is => by simpa using formed (by simpa using is), fun is => by simpa using settled (by simpa using is),
      fun is => by simpa using evaluated (by simpa using is)⟩
  | shares | sheds | throttles | raises | restores | holds => exact ⟨formed, settled, evaluated⟩

/-- How the Budget Unit stands at a point of an epoch start that began in `s`: with the settle count as R128 moves it, and the event as
it was formed in a state `u`. -/
structure Figured (s : State) (p : Point) : Prop where
  before : .settled ∉ p.done → p.state.budget.settle = s.budget.settle
  falls : .settled ∈ p.done → 0 < s.budget.settle → p.state.budget.settle = s.budget.settle - 1
  rests : .settled ∈ p.done → s.budget.settle = 0 → p.state.budget.settle = 0 ∨ p.state.budget.settle = 2
  event : .formed ∈ p.done → ∃ u : State, (u.loader = s.loader ∧ u.pins = s.pins ∧ u.sense.draws = p.state.sense.draws) ∧
    (∀ i, (s.peer i).Wanes (u.peer i) ∧ (u.peer i).Wanes (p.state.peer i)) ∧
    p.state.budget.carried = { zone := u.zoneFigures, alone := u.aloneFigures, settle := s.budget.settle, wasAlone := u.alone }

variable {s : State}

theorem Figured.start (s : State) : Figured s ⟨[], [], s⟩ := ⟨fun _ => rfl, nofun, nofun, nofun⟩

theorem Figured.takes (h : Figured s p) (ordered : Ordered p) (keeps : s.EpochKeeps p.state) (g : Takes n din r p q) : Figured s q := by
  have wanes := g.epochKeeps.peers
  have draws (formed : .formed ∈ p.done) : q.state.sense.draws = p.state.sense.draws := by
    rcases g.sense with ⟨⟨sense, -⟩, -⟩ | ⟨early, -⟩ | ⟨-, -, e⟩
    · rw [sense]
    · exact absurd (ordered.formed formed).1 early
    · rw [e, testSupply_sense]
  have event (carried : q.state.budget.carried = p.state.budget.carried) (formed : .formed ∈ p.done) : ∃ u : State,
      (u.loader = s.loader ∧ u.pins = s.pins ∧ u.sense.draws = q.state.sense.draws) ∧
      (∀ i, (s.peer i).Wanes (u.peer i) ∧ (u.peer i).Wanes (q.state.peer i)) ∧
      q.state.budget.carried = { zone := u.zoneFigures, alone := u.aloneFigures, settle := s.budget.settle, wasAlone := u.alone } := by
    obtain ⟨u, ⟨loader, pins, same⟩, peers, e⟩ := h.event formed
    exact ⟨u, ⟨loader, pins, same.trans (draws formed).symm⟩, fun i => (peers i).imp_right (·.trans (wanes i)), carried.trans e⟩
  rcases g.budget with ⟨e, formed, settled⟩ | ⟨⟨-, -, early⟩, done, e⟩ | ⟨⟨formed, early⟩, done, e⟩ | ⟨⟨formed, early⟩, done, k, e, falls, rests⟩
  · have settle : q.state.budget.settle = p.state.budget.settle := by rw [e]
    refine ⟨fun late => settle.trans (h.before (mt settled.mpr late)), fun is runs => ?_, fun is rests => ?_, fun is => ?_⟩
    · rw [settle, h.falls (settled.mp is) runs]
    · rw [settle]
      exact h.rests (settled.mp is) rests
    · exact event (by rw [e]) (formed.mp is)
  · have settle : q.state.budget.settle = p.state.budget.settle := by rw [e]; rfl
    have notYet : .settled ∉ p.done := mt ordered.settled early
    have late : .settled ∉ q.done := by rw [done]; simpa using notYet
    refine ⟨fun _ => settle.trans (h.before notYet), fun is => absurd is late, fun is => absurd is late, fun _ => ?_⟩
    refine ⟨p.state, ⟨keeps.loader, keeps.pins, by rw [e]; rfl⟩, fun i => ⟨keeps.peers i, wanes i⟩, ?_⟩
    rw [e, ← h.before notYet]
    rfl
  · have settle : q.state.budget.settle = p.state.budget.settle := by rw [e]; rfl
    rw [← done] at early formed
    exact ⟨fun _ => settle.trans (h.before (done ▸ early)), fun is => absurd is early, fun is => absurd is early,
      fun _ => event (by rw [e]; rfl) (done ▸ formed)⟩
  · have settle : q.state.budget.settle = k := by rw [e]; rfl
    have was := h.before early
    refine ⟨fun late => absurd (by rw [done]; exact List.mem_cons_self) late, fun _ runs => ?_, fun _ rest => ?_, fun _ => ?_⟩
    · rw [settle, falls (was ▸ runs), was]
    · rw [settle]
      exact rests (was.trans rest)
    · exact event (by rw [e]; rfl) formed

end

end Sys2Proof.Machine


/-! The direct inputs, the levels and the publication count through an epoch start (R32, R73–R75). -/

namespace Sys2Proof.Machine

section
variable {n : Nat} {k : ChannelConfig} {g : Prospect} {p q : Spot}

/-- A demand level moves with a resolution or a reading of the inputs alone (R73, R74). -/
theorem Befalls.demandLevel (h : Befalls n k g p q) : q.now.demandLevel = p.now.demandLevel ∨
    (.taken .signals ∉ p.done ∧ .taken .signals ∈ q.done) ∨ .taken .readInputs ∉ p.done ∧ .taken .readInputs ∈ q.done := by
  cases h with
  | resolves level once => exact .inr (.inl ⟨once, List.mem_cons_self⟩)
  | reads level once => exact .inr (.inr ⟨once, List.mem_cons_self⟩)
  | notes | ignores | forgives | caps | expires | passes | stalls | sheds | grants | closes | loads | rests | stays => exact .inl rfl
  | retries | restores => exact .inl (Channel.wanted_demandLevel _ k)
  | @freed D b x =>
    refine .inl ?_
    rcases x.retaken_cases k with e | e | e <;> rw [e] <;> rfl

theorem Undergoes.done_subset (h : Undergoes n k g p q) : p.done ⊆ q.done := by
  induction h with
  | refl => exact List.Subset.refl _
  | tail _ last ih => exact fun _ is => last.done_subset (ih is)

theorem Undergoes.demandLevel (h : Undergoes n k g p q) : q.now.demandLevel = p.now.demandLevel ∨
    (.taken .signals ∉ p.done ∧ .taken .signals ∈ q.done) ∨ .taken .readInputs ∉ p.done ∧ .taken .readInputs ∈ q.done := by
  induction h with
  | refl => exact .inl rfl
  | tail run last ih =>
    rcases ih with same | ⟨early, late⟩ | ⟨early, late⟩
    · rcases last.demandLevel with e | ⟨early, late⟩ | ⟨early, late⟩
      · exact .inl (e.trans same)
      · exact .inr (.inl ⟨fun is => early (Undergoes.done_subset run is), late⟩)
      · exact .inr (.inr ⟨fun is => early (Undergoes.done_subset run is), late⟩)
    · exact .inr (.inl ⟨early, last.done_subset late⟩)
    · exact .inr (.inr ⟨early, last.done_subset late⟩)

end

section
variable {n : Nat} {din : DinLevels} {r : Ruling} {p q : Point}

/-- A publication that is due (R75). -/
theorem periodicPublication_pubCount (s : State) : (periodicPublication s).signal.pubCount = s.signal.pubCount ∨
    s.publishes = true ∧ s.signal.pubCount = 8 ∧ (periodicPublication s).signal.pubCount = 0 := by
  unfold periodicPublication
  split
  next due =>
    cases silent : s.publishes with
    | true =>
      rw [publish_of_publishes s silent]
      exact .inr ⟨rfl, due, rfl⟩
    | false =>
      rw [publish_of_silent s silent]
      exact .inl rfl
  next => exact .inl rfl

theorem runTask_pubCount {t : EpochTask} (n : Nat) (din : DinLevels) (s : State) (hr : t ≠ .readInputs) (hb : t ≠ .budget)
    (ha : t ≠ .admission) : (runTask n din t s).signal.pubCount = s.signal.pubCount ∨
      s.publishes = true ∧ s.signal.pubCount = 8 ∧ (runTask n din t s).signal.pubCount = 0 := by
  have blank {u : State} (h : u.signal = s.signal) {P : Prop} : u.signal.pubCount = s.signal.pubCount ∨ P := by
    rw [h]
    exact .inl rfl
  cases t with
  | readInputs => exact absurd rfl hr
  | budget => exact absurd rfl hb
  | admission => exact absurd rfl ha
  | loadDuties => exact blank (signal_of_blank (loadDuties_blank s) :)
  | signals =>
    simp only [runTask, resolveAll]
    exact blank (signal_of_blank (resolve_blank _ s) :)
  | windowEnds =>
    have same : (windowEnds s).signal = s.signal := signal_of_blank (forChans_blank windowEnd_blank s)
    simp only [runTask, same, true_or]
  | retries =>
    have same : (retries s).signal = s.signal := signal_of_blank (forChans_blank retryDue_blank s)
    simp only [runTask, same, true_or]
  | attemptResets =>
    have same : (attemptResets s).signal = s.signal := signal_of_blank (forChans_blank attemptReset_blank s)
    simp only [runTask, same, true_or]
  | closeMeasurement => exact .inl (by simp [runTask, closeMeasurement])
  | supplyTest =>
    refine .inl ?_
    simp only [runTask, testSupply]
    split
    · rw [signal_of_blank (setSupplyCause_blank _ _)]
      rfl
    · rfl
  | peerPresence | holdRemovals => exact .inl (by simp [runTask, peerPresence, removeRunOut])
  | publication => exact periodicPublication_pubCount s
  | isolation =>
    refine .inl ?_
    simp only [runTask, isolationDue]
    split <;> rfl

/-- A step reads the inputs, or leaves them, the publication count going back where it is due. -/
theorem Takes.reads (h : Takes n din r p q) :
    ((.taken .readInputs ∈ q.done ↔ .taken .readInputs ∈ p.done) ∧ q.state.signal.inputs = p.state.signal.inputs ∧
      (q.state.signal.pubCount = p.state.signal.pubCount ∨
        p.state.publishes = true ∧ p.state.signal.pubCount = 8 ∧ q.state.signal.pubCount = 0)) ∨
    .taken .readInputs ∉ p.done ∧ q.done = .taken .readInputs :: p.done ∧ q.state = readInputs din p.state := by
  have kept {s t : State} (h : t.blank = s.blank) {P : Prop} :
      t.signal.inputs = s.signal.inputs ∧ (t.signal.pubCount = s.signal.pubCount ∨ P) := by
    rw [signal_of_blank h]
    exact ⟨rfl, .inl rfl⟩
  cases h with
  | @part D K s t hb ha once =>
    by_cases hr : t = .readInputs
    · subst hr
      exact .inr ⟨once (by decide), rfl, rfl⟩
    · exact .inl ⟨by simp [Ne.symm hr], runTask_inputs n din s hr hb ha, runTask_pubCount n din s hr hb ha⟩
  | forms | shares | settles | status | idles => exact .inl ⟨by simp, rfl, .inl rfl⟩
  | sheds c reason => exact .inl ⟨Iff.rfl, kept (shed_blank c reason _)⟩
  | throttles c cap => exact .inl ⟨Iff.rfl, kept (throttle_blank c cap _)⟩
  | raises c by_ => exact .inl ⟨Iff.rfl, kept (capRaise_blank c by_ _)⟩
  | restores c => exact .inl ⟨Iff.rfl, kept (restore_blank c _)⟩
  | holds x => exact .inl ⟨Iff.rfl, kept (holdClaim_blank x _)⟩
  | grants x => exact .inl ⟨by simp, kept (grant_blank x.chan _)⟩
  | refuses x => exact .inl ⟨by simp, kept (refuse_blank x _)⟩
  | selects => exact .inl ⟨by simp, kept (select_blank _)⟩

theorem readInputs_pubCount (s : State) (din : DinLevels) : (readInputs din s).signal.pubCount =
    if s.publishes = true ∧ din ≠ s.signal.inputs then 0 else s.signal.pubCount := by
  by_cases same : din = s.signal.inputs
  · rw [readInputs_of_eq same, if_neg fun h => h.2 same]
  · cases publishes : s.publishes with
    | true => rw [if_pos ⟨rfl, same⟩, (readInputs_publishes same publishes).1]
    | false =>
      obtain ⟨test, -, e⟩ := readInputs_of_ne same
      have blank := resolve_blank test (s.setSignal { s.signal with inputs := din })
      rw [e, publish_of_silent, signal_of_blank blank]
      · simp
      · rw [← publishes, State.publishes, State.publishes, params_congr (loader_of_blank blank), loader_of_blank blank]
        rfl

theorem Takes.resolves (h : Takes n din r p q) : (.taken .signals ∈ q.done ↔ .taken .signals ∈ p.done) ∨
    .taken .signals ∉ p.done ∧ q.state = resolveAll p.state := by
  cases h with
  | @part D K s t hb ha once =>
    by_cases hs : t = .signals
    · subst hs
      exact .inr ⟨once (by decide), by simp only [runTask]⟩
    · exact .inl (by simp [Ne.symm hs])
  | _ => exact .inl (by simp)

/-- A step but the resolution and the reading of the inputs leaves the levels held and what makes them. -/
theorem Takes.level (g : Takes n din r p q) (inputs : q.state.signal.inputs = p.state.signal.inputs) (c : Chan) : q.state.level c = p.state.level c :=
  level_congr g.loader g.epochKeeps.table fun _ _ _ => by rw [inputs]

/-- How the inputs, the levels and the publication count stand at a point of an epoch start that began in `s`. -/
structure Heeded (din : DinLevels) (s : State) (p : Point) : Prop where
  inputs : .taken .readInputs ∈ p.done → p.state.signal.inputs = din
  levels : .taken .signals ∈ p.done → ∀ c, (s.cfg c).enabled = true → (p.state.ch c).demandLevel = p.state.level c
  silent : s.publishes = false → p.state.signal.pubCount = s.signal.pubCount
  changed : s.publishes = true → din ≠ s.signal.inputs → .taken .readInputs ∈ p.done → p.state.signal.pubCount = 0
  still : s.publishes = true → din = s.signal.inputs →
    p.state.signal.pubCount = s.signal.pubCount ∨ s.signal.pubCount = 8 ∧ p.state.signal.pubCount = 0

variable {s : State}

theorem Heeded.start (din : DinLevels) (s : State) : Heeded din s ⟨[], [], s⟩ := ⟨nofun, nofun, fun _ => rfl, nofun, fun _ _ => .inl rfl⟩

theorem Heeded.takes (h : Heeded din s p) (foresees : Foresees n din s p) (g : Takes n din r p q) : Heeded din s q := by
  have cfg (c : Chan) : p.state.cfg c = s.cfg c := cfg_congr foresees.loader c
  have publishes : p.state.publishes = s.publishes := by
    rw [State.publishes, State.publishes, params_congr foresees.loader, foresees.loader]
  rcases g.reads with ⟨read, inputs, pub⟩ | ⟨early, done, e⟩
  · refine ⟨fun is => inputs.trans (h.inputs (read.mp is)), fun is c enabled => ?_, fun silent => ?_, fun loud moved is => ?_, fun loud same => ?_⟩
    · have level := g.level inputs c
      rcases g.resolves with resolved | ⟨-, e⟩
      · rcases (g.undergoes c foresees).demandLevel with same | ⟨early, late⟩ | ⟨early, late⟩
        · exact (same.trans (h.levels (resolved.mp is) c enabled)).trans level.symm
        · exact absurd (resolved.mp late) early
        · exact absurd (read.mp late) early
      · rw [level, e, resolveAll_ch, if_pos (by rw [cfg]; exact enabled), Channel.resolvedTo_demandLevel]
    · rcases pub with e | ⟨loud, -⟩
      · exact e.trans (h.silent silent)
      · exact absurd (publishes.symm.trans loud) (by simp [silent])
    · have zero := h.changed loud moved (read.mp is)
      rcases pub with e | ⟨-, -, e⟩
      · exact e.trans zero
      · exact e
    · rcases pub with e | ⟨-, eight, e⟩
      · rw [e]
        exact h.still loud same
      · refine .inr ⟨?_, e⟩
        rcases h.still loud same with e | ⟨-, e⟩
        · exact e.symm.trans eight
        · cases e.symm.trans eight
  · have signals : .taken .signals ∈ q.done ↔ .taken .signals ∈ p.done := by simp [done]
    have was := foresees.inputs early
    have count := readInputs_pubCount p.state din
    rw [← e, publishes, was] at count
    refine ⟨fun _ => ?_, fun is c enabled => ?_, fun silent => ?_, fun loud moved _ => ?_, fun loud same => ?_⟩
    · rw [e, readInputs_inputs]
    · have settled := h.levels (signals.mp is) c enabled
      rw [e]
      by_cases moves : p.state.InputMoves din c
      · exact (settled_of_moves moves).held
      · rw [readInputs_ch_of_not_moves moves, readInputs_level_of_not_moves (by rw [cfg]; exact enabled) moves, settled]
    · rw [count, if_neg (by simp [silent])]
      exact h.silent silent
    · rw [count, if_pos ⟨loud, moved⟩]
    · rw [count, if_neg fun h => h.2 same]
      exact h.still loud same

end

end Sys2Proof.Machine


/-! What an epoch start makes of the announce hold (R149, log entry 5), and of the STATUS in its slot (R88, R132). Both follow the changes
of state: what each of them and what moves beside them keeps, every step of an epoch start keeps. -/

namespace Sys2Proof.Machine

/-! ### The STATUS in its slot -/

/-- The slot of the STATUS, and what stands behind it while it is on the line, are as they were. -/
structure LinkController.StatusStands (l m : LinkController) : Prop where
  onLine : m.onLine = l.onLine := by rfl
  slot : m.slots.status = l.slots.status := by rfl
  behind : l.onLine = some .status → m.heldAside = l.heldAside := by exact fun _ => rfl

section
variable {l m n : LinkController}

theorem LinkController.StatusStands.trans (h : l.StatusStands m) (g : m.StatusStands n) : l.StatusStands n where
  onLine := g.onLine.trans h.onLine
  slot := g.slot.trans h.slot
  behind on := (g.behind (h.onLine.trans on)).trans (h.behind on)

variable (l)

theorem LinkController.setSlot_statusStands {x : Slot} (hx : x ≠ .status) (f : Option Frame) : l.StatusStands (l.setSlot x f) := by
  cases x with
  | status => exact absurd rfl hx
  | reserve ty | release ty => cases ty <;> exact {}
  | mark | signal | report => exact {}

theorem LinkController.place_statusStands {f : Frame} (hf : f.slot ≠ .status) : l.StatusStands (l.place f) := by
  unfold LinkController.place
  split
  next on => exact { behind := fun is => absurd (Option.some.inj (on.symm.trans is)) hf }
  next => exact l.setSlot_statusStands hf _

theorem LinkController.placeReserve_statusStands (ty : ResType) {f : Frame} (hf : f.slot ≠ .status) :
    l.StatusStands (l.placeReserve ty f) := by
  have dropped : l.StatusStands (l.dropRelease ty) := by
    unfold LinkController.dropRelease
    split
    next on => exact { behind := fun is => nomatch on.symm.trans is }
    next => exact l.setSlot_statusStands (by simp) _
  exact dropped.trans (LinkController.place_statusStands _ hf)

theorem LinkController.placeRelease_statusStands (ty : ResType) {f : Frame} (hf : f.slot ≠ .status) :
    l.StatusStands (l.placeRelease ty f) := by
  have cleared := l.setSlot_statusStands (x := .reserve ty) (by simp) none
  simp only [LinkController.placeRelease]
  split_ifs
  · exact cleared.trans (LinkController.place_statusStands _ hf)
  · exact cleared
  · exact l.place_statusStands hf

/-- A hand-over of another frame leaves the STATUS (R88, R90). -/
theorem LinkController.handOver_statusStands {f : Frame} (hf : f.slot ≠ .status) : l.StatusStands (l.handOver f) := by
  unfold LinkController.handOver
  split
  · exact {}
  · split
    · exact l.placeReserve_statusStands _ hf
    · exact l.placeRelease_statusStands _ hf
    · exact l.place_statusStands hf

theorem LinkController.reserve_statusStands (ty : ResType) (cls : Cls) (c : Chan) (amount hold : Nat) :
    l.StatusStands (l.handOver (.reserve ty cls c amount hold)) := l.handOver_statusStands (by simp [Frame.slot])

theorem LinkController.release_statusStands (ty : ResType) (c : Chan) : l.StatusStands (l.handOver (.release ty c)) :=
  l.handOver_statusStands (by simp [Frame.slot])

theorem LinkController.signal_statusStands (din : DinLevels) : l.StatusStands (l.handOver (.signal din)) :=
  l.handOver_statusStands (by simp [Frame.slot])

theorem LinkController.withdraw_statusStands {x : Slot} (hx : x ≠ .status) : l.StatusStands (l.withdraw x) := by
  unfold LinkController.withdraw
  split
  next on => exact { behind := fun is => absurd (Option.some.inj (on.symm.trans is)) hx }
  next => exact l.setSlot_statusStands hx _

end

/-- Neither the states and window counts of the channels, nor the claim, the deferral count and the announce hold, nor the STATUS in its
slot have moved. -/
structure State.Calm (s t : State) : Prop where
  cfg : ∀ c, t.cfg c = s.cfg c := by exact fun _ => rfl
  state : ∀ c, (t.ch c).state = (s.ch c).state := by exact fun _ => rfl
  remaining : ∀ c, (t.ch c).inrushRemaining = (s.ch c).inrushRemaining := by exact fun _ => rfl
  hold : t.sched.announceHold = s.sched.announceHold := by rfl
  claim : t.sched.ordinary = s.sched.ordinary := by rfl
  deferral : t.sched.deferral = s.sched.deferral := by rfl
  link : s.link.StatusStands t.link := by exact {}

/-- The steps by which a STATUS is handed over, or the Scheduler takes or gives up a claim (R132, R141, R145, R146). -/
inductive Decides (r : Ruling) : Point → Point → Prop
  | status {D K s} (settled : .settled ∈ D) (once : .taken .budget ∉ D) :
      Decides r ⟨D, K, s⟩ ⟨.taken .budget :: D, K, s.handOver (.status s.statusContent)⟩
  | holds {D K s} (x : Claim) (hx : s.sched.ordinary = some x) (hp : x.phase = .settling) (admits : s.admits x = true)
      (admitted : r.admitted = some x) (evaluated : .taken .budget ∈ D) (early : .decided ∉ D) :
      Decides r ⟨D, K, s⟩ ⟨D, K, holdClaim x s⟩
  | refuses {D K s} (x : Claim) (hx : s.sched.ordinary = some x) (hp : x.phase = .settling) (fails : s.admits x = false)
      (admitted : r.admitted = none) (evaluated : .taken .budget ∈ D) (early : .decided ∉ D) :
      Decides r ⟨D, K, s⟩ ⟨.decided :: D, K, refuse x s⟩
  | selects {D K s} (decided : .decided ∈ D) (evaluated : .taken .budget ∈ D) (once : .taken .admission ∉ D) :
      Decides r ⟨D, K, s⟩ ⟨.taken .admission :: D, K, select s⟩

/-- A relation that every change of state brings about, and everything beside the states. -/
structure EventsKeep (R : State → State → Prop) : Prop where
  trans : ∀ {s t u}, R s t → R t u → R s u
  enters : ∀ c st r s, R s (enter c st r s)
  calm : ∀ {s t}, s.Calm t → R s t

section
variable {R : State → State → Prop} (keep : EventsKeep R)
include keep

theorem EventsKeep.refl (s : State) : R s s := keep.calm {}

theorem EventsKeep.ite {p : Prop} [Decidable p] {s t : State} (h : R s t) : R s (if p then t else s) := by
  split
  · exact h
  · exact keep.refl s

theorem EventsKeep.forChans {f : Chan → State → State} (h : ∀ c s, R s (f c s)) (s : State) : R s (forChans f s) :=
  List.foldlRecOn allChans (motive := fun t : State => R s t) _ (keep.refl s) fun _ ht c _ => keep.trans ht (h c _)

variable (c : Chan) (s : State)

theorem EventsKeep.updCh {f : Channel → Channel} (state : (f (s.ch c)).state = (s.ch c).state)
    (remaining : (f (s.ch c)).inrushRemaining = (s.ch c).inrushRemaining) : R s (s.updCh c f) := by
  refine keep.calm { cfg := fun d => by simp, state := fun d => ?_, remaining := fun d => ?_ } <;>
  · rw [State.updCh_ch]
    split
    next e => rw [e]; assumption
    next => rfl

theorem EventsKeep.switchOn : R s (switchOn c s) := by
  unfold Machine.switchOn
  split <;> exact keep.enters c _ _ s

theorem EventsKeep.deliver (level : Nat) : R s (deliver c level s) := by
  unfold Machine.deliver
  extract_lets m was is s1 s2 kept
  have taken : R s s2 := keep.trans (t := s1) (keep.updCh c s rfl rfl) (keep.ite (keep.updCh c s1 rfl rfl))
  have recomputed : R s kept := keep.trans taken (keep.updCh c s2 rfl rfl)
  clear_value s2 kept
  split
  · split
    · exact keep.trans taken (keep.switchOn c s2)
    · exact recomputed
  · exact recomputed
  · split
    · exact keep.trans taken (keep.enters c _ _ s2)
    · exact recomputed

theorem EventsKeep.retake : R s (retake c s) := by
  unfold Machine.retake
  exact keep.trans (keep.enters c _ _ s) (keep.ite (keep.switchOn c _))

theorem EventsKeep.trip (k : FaultKind) (current step : Nat) : R s (trip c k current step s) := by
  unfold Machine.trip
  refine keep.ite ?_
  extract_lets d s1
  have taken : R s s1 := keep.updCh c s rfl rfl
  exact keep.trans (t := enter c _ _ s1) (keep.trans taken (keep.enters c _ _ s1)) (keep.calm {})

theorem EventsKeep.windowEnd : R s (windowEnd c s) := by
  unfold Machine.windowEnd
  refine keep.ite ?_
  split
  · split
    · exact keep.trip c s _ _ _
    · exact keep.enters c _ _ s
  · exact keep.enters c _ _ s

theorem EventsKeep.retryDue : R s (retryDue c s) := by
  unfold Machine.retryDue retryAtChannel
  exact keep.ite (keep.trans (keep.updCh c s rfl rfl) (keep.ite (keep.switchOn c _)))

omit c

theorem EventsKeep.publish : R s (publish s) := by
  unfold Machine.publish
  exact keep.ite (keep.calm { link := s.link.signal_statusStands _ })

theorem EventsKeep.resolve (test : Chan → Bool) : R s (resolve test s) := by
  refine keep.forChans (fun c s => keep.ite ?_) s
  unfold resolveOne
  split
  · exact keep.refl s
  · exact keep.deliver c s _

theorem EventsKeep.readInputs (din : DinLevels) : R s (readInputs din s) := by
  by_cases same : din = s.signal.inputs
  · rw [readInputs_of_eq same]
    exact keep.refl s
  · obtain ⟨test, -, e⟩ := readInputs_of_ne same
    rw [e]
    have read : R s (s.setSignal { s.signal with inputs := din }) := keep.calm {}
    exact keep.trans (keep.trans read (keep.resolve _ _)) (keep.publish _)

theorem EventsKeep.testSupply (n : Nat) : R s (testSupply n s) := by
  have set (x : SenseUnit) : R s (s.setSense x) := keep.calm {}
  have caused (x : CutCauses) (u : State) : R u (u.setCauses x) := keep.calm {}
  unfold Machine.testSupply
  simp only []
  split
  · generalize hu : s.setSense _ = u
    refine keep.trans (t := u) (hu ▸ set _) ?_
    simp only [setSupplyCause, changeCauses]
    split_ifs
    · exact keep.trans (caused _ u) (keep.forChans (fun c s => keep.enters c _ _ s) _)
    · exact keep.trans (caused _ u) (keep.forChans (fun c s => keep.ite (keep.retake c s)) _)
    · exact caused _ u
  · exact set _

theorem EventsKeep.runTask {t : EpochTask} (n : Nat) (din : DinLevels) (hb : t ≠ .budget) (ha : t ≠ .admission) :
    R s (runTask n din t s) := by
  cases t with
  | budget => exact absurd rfl hb
  | admission => exact absurd rfl ha
  | loadDuties =>
    simp only [Machine.runTask, loadDuties]
    exact keep.calm { cfg := fun c => by simp, state := fun c => by simp, remaining := fun c => by simp }
  | readInputs => exact keep.readInputs s din
  | closeMeasurement =>
    simp only [Machine.runTask, closeMeasurement]
    exact keep.calm { cfg := fun c => by simp, state := fun c => by simp, remaining := fun c => by simp [Channel.closeEpoch] }
  | supplyTest => exact keep.testSupply s n
  | signals =>
    simp only [Machine.runTask, resolveAll]
    exact keep.resolve s _
  | windowEnds =>
    simp only [Machine.runTask, windowEnds]
    exact keep.forChans keep.windowEnd s
  | retries =>
    simp only [Machine.runTask, retries]
    exact keep.forChans keep.retryDue s
  | attemptResets =>
    simp only [Machine.runTask, attemptResets]
    exact keep.forChans (fun c s => keep.ite (keep.updCh c s rfl rfl)) s
  | peerPresence | holdRemovals =>
    simp only [Machine.runTask, peerPresence, removeRunOut]
    exact keep.calm { cfg := fun c => by simp, state := fun c => by simp, remaining := fun c => by simp }
  | publication => exact keep.ite (keep.publish s)
  | isolation => exact keep.ite (keep.calm {})

variable {n : Nat} {din : DinLevels} {r : Ruling} {p q : Point}

/-- Every step but those of the STATUS and of the Scheduler's own decisions. -/
theorem EventsKeep.takes (h : Takes n din r p q) : R p.state q.state ∨ Decides r p q := by
  cases h with
  | status settled once => exact .inr (.status settled once)
  | holds x hx hp admits admitted evaluated early => exact .inr (.holds x hx hp admits admitted evaluated early)
  | refuses x hx hp fails admitted evaluated early => exact .inr (.refuses x hx hp fails admitted evaluated early)
  | selects decided evaluated once => exact .inr (.selects decided evaluated once)
  | part t hb ha => exact .inl (keep.runTask _ n din hb ha)
  | forms | shares | settles => exact .inl (keep.calm {})
  | idles => exact .inl (keep.refl _)
  | sheds c reason => exact .inl (keep.ite (keep.enters c _ _ _))
  | throttles c cap =>
    unfold throttle
    refine .inl (keep.ite ?_)
    split
    · exact keep.updCh c _ rfl rfl
    · exact keep.enters c _ _ _
  | raises c by_ => exact .inl (keep.ite (keep.updCh c _ rfl rfl))
  | restores c => exact .inl (keep.ite (keep.switchOn c _))
  | grants x => exact .inl (keep.ite (keep.enters x.chan _ _ _))

end

/-! ### What follows the changes of state -/

section
variable (c : Chan) (s : State)

theorem leftQueue_statusStands : s.link.StatusStands (leftQueue c s).link := by
  have released (x : Claim) (u : State) : u.link.StatusStands (releaseClaim x u).link := by
    unfold releaseClaim
    split
    · exact LinkController.release_statusStands _ _ _
    · exact {}
  unfold leftQueue
  simp only []
  split
  · exact {}
  · split
    · split
      · exact LinkController.withdraw_statusStands _ (by simp)
      · exact released _ (s.setQueue (s.sched.queue.filter fun d => d ≠ c))
      · exact released _ (s.setQueue (s.sched.queue.filter fun d => d ≠ c))
    · exact {}

theorem inrushEnded_statusStands : s.link.StatusStands (inrushEnded c s).link := by
  unfold inrushEnded announceLowered surgeOver releaseClaim
  simp only []
  split_ifs
  · exact LinkController.release_statusStands _ _ _
  · exact {}
  · split
    · exact {}
    · split_ifs
      · exact LinkController.release_statusStands _ _ _
      · exact {}
      · exact {}

theorem inrushBegun_statusStands : s.link.StatusStands (inrushBegun c s).link := by
  unfold inrushBegun
  simp only []
  split
  · exact LinkController.reserve_statusStands _ _ _ _ _ _
  · exact {}

theorem enter_statusStands (st : ChState) (r : ShedReason) : s.link.StatusStands (enter c st r s).link := by
  have ite {p : Prop} [Decidable p] {u v : State} (h : u.link.StatusStands v.link) : u.link.StatusStands (if p then v else u).link := by
    split
    · exact h
    · exact {}
  unfold enter notices
  extract_lets s1 s2 s3
  have left : s.link.StatusStands s1.link := ite (u := s.setCh c _) (leftQueue_statusStands c _)
  exact ((left.trans (ite (inrushEnded_statusStands c s1))).trans (ite (u := s2) (v := joined c s2) {})).trans
    (ite (inrushBegun_statusStands c s3))

end

/-- The STATUS in its slot stands through every change of state. -/
theorem statusStands_eventsKeep : EventsKeep fun s t => s.link.StatusStands t.link :=
  ⟨.trans, fun c st r s => enter_statusStands c s st r, State.Calm.link⟩

section
variable {s t u : State}

/-- The announce hold is that of the channels in INRUSH, or neither has moved. -/
def State.HoldFollows (s t : State) : Prop :=
  t.sched.announceHold = t.surgeHold ∨ t.sched.announceHold = s.sched.announceHold ∧ t.surgeHold = s.surgeHold

theorem State.HoldFollows.trans (h : s.HoldFollows t) (g : t.HoldFollows u) : s.HoldFollows u := by
  rcases g with e | ⟨hold, surge⟩
  · exact .inl e
  · rcases h with e | ⟨hold', surge'⟩
    · exact .inl (hold.trans (e.trans surge.symm))
    · exact .inr ⟨hold.trans hold', surge.trans surge'⟩

/-- The hold depends on the class 0 channels in INRUSH alone. -/
theorem surgeHold_of_surging (surging : ∀ c, t.surging c = s.surging c)
    (remaining : ∀ c, s.surging c = true → (t.ch c).inrushRemaining = (s.ch c).inrushRemaining) : t.surgeHold = s.surgeHold := by
  have same : t.surging = s.surging := funext surging
  unfold State.surgeHold
  rw [same]
  refine List.foldl_ext _ _ _ fun h c hc => ?_
  rw [remaining c (List.mem_filter.mp hc).2]

theorem surging_congr {c : Chan} (cfg : t.cfg c = s.cfg c) (state : (t.ch c).state = (s.ch c).state) : t.surging c = s.surging c := by
  simp only [State.surging, cfg, state]

theorem State.Calm.holdFollows (h : s.Calm t) : s.HoldFollows t :=
  .inr ⟨h.hold, surgeHold_of_surging (fun c => surging_congr (h.cfg c) (h.state c)) fun c _ => h.remaining c⟩

theorem enter_holdFollows (c : Chan) (s : State) (st : ChState) (r : ShedReason) : s.HoldFollows (enter c st r s) := by
  have ch (d : Chan) : (enter c st r s).ch d = (s.setCh c ((s.ch c).enter st r (s.cfg c).window)).ch d := by
    rw [enter_ch, State.setCh_ch]
  have cfg (d : Chan) : (enter c st r s).cfg d = s.cfg d := by simp
  have hold := (notices_announce c (s.setCh c ((s.ch c).enter st r (s.cfg c).window)) (s.ch c).state st).2
  rw [State.setCh_cfg] at hold
  by_cases surges : (s.cfg c).cls = 0 ∧ ((s.ch c).state = .inrush ∨ st = .inrush)
  · rw [if_pos surges] at hold
    refine .inl (hold.trans ?_)
    exact (surgeHold_congr (fun d => by rw [cfg, State.setCh_cfg]) ch).symm
  · rw [if_neg surges] at hold
    refine .inr ⟨hold, surgeHold_of_surging (fun d => ?_) fun d surging => ?_⟩
    · by_cases same : d = c
      · subst same
        simp only [State.surging, cfg, ch, State.setCh_ch_self, Channel.enter_state]
        by_cases zero : (s.cfg d).cls = 0
        · simp only [zero, true_and, not_or] at surges
          simp [surges]
        · simp [zero]
      · rw [surging_congr (cfg d) (by rw [enter_ch_ne c d s st r same])]
    · by_cases same : d = c
      · subst same
        simp only [State.surging, Bool.and_eq_true, decide_eq_true_eq] at surging
        exact absurd ⟨surging.1, .inl surging.2⟩ surges
      · rw [enter_ch_ne c d s st r same]

/-- The announce hold follows the channels through every change of state (R149). -/
theorem holdFollows_eventsKeep : EventsKeep State.HoldFollows :=
  ⟨.trans, fun c st r s => enter_holdFollows c s st r, State.Calm.holdFollows⟩

variable {n : Nat} {din : DinLevels} {r : Ruling} {p q : Point}

theorem Decides.keeps (h : Decides r p q) : (∀ c, q.state.ch c = p.state.ch c) ∧ q.state.loader = p.state.loader ∧
    q.state.sched.announceHold = p.state.sched.announceHold := by
  cases h with
  | status | holds => exact ⟨fun _ => rfl, rfl, rfl⟩
  | refuses x =>
    refine ⟨fun c => refuse_ch c x _, refuse_loader x _, ?_⟩
    rw [refuse_eq]
  | @selects D K s =>
    refine ⟨fun c => ch_congr (s := s) (by rw [select_talks s]) c, select_loader _, ?_⟩
    unfold select
    split
    · split
      · simp only []
        split_ifs <;> rfl
      · rfl
    · rfl

/-- All of them but the STATUS itself leave the STATUS in its slot. -/
theorem Decides.statusStands (h : Decides r p q) (done : .taken .budget ∈ p.done) : p.state.link.StatusStands q.state.link := by
  cases h with
  | status settled once => exact absurd done once
  | holds => exact {}
  | refuses x =>
    unfold refuse releaseClaim
    simp only []
    split
    · exact LinkController.release_statusStands _ _ _
    · exact {}
  | selects =>
    unfold select
    split
    · split
      · simp only []
        split_ifs
        · exact LinkController.reserve_statusStands _ _ _ _ _ _
        · exact LinkController.reserve_statusStands _ _ _ _ _ _
        · exact {}
        · exact {}
      · exact {}
    · exact {}

theorem Takes.statusStands (h : Takes n din r p q) (done : .taken .budget ∈ p.done) : p.state.link.StatusStands q.state.link := by
  rcases statusStands_eventsKeep.takes h with stands | decides
  · exact stands
  · exact decides.statusStands done

theorem Takes.holdFollows (h : Takes n din r p q) : p.state.HoldFollows q.state := by
  rcases holdFollows_eventsKeep.takes h with follows | decides
  · exact follows
  · obtain ⟨ch, loader, hold⟩ := decides.keeps
    exact .inr ⟨hold, surgeHold_congr (cfg_congr loader) ch⟩

theorem Reaches.holdFollows (h : Reaches n din r p q) : p.state.HoldFollows q.state :=
  h.relates (fun _ => .inr ⟨rfl, rfl⟩) .trans fun _ _ => Takes.holdFollows

/-! ### The claim -/

/-- No claim is taken: the one there is stays, or is given up. -/
def State.KeepsNone (s t : State) : Prop := ∀ x, t.sched.ordinary = some x → s.sched.ordinary = some x

theorem enter_keepsNone (c : Chan) (s : State) (st : ChState) (r : ShedReason) : s.KeepsNone (enter c st r s) := by
  intro x hx
  rw [enter, notices_ordinary, State.setCh_sched] at hx
  exact (Option.filter_eq_some_iff.mp hx).1

theorem keepsNone_eventsKeep : EventsKeep State.KeepsNone :=
  ⟨fun h g x hx => h x (g x hx), fun c st r s => enter_keepsNone c s st r, fun h _ hx => h.claim ▸ hx⟩

/-- The deferral count moves with a refusal alone (R146). -/
theorem deferral_eventsKeep : EventsKeep fun s t => t.sched.deferral = s.sched.deferral :=
  ⟨fun h g => g.trans h, fun c st r s => (enter_kept c s st r).counts.2.1, State.Calm.deferral⟩

end

end Sys2Proof.Machine


/-! An epoch start at one channel, from the head to the end: its counts, its markers and its duty (R12, R27, R31, R45, R54). -/

namespace Sys2Proof.Machine

section
variable {n : Nat} {x : Channel} {k : ChannelConfig} {e : Nat} {g : Prospect} {q : Spot}

/-- A channel as the parts of an epoch start find it. -/
abbrev Channel.begun (x : Channel) (k : ChannelConfig) (e : Nat) : Channel := (x.settledWaits k e).countEpoch

@[simp] theorem Channel.countEpoch_state (x : Channel) : x.countEpoch.state = x.state := rfl
@[simp] theorem Channel.countEpoch_demandLevel (x : Channel) : x.countEpoch.demandLevel = x.demandLevel := rfl
@[simp] theorem Channel.countEpoch_runningMarker (x : Channel) : x.countEpoch.runningMarker = x.runningMarker := rfl
@[simp] theorem Channel.countEpoch_lastSample (x : Channel) : x.countEpoch.lastSample = x.lastSample := rfl
@[simp] theorem Channel.countEpoch_shadowDuty (x : Channel) : x.countEpoch.shadowDuty = x.shadowDuty := rfl
@[simp] theorem Channel.countEpoch_retryTimer (x : Channel) : x.countEpoch.retryTimer = x.retryTimer.map (· - 1) := rfl

variable (hw : 1 ≤ k.window) (hk : 1 ≤ k.retryBase)
include hk

theorem Channel.begun_demandLevel : (x.begun k e).demandLevel = x.demandLevel := (x.settledWaits_cases k e hk).1

/-- A channel whose waits have not ended keeps its state, and its counts move by 1. -/
theorem Channel.begun_waits (h : ¬(x.state = .inrush ∧ x.inrushRemaining = 0)) (g : ¬(x.state = .tripped ∧ x.retryTimer = some 0)) :
    x.Waits (x.settledWaits k e) := by
  rcases (x.settledWaits_cases k e hk).2 with ⟨ended, -⟩ | ⟨due, -⟩ | ⟨-, waits⟩
  · exact absurd ended h
  · exact absurd due g
  · exact waits

/-- The window count of a channel that ends in INRUSH. -/
theorem Undergoes.begun_remaining (h : Undergoes n k g ⟨[], false, x.begun k e⟩ q) (is : q.now.state = .inrush) :
    q.now.inrushRemaining = k.window ∨
    x.state = .inrush ∧ 1 ≤ x.inrushRemaining ∧ q.now.inrushRemaining = x.inrushRemaining - 1 ∨
    x.state = .tripped ∧ x.retryTimer = some 0 ∧ q.now.inrushRemaining = k.window - 1 := by
  refine h.remaining (N := fun m => m = k.window ∨ x.state = .inrush ∧ 1 ≤ x.inrushRemaining ∧ m = x.inrushRemaining - 1 ∨
    x.state = .tripped ∧ x.retryTimer = some 0 ∧ m = k.window - 1) (.inl rfl) (fun begins => ?_) rfl is
  have counted := Channel.countEpoch_inrush (x.settledWaits k e) begins
  simp only [Channel.begun, Channel.countEpoch_state] at begins ⊢
  rw [counted]
  rcases (x.settledWaits_cases k e hk).2 with ⟨-, other, -⟩ | ⟨⟨tripped, due⟩, rejoined⟩ | ⟨runs, waits⟩
  · rcases other with e | ⟨e, -⟩ | e <;> cases begins.symm.trans e
  · rcases rejoined with ⟨-, whole, -⟩ | other
    · exact .inr (.inr ⟨tripped, due, by rw [whole]⟩)
    · cases begins.symm.trans other
  · have was := waits.state.symm.trans begins
    refine .inr (.inl ⟨was, ?_, by rw [waits.remaining]⟩)
    exact Nat.pos_of_ne_zero fun zero => runs ⟨was, zero⟩

/-- A window that runs on. -/
theorem Undergoes.begun_inrush (still : ¬g.moves) (h : Undergoes n k g ⟨[], false, x.begun k e⟩ q) (was : x.state = .inrush)
    (runs : 2 ≤ x.inrushRemaining) (wants : demandOn k.mode q.now.demandLevel = true) :
    q.now.state = .inrush ∧ q.now.inrushRemaining = x.inrushRemaining - 1 := by
  have waits := Channel.begun_waits hk (x := x) (e := e) (fun h => by omega) (by simp [was])
  have state : (x.settledWaits k e).state = .inrush := waits.state.trans was
  rcases h.stays_inrush still (m := x.inrushRemaining - 1) (level := x.demandLevel) (by omega) (fun _ => Channel.begun_demandLevel hk)
    (.inl ⟨state, by rw [Channel.countEpoch_inrush _ state, waits.remaining]⟩) with stays | ⟨-, -, fell⟩
  · exact stays
  · exact absurd wants (by simp [fell])

/-- A retry timer that runs on. -/
theorem Undergoes.begun_timer (hw : 1 ≤ k.window) (h : Undergoes n k g ⟨[], false, x.begun k e⟩ q) {m : Nat} (timer : x.retryTimer = some (m + 1))
    (was : x.state = .tripped) (is : q.now.state = .tripped) : q.now.retryTimer = some m ∨ m = 0 ∧ q.now.retryTimer = none := by
  have waits := Channel.begun_waits hk (x := x) (e := e) (by simp [was]) (by simp [timer])
  have start : (x.begun k e).retryTimer = some m := by
    rw [Channel.countEpoch_retryTimer, waits.timer (by simp [timer]), timer]
    rfl
  rcases h.stays_tripped hw (m := m) (.inl ⟨waits.state.trans was, .inl start⟩) with ⟨-, stays⟩ | away
  · exact stays
  · exact absurd is away.1

/-- The count of epochs in ON. -/
theorem Undergoes.begun_onEpochs (hw : 1 ≤ k.window) (h : Undergoes n k g ⟨[], false, x.begun k e⟩ q) (was : x.state = .on)
    (is : q.now.state = .on) : q.now.onEpochs = min 50 (x.onEpochs + 1) := by
  have waits := Channel.begun_waits hk (x := x) (e := e) (by simp [was]) (by simp [was])
  have state : (x.settledWaits k e).state = .on := waits.state.trans was
  have start : (x.begun k e).onEpochs = min 50 (x.onEpochs + 1) := by simp [Channel.begun, Channel.countEpoch, state, waits.onEpochs]
  rcases h.stays_on hw (.inl ⟨state, start⟩) with ⟨-, stays⟩ | away
  · exact stays
  · exact absurd is away.1

omit hk in
theorem Undergoes.begun_offEpochs (h : Undergoes n k g ⟨[], false, x.begun k e⟩ q) (off : q.now.state ≠ .on) : q.now.onEpochs = 0 :=
  h.onEpochs (fun off => by simp only [Channel.begun, Channel.countEpoch_state] at off; simp [Channel.begun, Channel.countEpoch, off]) off

/-! ### The markers -/

omit hk in
/-- A channel whose running marker is set is marked for the epoch that closes (R45). -/
theorem Undergoes.begun_measured (h : Undergoes n k g ⟨[], false, x.begun k e⟩ q) (pending : x.pendingTerm = none) :
    Measured n x.drawAcc (x.runningMarker = true) q := by
  have stands : x.Stands (x.settledWaits k e) := by
    unfold Channel.settledWaits
    exact ((x.windowEnded_stands k e).trans (Channel.retriedDue_stands _ k)).trans (Channel.attemptsDue_stands _)
  have same := stands.measurement
  simp only [Channel.measurement, Prod.mk.injEq] at same
  exact h.measured ⟨same.2.1.trans pending, fun _ => ⟨same.1, stands.marker⟩, nofun⟩

/-- Out of INRUSH, and with no demand that falls, no running marker is left. -/
theorem Undergoes.begun_clear (hw : 1 ≤ k.window) (still : ¬g.moves) (h : Undergoes n k g ⟨[], false, x.begun k e⟩ q)
    (closed : .taken .closeMeasurement ∈ q.done) (out : q.now.state ≠ .inrush)
    (stands : ¬(demandOn k.mode x.demandLevel = true ∧ demandOn k.mode q.now.demandLevel = false)) : q.now.runningMarker = false := by
  by_contra set
  rcases h.runningMarker still hw (level := x.demandLevel) (fun _ => Channel.begun_demandLevel hk) nofun closed (by simpa using set) with
    ⟨is, -⟩ | ⟨-, fell⟩
  · exact out is
  · exact stands fell

/-- Nor is one left of a window that ends in this epoch start. -/
theorem Undergoes.begun_spent (still : ¬g.moves) (h : Undergoes n k g ⟨[], false, x.begun k e⟩ q)
    (closed : .taken .closeMeasurement ∈ q.done) (was : x.state = .inrush) (last : x.inrushRemaining = 1) : q.now.runningMarker = false := by
  have waits := Channel.begun_waits hk (x := x) (e := e) (fun h => by omega) (by simp [was])
  have state : (x.settledWaits k e).state = .inrush := waits.state.trans was
  refine (h.spent still hk nofun (.inl ⟨state, ?_⟩)).2 closed
  rw [Channel.countEpoch_inrush _ state, waits.remaining, last]

/-- A channel not marked before the epoch start is not marked for the epoch that closes, unless it ends in INRUSH. -/
theorem Undergoes.begun_unmarked (hw : 1 ≤ k.window) (still : ¬g.moves) (h : Undergoes n k g ⟨[], false, x.begun k e⟩ q)
    (closed : .taken .closeMeasurement ∈ q.done) (out : q.now.state ≠ .inrush)
    (stands : ¬(demandOn k.mode x.demandLevel = true ∧ demandOn k.mode q.now.demandLevel = false)) (clear : x.runningMarker = false)
    (waiting : ¬(x.state = .tripped ∧ x.retryTimer = some 0)) : q.now.closedMarker = false := by
  by_contra set
  have start : (x.begun k e).runningMarker = false := by
    rcases (x.settledWaits_cases k e hk).2 with ⟨-, -, marker⟩ | ⟨due, -⟩ | ⟨-, waits⟩
    · exact marker.trans clear
    · exact absurd due waiting
    · exact waits.markers.trans clear
  rcases h.marked still hw (level := x.demandLevel) (fun _ => Channel.begun_demandLevel hk) nofun start
    ⟨fun early => absurd closed early, fun _ => by simpa using set⟩ with ⟨is, -⟩ | ⟨-, fell⟩
  · exact out is
  · exact stands fell

/-! ### The duty -/

/-- The duty loaded at a channel that keeps its state, its level and its shadow duty (R27). -/
theorem Undergoes.begun_loaded (hw : 1 ≤ k.window) (still : ¬g.moves) (h : Undergoes n k g ⟨[], false, x.begun k e⟩ q)
    (runs : x.state = .inrush → 1 ≤ x.inrushRemaining) (late : .taken .loadDuties ∈ q.done)
    (state : q.now.state = x.state) (level : q.now.demandLevel = x.demandLevel) (shadow : q.now.shadowDuty = x.shadowDuty) :
    q.now.activeDuty = x.shadowDuty := by
  refine h.loaded hw hk still (fun _ => Channel.begun_demandLevel hk) ?_ late state level shadow
  rcases (x.settledWaits_cases k e hk).2 with ⟨⟨is, zero⟩, -⟩ | ⟨⟨tripped, due⟩, rejoined⟩ | ⟨-, waits⟩
  · have := runs is
    omega
  · refine .inr ?_
    rw [tripped]
    rcases rejoined with ⟨is, -, sample⟩ | is
    · exact .inr (.inr (.inr ⟨is, .inr sample⟩))
    · exact .inl is
  · exact .inl ⟨waits.state, Channel.begun_demandLevel hk, fun _ => waits.shadow, nofun⟩

end

/-! ### The announce hold -/

theorem foldl_max_succ {α : Type} {f h : α → Nat} {l : List α} (succ : ∀ a ∈ l, f a = h a + 1) (m : Nat) :
    l.foldl (fun m a => max m (f a)) (m + 1) = l.foldl (fun m a => max m (h a)) m + 1 := by
  induction l generalizing m with
  | nil => rfl
  | cons a rest ih =>
    rw [List.foldl_cons, List.foldl_cons, succ a List.mem_cons_self, show max (m + 1) (h a + 1) = max m (h a) + 1 by omega]
    exact ih (fun b hb => succ b (List.mem_cons_of_mem _ hb)) _

/-- The hold taken before the counts is longer by 1 than the one after, where a channel surges. -/
theorem begun_surgeHold (s : State) (m : Nat) (charge first : Bool) (hw : ∀ c, 1 ≤ (s.cfg c).window) (hk : ∀ c, 1 ≤ (s.cfg c).retryBase) :
    (settleWaits s).surgeHold = (s.begun m charge first).surgeHold ∨
      0 < (s.begun m charge first).surgeHold ∧ (settleWaits s).surgeHold = (s.begun m charge first).surgeHold + 1 := by
  have spec := begun_spec m charge first s
  have wch := settleWaits_ch s
  have wcfg (c : Chan) : (settleWaits s).cfg c = s.cfg c := cfg_congr (settleWaits_epochKeeps s).loader c
  generalize settleWaits s = w at wch wcfg ⊢
  generalize s.begun m charge first = b at spec ⊢
  have bcfg (c : Chan) : b.cfg c = s.cfg c := cfg_congr spec.loader c
  have bch (c : Chan) : b.ch c = (w.ch c).countEpoch := by rw [spec.ch, wch]
  have surging : b.surging = w.surging := funext fun c => by simp only [State.surging, bcfg, wcfg, bch, Channel.countEpoch_state]
  have counted (c : Chan) (h : w.surging c = true) : (w.ch c).inrushRemaining + 1 = (b.ch c).inrushRemaining + 1 + 1 := by
    simp only [State.surging, Bool.and_eq_true, decide_eq_true_eq] at h
    have runs : (w.ch c).inrushRemaining ≠ 0 := by
      rw [wch] at h ⊢
      rcases ((s.ch c).settledWaits_cases (s.cfg c) s.timer.number (hk c)).2 with ⟨-, other, -⟩ | ⟨-, rejoined⟩ | ⟨runs, waits⟩
      · rcases other with e | ⟨e, -⟩ | e <;> cases h.2.symm.trans e
      · rcases rejoined with ⟨-, whole, -⟩ | other
        · have := hw c
          omega
        · cases h.2.symm.trans other
      · rw [waits.remaining]
        exact fun zero => runs ⟨waits.state.symm.trans h.2, zero⟩
    rw [bch, Channel.countEpoch_inrush _ h.2]
    omega
  unfold State.surgeHold
  rw [surging]
  cases hl : allChans.filter w.surging with
  | nil => exact .inl rfl
  | cons c rest =>
    have among (d : Chan) (hd : d ∈ c :: rest) : w.surging d = true := (List.mem_filter.mp (hl ▸ hd)).2
    refine .inr ⟨?_, ?_⟩
    · rw [List.foldl_cons]
      exact lt_of_lt_of_le (by omega) (foldl_max_spec _ _ _).1
    · rw [List.foldl_cons, List.foldl_cons, counted c (among c List.mem_cons_self), Nat.zero_max, Nat.zero_max]
      exact foldl_max_succ (fun d hd => counted d (among d (List.mem_cons_of_mem _ hd))) _

end Sys2Proof.Machine


/-! An epoch start as a whole: how every block stands at each point of it, and the STATUS it hands over (R132). -/

namespace Sys2Proof.Machine

/-- How the blocks stand at a point of an epoch start whose parts began in `s`. -/
structure Stood (n : Nat) (din : DinLevels) (s : State) (p : Point) : Prop where
  foresees : Foresees n din s p
  keeps : s.EpochKeeps p.state
  sensed : Sensed n s p
  ordered : Ordered p
  figured : Figured s p
  heeded : Heeded din s p

section
variable {n : Nat} {din : DinLevels} {r : Ruling} {s : State} {p q : Point}

theorem Stood.start (n : Nat) (din : DinLevels) (s : State) : Stood n din s ⟨[], [], s⟩ :=
  ⟨.start n din s [] [], .refl s, .start n s, .start s, .start s, .start din s⟩

theorem Stood.takes (h : Stood n din s p) (g : Takes n din r p q) : Stood n din s q :=
  ⟨h.foresees.takes g, h.keeps.trans g.epochKeeps, h.sensed.takes h.foresees g, h.ordered.takes g,
    h.figured.takes h.ordered h.keeps g, h.heeded.takes h.foresees g⟩

theorem Stood.reaches (h : Stood n din s p) (g : Reaches n din r p q) : Stood n din s q :=
  g.keeps (P := Stood n din s) (fun _ _ last stood => stood.takes last) h

theorem Reaches.done_subset (h : Reaches n din r p q) : p.done ⊆ q.done := by
  induction h with
  | refl => exact List.Subset.refl _
  | tail _ last ih => exact fun _ is => last.done_subset (ih is)

/-- What comes about in a run comes about at one of its steps. -/
theorem Reaches.splits (h : Reaches n din r p q) {m : Milestone} (early : m ∉ p.done) (late : m ∈ q.done) :
    ∃ u v, Reaches n din r p u ∧ Takes n din r u v ∧ (m ∉ u.done ∧ m ∈ v.done) ∧ Reaches n din r v q := by
  induction h with
  | refl => exact absurd late early
  | @tail u v run last ih =>
    by_cases before : m ∈ u.done
    · obtain ⟨a, b, first, step, comes, rest⟩ := ih before
      exact ⟨a, b, first, step, comes, rest.tail last⟩
    · exact ⟨u, v, run, last, ⟨before, late⟩, .refl⟩

/-! ### The STATUS -/

/-- A STATUS in its slot stands while what it was read from does. -/
theorem State.StatusHandedOver.later {s b v t : State} (h : State.StatusHandedOver b v) (link : v.link.StatusStands t.link)
    (draws : t.sense.draws = v.sense.draws) (overload : t.budget.overload = v.budget.overload)
    (loader : t.loader = v.loader) (settle : t.budget.settle = v.budget.settle) (supply : t.sense.supply = v.sense.supply)
    (before : s.link.isolated = true → b.link.isolated = true) (after : v.link.isolated = true → t.link.isolated = true)
    (old : ∀ d, (s.ch d).fault.isNew = true → (b.ch d).fault.isNew = true)
    (new : ∀ d, (v.ch d).fault.isNew = true → (t.ch d).fault.isNew = true) : s.StatusHandedOver t := by
  obtain ⟨content, placed, cdraws, coverload, climp, csettling, clow, isolated, isolates, lowest, none⟩ := h
  have unmarked (d : Chan) (clear : (b.ch d).fault.isNew = false) : (s.ch d).fault.isNew = false := by
    cases h : (s.ch d).fault.isNew with
    | false => rfl
    | true => exact absurd (old d h) (by simp [clear])
  refine ⟨content, ?_, cdraws.trans draws.symm, coverload.trans overload.symm, by rw [loader]; exact climp, by rw [settle]; exact csettling,
    by rw [supply]; exact clow, fun h => isolated (before h), fun h => after (isolates h), fun c hc => ?_, fun h d => unmarked d (none h d)⟩
  · rw [link.onLine]
    split
    next on => rw [if_pos on] at placed; rw [link.behind on, placed]
    next off => rw [if_neg off] at placed; rw [link.slot, placed]
  · obtain ⟨marked, clear⟩ := lowest c hc
    exact ⟨new c marked, fun d hd => unmarked d (clear d hd)⟩

/-- Once the evaluation is done, its figures stand, and the STATUS in its slot. -/
structure State.Evaluated (s t : State) : Prop where
  link : s.link.StatusStands t.link := by exact {}
  draws : t.sense.draws = s.sense.draws := by rfl
  supply : t.sense.supply = s.sense.supply := by rfl
  overload : t.budget.overload = s.budget.overload := by rfl
  settle : t.budget.settle = s.budget.settle := by rfl
  carried : t.budget.carried = s.budget.carried := by rfl

theorem Takes.evaluated (g : Takes n din r p q) (ordered : Ordered p) (done : .taken .budget ∈ p.done) : p.state.Evaluated q.state := by
  have settled := ordered.evaluated done
  obtain ⟨closed, tested⟩ := ordered.formed (ordered.settled settled)
  have link := g.statusStands done
  have sense : q.state.sense = p.state.sense := by
    rcases g.sense with ⟨⟨sense, -⟩, -⟩ | ⟨early, -⟩ | ⟨early, -⟩
    · exact sense
    · exact absurd closed early
    · exact absurd tested early
  rcases g.budget with ⟨e, -⟩ | ⟨⟨-, -, early⟩, -⟩ | ⟨⟨-, early⟩, -⟩ | ⟨⟨-, early⟩, -⟩
  · exact ⟨link, by rw [sense], by rw [sense], by rw [e], by rw [e], by rw [e]⟩
  · exact absurd (ordered.settled settled) early
  · exact absurd settled early
  · exact absurd settled early

theorem State.Evaluated.trans {s t u : State} (h : s.Evaluated t) (g : t.Evaluated u) : s.Evaluated u :=
  ⟨h.link.trans g.link, g.draws.trans h.draws, g.supply.trans h.supply, g.overload.trans h.overload, g.settle.trans h.settle,
    g.carried.trans h.carried⟩

theorem Reaches.evaluated (h : Reaches n din r p q) (ordered : Ordered p) (done : .taken .budget ∈ p.done) :
    p.state.Evaluated q.state := by
  have both : (Ordered q ∧ .taken .budget ∈ q.done) ∧ p.state.Evaluated q.state := by
    refine h.keeps (P := fun q => (Ordered q ∧ .taken .budget ∈ q.done) ∧ p.state.Evaluated q.state) ?_ ⟨⟨ordered, done⟩, {}⟩
    exact fun u v last ⟨⟨ordered, done⟩, same⟩ => ⟨⟨ordered.takes last, last.done_subset done⟩, same.trans (last.evaluated ordered done)⟩
  exact both.2

/-- A record new once stays so. -/
theorem Reaches.isNew (h : Reaches n din r p q) (c : Chan) (new : (p.state.ch c).fault.isNew = true) :
    (q.state.ch c).fault.isNew = true :=
  (h.undergoes c (.start n din p.state p.done p.capped)).isNew new

/-- Unless the link is MUTED the STATUS is handed over (R132). -/
theorem Stood.statusHandedOver (stood : Stood n din s p) (h : Reaches n din r p q) (early : .taken .budget ∉ p.done)
    (late : .taken .budget ∈ q.done) (heard : s.link.muted = false) : p.state.StatusHandedOver q.state := by
  obtain ⟨u, v, before, step, ⟨notYet, now⟩, rest⟩ := h.splits early late
  have at_ : v.state = u.state.handOver (.status u.state.statusContent) := by
    cases step with
    | status => rfl
    | part t hb =>
      refine absurd (List.mem_cons.mp now) fun h => h.elim (fun e => ?_) notYet
      cases e
      exact hb rfl
    | _ => exact absurd (by simpa using now) notYet
  have middle := stood.reaches before
  have handed := handOver_status (u := u.state) (middle.keeps.muted.trans heard)
  rw [← at_] at handed
  have whole : Reaches n din r p v := before.tail step
  have later := rest.evaluated (middle.takes step).ordered now
  exact handed.later later.link later.draws later.overload rest.loader later.settle later.supply
    (fun h => whole.epochKeeps.isolated h) rest.epochKeeps.isolated
    (fun d => whole.isNew d) fun d => rest.isNew d

end

end Sys2Proof.Machine


/-! The evaluation of an epoch start by its figures (R117–R123), whatever its order. -/

namespace Sys2Proof.Machine

section
variable {s t u : State}

/-- The draws of the peers in every class together. -/
theorem peerSums_eq (s : State) : s.peerSum 0 + s.peerSum 1 + s.peerSum 2 + s.peerSum 3 =
    ((allStns.filter fun p => p ≠ s.own && (s.peer p).presence ≠ .absent).map fun p =>
      match (s.peer p).draws with | some x => x.d0 + x.d1 + x.d2 + x.d3 | none => 0).sum := by
  rw [peerSum_eq, peerSum_eq, peerSum_eq, peerSum_eq, ← List.sum_map_add, ← List.sum_map_add, ← List.sum_map_add]
  refine congrArg List.sum (List.map_congr_left fun p _ => ?_)
  cases (s.peer p).draws <;> rfl

/-- Figures formed in `u` from the draws and the peers that stand in `t`. -/
theorem zoneSteady_eq (loader : u.loader = t.loader) (draws : u.sense.draws = t.sense.draws) (peers : ∀ p, u.peer p = t.peer p) :
    u.zoneSteady = t.sense.draws.d0 + t.sense.draws.d1 + t.sense.draws.d2 + t.sense.draws.d3 +
      ((allStns.filter fun p => p ≠ t.own && (t.peer p).presence ≠ .absent).map fun p =>
        match (t.peer p).draws with | some x => x.d0 + x.d1 + x.d2 + x.d3 | none => 0).sum +
      t.params.peerAllowance * (allStns.filter fun p =>
        p ≠ t.own && (t.params.expected.getLsbD p.val && (t.peer p).presence = .absent)).length := by
  rw [State.zoneSteady, peerSums_eq, absentAllowance_eq, draws, own_congr loader, params_congr loader]
  simp only [peers]
  rfl

end

section
variable {n : Nat} {din : DinLevels} {r : Ruling} {s b : State} {q : Point} {m : Nat} {charge : Bool}

/-- What the evaluation of an epoch start that began in `s` comes to. -/
theorem Stood.epochEvaluated (begun : s.Begun m charge b) (stood : Stood n din b q) (settled : .settled ∈ q.done) :
    s.EpochEvaluated q.state charge := by
  have formed := stood.ordered.settled settled
  obtain ⟨u, ⟨loader, pins, draws⟩, peers, carried⟩ := stood.figured.event formed
  have budget : b.budget.settle = s.budget.settle := by rw [begun.budget]
  have bparams : b.params = s.params := params_congr begun.loader
  have uparams : u.params = s.params := (params_congr loader).trans bparams
  have loaded : u.loader = q.state.loader := loader.trans stood.keeps.loader.symm
  have limp : u.loader.runMode = s.loader.runMode := by rw [loader, begun.loader]
  have base : u.zoneBase = if charge = true then s.params.limitRun else s.params.limitBatt := by
    rw [State.zoneBase, uparams, pins, begun.pins]
  have still (same : ∀ i, (q.state.peer i).presence = (s.peer i).presence) (i : Stn) : u.peer i = q.state.peer i := by
    obtain ⟨e, wanes, grown⟩ := begun.peers i
    have first := (peers i).1.silence_le
    have last := (peers i).2.silence_le
    have head := wanes.silence_le
    have presence : (b.peer i).presence = e.presence := by rw [grown]; rfl
    rw [presence] at first
    refine ((peers i).2.eq (Presence.silence_inj ?_)).symm
    rw [same i] at last ⊢
    omega
  have tparams : q.state.params = s.params := (params_congr stood.keeps.loader).trans bparams
  have town : q.state.own = s.own := own_congr (stood.keeps.loader.trans begun.loader)
  unfold State.EpochEvaluated
  extract_lets e d own guard base' peers' missing
  refine ⟨?_, ?_, fun is => ?_, fun run => ?_, fun runs => ?_, fun rests => ?_⟩
  · rw [show e = _ from carried]
    exact budget
  · rw [show e = _ from carried]
    simp only [State.aloneFigures, figuresOf, draws, uparams]
    rfl
  · rw [show e = _ from carried]
    exact if_pos (limp.trans is)
  · have zone : e.zone = figuresOf u.zoneBase u.params.guardBand u.zoneSteady := by
      rw [show e = _ from carried]
      exact if_neg fun is => run (limp.symm.trans is)
    rw [zone, uparams, base]
    refine ⟨rfl, rfl, rfl, fun same => ?_⟩
    have total := zoneSteady_eq loaded draws (still same)
    rw [tparams, town] at total
    exact total
  · exact (stood.figured.falls settled (budget ▸ runs)).trans (by rw [budget])
  · exact stood.figured.rests settled (budget.trans rests)

end

end Sys2Proof.Machine


/-! The ordinary claim through an epoch start (R140, R145–R147): it stays with a channel that stays in REQUESTED, or in INRUSH. -/

namespace Sys2Proof.Machine

/-- A claim that names channel `c` stands where the channel comes to be in `σ`. -/
def State.ClaimKept (σ : ChState) (c : Chan) (s t : State) : Prop :=
  (t.ch c).state = σ → ∀ x, s.sched.ordinary = some x → x.chan = c → t.sched.ordinary = some x

section
variable {σ : ChState} {c : Chan} {s t u : State}

theorem State.Apart.claimKept (h : s.Apart c t) : s.ClaimKept σ c t := fun _ => h.claim

theorem State.ClaimKept.after (g : t.ClaimKept σ c u) (h : s.Apart c t) : s.ClaimKept σ c u := fun hu x hx hc =>
  g hu x (h.claim x hx hc) hc

theorem State.ClaimKept.andThen (h : s.ClaimKept σ c t) (g : t.Apart c u) : s.ClaimKept σ c u := fun hu x hx hc =>
  g.claim x (h (g.state ▸ hu) x hx hc) hc

theorem ite_claimKept {p : Prop} [Decidable p] (h : p → s.ClaimKept σ c t) : s.ClaimKept σ c (if p then t else s) := by
  split
  next hp => exact h hp
  next => exact (State.Apart.refl c s).claimKept

/-- An event at each channel in turn comes to channel `c` once. -/
theorem forChans_claimKept {f : Chan → State → State} (other : ∀ d, d ≠ c → ∀ s : State, s.Apart c (f d s))
    (own : ∀ s : State, s.ClaimKept σ c (f c s)) (s : State) : s.ClaimKept σ c (forChans f s) := by
  obtain ⟨pre, post, split⟩ := List.append_of_mem (mem_allChans c)
  obtain ⟨-, tail, apart⟩ := List.nodup_append.mp (split ▸ allChans_nodup)
  unfold forChans
  rw [split, List.foldl_append, List.foldl_cons]
  refine ((own _).after (foldl_apart (fun d hd => other d fun e => ?_) s)).andThen (foldl_apart (fun d hd => other d fun e => ?_) _)
  · exact apart d hd c (by simp) e
  · exact (List.nodup_cons.mp tail).1 (e ▸ hd)

variable (d : Chan) (s : State)

/-- A claim ends with a change of state that takes its channel out of REQUESTED or INRUSH. -/
theorem enter_claimKept (st : ChState) (r : ShedReason)
    (h : d = c → st ≠ σ ∨ st = .inrush ∨ (s.ch c).state ≠ .requested ∧ (s.ch c).state ≠ .inrush) :
    s.ClaimKept σ c (enter d st r s) := by
  by_cases same : d = c
  · subst same
    intro is x hx _
    rw [enter_ch_self] at is
    rw [enter, notices_ordinary, State.setCh_sched, hx, Option.filter_some, if_pos]
    rcases h rfl with other | begins | ⟨waits, surges⟩
    · exact absurd is other
    · simp [endsClaim, begins]
    · simp [endsClaim, waits, surges]
  · exact (enter_apart same st r s).claimKept

theorem switchOn_claimKept (h : d = c → (s.ch c).state ≠ .requested ∧ (s.ch c).state ≠ .inrush) : s.ClaimKept σ c (switchOn d s) := by
  unfold switchOn
  split <;> exact enter_claimKept d s _ _ fun same => .inr (.inr (h same))

theorem updCh_apart_of {f : Channel → Channel} (h : (f (s.ch d)).state = (s.ch d).state) : s.Apart c (s.updCh d f) := by
  refine .still ?_ rfl
  rw [State.updCh_ch]
  split
  next same => rw [same, h]
  next => rfl

theorem retake_apart {d : Chan} (h : d ≠ c) (s : State) : s.Apart c (retake d s) := by
  unfold retake
  exact .trans (t := enter d .off .none s) (enter_apart h _ _ s) (ite_apart fun _ => switchOn_apart h _)

theorem retake_claimKept (cut : (s.ch d).state = .cut) : s.ClaimKept σ c (retake d s) := by
  by_cases same : d = c
  · subst same
    intro is x hx hc
    unfold retake at is ⊢
    have claim : (enter d .off .none s).sched.ordinary = some x := by
      rw [enter, notices_ordinary, State.setCh_sched, hx, Option.filter_some, if_pos]
      simp [endsClaim, cut]
    exact ite_claimKept (fun _ => switchOn_claimKept d _ fun _ => by simp) is x claim hc
  · exact (retake_apart same s).claimKept

variable (hσ : σ = .requested ∨ σ = .inrush)
include hσ

theorem deliver_claimKept (level : Nat) : s.ClaimKept σ c (deliver c level s) := by
  unfold deliver
  extract_lets mode was is s1 s2 kept
  have first : s.Apart c s1 := updCh_apart_of c s rfl
  have begun : s.Apart c s2 := first.trans (ite_apart fun _ => updCh_apart_of c s1 rfl)
  have again : s.Apart c kept := begun.trans (updCh_apart_of c s2 rfl)
  have state := begun.state
  clear_value s2 kept
  split
  next off =>
    split
    · exact (switchOn_claimKept c s2 fun _ => by simp [state, off]).after begun
    · exact again.claimKept
  next => exact again.claimKept
  next =>
    split
    · exact (enter_claimKept c s2 _ _ fun _ => .inl (by rcases hσ with rfl | rfl <;> decide)).after begun
    · exact again.claimKept

theorem resolve_claimKept (test : Chan → Bool) : s.ClaimKept σ c (resolve test s) := by
  refine forChans_claimKept (fun d hd u => ite_apart fun _ => ?_) (fun u => ite_claimKept fun _ => ?_) s
  · unfold resolveOne
    split
    · exact .refl c u
    · exact deliver_apart hd _ u
  · unfold resolveOne
    split
    · exact (State.Apart.refl c u).claimKept
    · exact deliver_claimKept u hσ _

theorem readInputs_claimKept (din : DinLevels) : s.ClaimKept σ c (readInputs din s) := by
  unfold readInputs
  split
  · exact (State.Apart.refl c s).claimKept
  · have read : s.Apart c (s.setSignal { s.signal with inputs := din }) := .still rfl rfl
    exact ((resolve_claimKept _ hσ _).after read).andThen (publish_apart _)

theorem windowEnd_claimKept : s.ClaimKept σ c (windowEnd c s) := by
  unfold windowEnd
  refine ite_claimKept fun ended => ?_
  simp only [Bool.and_eq_true, decide_eq_true_eq] at ended
  have passed : s.ClaimKept σ c (enter c .on .none s) :=
    enter_claimKept c s _ _ fun _ => .inl (by rcases hσ with rfl | rfl <;> decide)
  split
  · split
    · intro is
      rw [trip_ch_self (by simp [ended.1, ChState.live]), Channel.trips_state, Channel.tripState] at is
      rcases hσ with rfl | rfl <;> split at is <;> cases is
    · exact passed
  · exact passed

omit hσ in
theorem retryDue_claimKept : s.ClaimKept σ c (retryDue c s) := by
  unfold retryDue retryAtChannel
  have stopped : s.Apart c (s.updCh c fun x => { x with retryTimer := none }) := updCh_apart_of c s rfl
  refine ite_claimKept fun _ => State.ClaimKept.after (ite_claimKept fun due => ?_) stopped
  simp only [Bool.and_eq_true, decide_eq_true_eq] at due
  have tripped : (s.ch c).state = .tripped := by simpa using due.1
  exact switchOn_claimKept c _ fun _ => by simp [tripped]

theorem testSupply_claimKept (n : Nat) : s.ClaimKept σ c (testSupply n s) := by
  have set (x : SenseUnit) : s.Apart c (s.setSense x) := .still rfl rfl
  have caused (x : CutCauses) (u : State) : u.Apart c (u.setCauses x) := .still rfl rfl
  unfold testSupply
  simp only []
  split
  · generalize hu : s.setSense _ = u
    refine State.ClaimKept.after (t := u) ?_ (hu ▸ set _)
    simp only [setSupplyCause, changeCauses]
    split_ifs
    · generalize hv : u.setCauses _ = v
      refine State.ClaimKept.after (t := v) ?_ (hv ▸ caused _ u)
      exact forChans_claimKept (fun e he u => enter_apart he _ _ u)
        (fun u => enter_claimKept c u _ _ fun _ => .inl (by rcases hσ with rfl | rfl <;> decide)) _
    · generalize hv : u.setCauses _ = v
      refine State.ClaimKept.after (t := v) ?_ (hv ▸ caused _ u)
      exact forChans_claimKept (fun e he u => ite_apart fun _ => retake_apart he u)
        (fun u => ite_claimKept fun cut => retake_claimKept c u cut) _
    · exact (caused _ u).claimKept
  · exact (set _).claimKept

/-- Every part but the evaluation and the admission leaves a claim to a channel that waits, or whose window runs. -/
theorem runTask_claimKept {t : EpochTask} (n : Nat) (din : DinLevels) (hb : t ≠ .budget) (ha : t ≠ .admission) :
    s.ClaimKept σ c (runTask n din t s) := by
  cases t with
  | budget => exact absurd rfl hb
  | admission => exact absurd rfl ha
  | loadDuties =>
    simp only [runTask, loadDuties]
    exact (State.Apart.still (by simp) (by simp)).claimKept
  | readInputs => exact readInputs_claimKept s hσ din
  | signals =>
    simp only [runTask, resolveAll]
    exact resolve_claimKept s hσ _
  | windowEnds =>
    simp only [runTask, windowEnds]
    exact forChans_claimKept (fun d hd u => windowEnd_apart hd u) (fun u => windowEnd_claimKept u hσ) s
  | retries =>
    simp only [runTask, retries]
    exact forChans_claimKept (fun d hd u => retryDue_apart hd u) retryDue_claimKept s
  | attemptResets =>
    simp only [runTask, attemptResets]
    exact forChans_claimKept (fun d _ u => attemptReset_apart d u) (fun u => (attemptReset_apart c u).claimKept) s
  | supplyTest => exact testSupply_claimKept s hσ n
  | closeMeasurement =>
    simp only [runTask, closeMeasurement]
    exact (State.Apart.still (by simp) (by simp)).claimKept
  | peerPresence | holdRemovals =>
    simp only [runTask, peerPresence, removeRunOut]
    exact (State.Apart.still (by simp) (by simp)).claimKept
  | publication => exact ite_claimKept fun _ => (publish_apart s).claimKept
  | isolation => exact ite_claimKept fun _ => (State.Apart.still rfl rfl).claimKept

end

section
variable {n : Nat} {din : DinLevels} {r : Ruling} {p q : Point} {σ : ChState}

/-- Every step but the Scheduler's own decisions leaves a claim to a channel that waits, or whose window runs. -/
theorem Takes.claimKept (hσ : σ = .requested ∨ σ = .inrush) (c : Chan) (h : Takes n din r p q) :
    p.state.ClaimKept σ c q.state ∨ Decides r p q := by
  have shedding : ChState.shed ≠ σ := by rcases hσ with rfl | rfl <;> decide
  cases h with
  | status settled once => exact .inr (.status settled once)
  | holds x hx hp admits admitted evaluated early => exact .inr (.holds x hx hp admits admitted evaluated early)
  | refuses x hx hp fails admitted evaluated early => exact .inr (.refuses x hx hp fails admitted evaluated early)
  | selects decided evaluated once => exact .inr (.selects decided evaluated once)
  | part t hb ha => exact .inl (runTask_claimKept _ hσ n din hb ha)
  | forms | shares | settles => exact .inl (State.Apart.still rfl rfl).claimKept
  | idles => exact .inl (State.Apart.refl _ _).claimKept
  | sheds d reason => exact .inl (ite_claimKept fun _ => enter_claimKept d _ _ _ fun _ => .inl shedding)
  | throttles d cap =>
    unfold throttle
    refine .inl (ite_claimKept fun _ => ?_)
    split
    · exact (updCh_apart_of d _ rfl).claimKept
    · exact enter_claimKept d _ _ _ fun _ => .inl shedding
  | raises d by_ => exact .inl (ite_claimKept fun _ => (updCh_apart_of d _ rfl).claimKept)
  | restores d => exact .inl (ite_claimKept fun shed => switchOn_claimKept d _ fun same => by subst same; simp [shed])
  | grants x => exact .inl (ite_claimKept fun _ => enter_claimKept x.chan _ _ _ fun _ => .inr (.inl rfl))

end

end Sys2Proof.Machine


/-! The Scheduler through an epoch start (R139–R147): what it decides on the claim that stands, and what it selects where none does. -/

namespace Sys2Proof.Machine

/-! ### A channel that waits -/

section
variable {n : Nat} {k : ChannelConfig} {g : Prospect} {p q : Spot} {level : Nat}

/-- Where no claim to it is admitted, a channel in REQUESTED waits on, unless its demand falls. -/
theorem Undergoes.waits (still : ¬g.moves) (quiet : ¬g.admitted) (h : Undergoes n k g p q) (heard : Heard level p)
    (hp : p.now.state = .requested ∨ Fell k level p) : q.now.state = .requested ∨ Fell k level q := by
  have both : Heard level q ∧ (q.now.state = .requested ∨ Fell k level q) := by
    refine h.keeps (P := fun p => Heard level p ∧ (p.now.state = .requested ∨ Fell k level p))
      (fun p q last ⟨heard, hp⟩ => ⟨heard.befalls still last, ?_⟩) ⟨heard, hp⟩
    rcases hp with waits | fell
    · rcases last.waits still heard waits with waits | ⟨admitted, -⟩ | fell
      · exact .inl waits
      · exact absurd admitted quiet
      · exact .inr fell
    · exact .inr (fell.befalls still last)
  exact both.2

end

section
variable {n : Nat} {din : DinLevels} {r : Ruling} {s : State} {p q : Point} {c : Chan} {level : Nat}

/-- Every step but those by which a claim is admitted is one in an epoch start where none is admitted. -/
theorem Takes.ungranted (h : Takes n din r p q) : Takes n din { r with admitted := none } p q ∨
    (∃ x, .decided ∉ p.done ∧ q = { p with state := holdClaim x p.state }) ∨
    ∃ x, r.admitted = some x ∧ .decided ∉ p.done ∧ q = ⟨.decided :: p.done, p.capped, grant x.chan p.state⟩ := by
  cases h with
  | part t hb ha once => exact .inl (.part t hb ha once)
  | forms closed tested once => exact .inl (.forms closed tested once)
  | shares formed early => exact .inl (.shares formed early)
  | settles k formed once falls rests => exact .inl (.settles k formed once falls rests)
  | status settled once => exact .inl (.status settled once)
  | sheds c reason hr down => exact .inl (.sheds c reason hr down)
  | throttles c cap down once => exact .inl (.throttles c cap down once)
  | raises c by_ up once => exact .inl (.raises c by_ up once)
  | restores c up => exact .inl (.restores c up)
  | refuses x hx hp fails admitted evaluated early => exact .inl (.refuses x hx hp fails rfl evaluated early)
  | idles idle admitted early => exact .inl (.idles idle rfl early)
  | selects decided evaluated once => exact .inl (.selects decided evaluated once)
  | holds x hx hp admits admitted evaluated early => exact .inr (.inl ⟨x, early, rfl⟩)
  | grants x admitted early span => exact .inr (.inr ⟨x, admitted, early, rfl⟩)

variable (foresees : Foresees n din s p) (still : ¬s.InputMoves din c) (atHead : Heard level (p.spot c))
include foresees still atHead

/-- A channel in REQUESTED waits on at each step, unless its demand falls or its grant arrives. -/
theorem Takes.waits (h : Takes n din r p q) (waits : (p.state.ch c).state = .requested) :
    (q.state.ch c).state = .requested ∨ Fell (s.cfg c) level (q.spot c) ∨
      ∃ x, r.admitted = some x ∧ .decided ∉ p.done ∧ q = ⟨.decided :: p.done, p.capped, grant x.chan p.state⟩ := by
  rcases h.ungranted with plain | ⟨x, -, e⟩ | granted
  · exact ((plain.undergoes c foresees).waits still (by simp [State.prospect]) atHead (.inl waits)).imp_right .inl
  · rw [e]
    exact .inl waits
  · exact .inr (.inr granted)

theorem Reaches.heard (h : Reaches n din r p q) : Heard level (q.spot c) := (h.undergoes c foresees).heard still atHead

omit atHead in
theorem Reaches.fell (h : Reaches n din r p q) (fell : Fell (s.cfg c) level (p.spot c)) : Fell (s.cfg c) level (q.spot c) :=
  (h.undergoes c foresees).fell still fell

/-- Where no claim is admitted, a channel in REQUESTED waits until its demand falls. -/
theorem Reaches.waits (h : Reaches n din r p q) (quiet : r.admitted = none) (waits : (p.state.ch c).state = .requested) :
    (q.state.ch c).state = .requested ∨ Fell (s.cfg c) level (q.spot c) :=
  (h.undergoes c foresees).waits still (by simp [State.prospect, quiet]) atHead (.inl waits)

/-- One in INRUSH whose window has not run out stays there until its demand falls. -/
theorem Reaches.surges {m : Nat} (hm : m ≠ 0) (h : Reaches n din r p q)
    (surges : (p.state.ch c).state = .inrush ∧ (p.state.ch c).inrushRemaining = m) :
    (q.state.ch c).state = .inrush ∨ Fell (s.cfg c) level (q.spot c) :=
  ((h.undergoes c foresees).stays_inrush still hm atHead (.inl surges)).imp_left And.left

end

/-! ### The rules of admission at each point -/

/-- The channel whose claim is admitted, until the grant arrives. -/
def Ruling.Sent (r : Ruling) (D : List Milestone) (c : Chan) : Prop := .decided ∉ D ∧ ∃ x, r.admitted = some x ∧ c = x.chan

section
variable {n : Nat} {din : DinLevels} {r : Ruling} {p q : Point} {s : State}

theorem State.Admits.mono {g g' : Chan → Prop} (h : s.Admits g) (le : ∀ c, g c → g' c) : s.Admits g' where
  free := h.free
  once := h.once
  waits := h.waits
  queued c hc := (h.queued c hc).imp_right (le c)
  claimed := h.claimed
  held x hx hp := (h.held x hx hp).imp_right fun ⟨state, absent, is⟩ => ⟨state, absent, le _ is⟩
  announce := h.announce

/-- Every step keeps the rules of admission, with a grant on its way or none. -/
theorem Takes.admits (h : Takes n din r p q) (hp : p.state.Admits (r.Sent p.done)) : q.state.Admits (r.Sent q.done) := by
  have on {D : List Milestone} {K : List Chan} {v w : State} {m : Milestone} (hm : m ≠ .decided) (run : Runs v w)
      (hv : v.Admits (r.Sent D)) : w.Admits (r.Sent (m :: D)) :=
    (run.keepsAdmits hv).mono fun c ⟨early, sent⟩ => ⟨by simp [early, Ne.symm hm], sent⟩
  have settled {D : List Milestone} {v w : State} (none : r.admitted = none) (run : Runs v w) (hv : v.Admits (r.Sent D)) :
      w.Admits (r.Sent (.decided :: D)) :=
    (run.keepsAdmits hv).mono fun c ⟨_, x, is, _⟩ => by cases none.symm.trans is
  cases h with
  | part t => exact on (K := []) (by simp) (runTask_runs _ n din t) hp
  | forms => exact on (K := []) (by simp) (formFigures_runs _) hp
  | shares => exact (shareExcess_runs _).keepsAdmits hp
  | settles k formed once falls rests =>
    refine on (K := []) (by simp) (settleTo_runs _ ?_) hp
    rename_i D K s
    by_cases idle : s.budget.settle = 0
    · exact .inl (by rcases rests idle with rfl | rfl <;> omega)
    · exact .inr (by have := falls (by omega); omega)
  | status => exact on (K := []) (by simp) (.handsOver _ (by simp [Frame.slot]) (by simp [Frame.slot])) hp
  | sheds c reason => exact (shed_runs c _ reason).keepsAdmits hp
  | throttles c cap => exact (throttle_runs c _ cap).keepsAdmits hp
  | raises c by_ => exact (capRaise_runs c _ by_).keepsAdmits hp
  | restores c => exact (restore_runs c _).keepsAdmits hp
  | holds x hx hp' admits admitted evaluated early =>
    exact (holdClaim_admits hx hp' hp).mono fun c => Or.rec id fun e => ⟨early, x, admitted, e⟩
  | grants x admitted early span =>
    refine (grant_admits (g := fun _ => False) (hp.mono fun c ⟨_, y, is, e⟩ => ?_) span).mono fun _ => False.elim
    cases admitted.symm.trans is
    exact .inr e
  | refuses x hx hp' fails admitted => exact settled admitted (.refuses x hx hp') hp
  | idles idle admitted => exact settled admitted (.refl _) hp
  | selects => exact on (K := []) (by simp) .selects hp

end

end Sys2Proof.Machine


namespace Sys2Proof.Machine

/-! ### The decision on a claim -/

section
variable {n : Nat} {din : DinLevels} {r : Ruling} {s : State} {p q : Point} {x : Claim}

/-- The step at which the decision comes about (R145, R146). -/
theorem Takes.decision (h : Takes n din r p q) (early : .decided ∉ p.done) (late : .decided ∈ q.done) :
    (∃ y, r.admitted = some y ∧ q.state = grant y.chan p.state ∧
      ((p.state.ch y.chan).state = .requested → p.state.sched.ordinary = some { y with phase := .held })) ∨
    r.admitted = none ∧
      ((∃ y, p.state.sched.ordinary = some y ∧ q.state = refuse y p.state ∧ p.state.admits y = false ∧ .taken .budget ∈ p.done) ∨
        q.state = p.state ∧ ∀ y, p.state.sched.ordinary = some y → y.phase ≠ .settling) := by
  cases h with
  | grants y admitted _ span => exact .inl ⟨y, admitted, rfl, span⟩
  | refuses y hy _ fails admitted evaluated => exact .inr ⟨admitted, .inl ⟨y, hy, rfl, fails, evaluated⟩⟩
  | idles idle admitted => exact .inr ⟨admitted, .inr ⟨rfl, idle⟩⟩
  | _ => exact absurd (by simpa using late) early

/-- The claim was admitted at an earlier point of the run (R144). -/
def Passed (n : Nat) (din : DinLevels) (r : Ruling) (s : State) (x : Claim) (p : Point) : Prop :=
  ∃ w, Reaches n din r ⟨[], [], s⟩ w ∧ Reaches n din r w p ∧ .taken .budget ∈ w.done ∧ w.state.admits x = true

theorem Passed.takes (h : Passed n din r s x p) (g : Takes n din r p q) : Passed n din r s x q := by
  obtain ⟨w, before, run, rest⟩ := h
  exact ⟨w, before, run.tail g, rest⟩

theorem Passed.reaches (h : Passed n din r s x p) (g : Reaches n din r p q) : Passed n din r s x q := by
  obtain ⟨w, before, run, rest⟩ := h
  exact ⟨w, before, run.trans g, rest⟩

/-- Until the decision arrives, the claim stands as it was, or is HELD since it was admitted. -/
def Undecided (n : Nat) (din : DinLevels) (r : Ruling) (s : State) (x : Claim) (p : Point) : Prop :=
  p.state.sched.ordinary = some x ∨
    p.state.sched.ordinary = some { x with phase := .held } ∧ r.admitted = some x ∧ Passed n din r s x p

theorem Undecided.takes (h : Undecided n din r s x p) (g : Takes n din r p q) (before : Reaches n din r ⟨[], [], s⟩ p)
    (early : .decided ∉ q.done) (waits : (q.state.ch x.chan).state = .requested) : Undecided n din r s x q := by
  rcases g.claimKept (.inl rfl) x.chan with kept | decides
  · rcases h with claim | ⟨claim, admitted, passed⟩
    · exact .inl (kept waits _ claim rfl)
    · exact .inr ⟨kept waits _ claim rfl, admitted, passed.takes g⟩
  · cases decides with
    | status => exact h.imp_right fun ⟨claim, admitted, passed⟩ => ⟨claim, admitted, passed.takes g⟩
    | holds y hy hp admits admitted evaluated =>
      rcases h with claim | ⟨claim, -⟩
      · cases hy.symm.trans claim
        exact .inr ⟨holdClaim_ordinary x _, admitted, _, before, .single g, evaluated, admits⟩
      · cases hy.symm.trans claim
        cases hp
    | refuses => exact absurd List.mem_cons_self early
    | selects decided => exact absurd (List.mem_cons_of_mem _ decided) early

/-- A claim in SETTLING, until the decision. -/
theorem Reaches.undecided (h : Reaches n din r ⟨[], [], s⟩ q) (still : ¬s.InputMoves din x.chan)
    (claim : s.sched.ordinary = some x) (waits : (s.ch x.chan).state = .requested) (early : .decided ∉ q.done)
    (stands : ¬Fell (s.cfg x.chan) (s.ch x.chan).demandLevel (q.spot x.chan)) :
    (q.state.ch x.chan).state = .requested ∧ Undecided n din r s x q := by
  induction h with
  | refl => exact ⟨waits, .inl claim⟩
  | @tail u v run last ih =>
    have stood := (Stood.start n din s).reaches run
    have notYet : .decided ∉ u.done := fun is => early (last.done_subset is)
    obtain ⟨waits, undecided⟩ := ih notYet fun fell => stands (Reaches.fell stood.foresees still (.single last) fell)
    have atHead := Reaches.heard (.start n din s [] []) still (level := (s.ch x.chan).demandLevel) (fun _ => rfl) run
    rcases last.waits stood.foresees still atHead waits with waits | fell | ⟨y, -, -, e⟩
    · exact ⟨waits, undecided.takes last run early waits⟩
    · exact absurd fell stands
    · exact absurd (by rw [e]; exact List.mem_cons_self) early

/-- Once the decision has been made, a claim stands while its channel stays in REQUESTED, or in INRUSH. -/
theorem Reaches.claim_stays {σ : ChState} (hσ : σ = .requested ∨ σ = .inrush) (h : Reaches n din r p q) (decided : .decided ∈ p.done)
    (claim : p.state.sched.ordinary = some x)
    (is : ∀ v, Reaches n din r p v → Reaches n din r v q → (v.state.ch x.chan).state = σ) : q.state.sched.ordinary = some x := by
  induction h with
  | refl => exact claim
  | @tail u v run last ih =>
    have run : Reaches n din r p u := run
    have claim := ih fun w before after => is w before (after.tail last)
    have done := run.done_subset decided
    rcases last.claimKept hσ x.chan with kept | decides
    · exact kept (is v (run.tail last) .refl) x claim rfl
    · cases decides with
      | status => exact claim
      | holds _ _ _ _ _ _ early => exact absurd done early
      | refuses _ _ _ _ _ _ early => exact absurd done early
      | @selects D K w =>
        rw [select_of_not fun may => by
          have := (w.maySelect_iff.mp may).1
          cases this.symm.trans claim]
        exact claim

/-- Once a claim has been refused, none is taken, since the deferral count runs (R146). -/
theorem Reaches.stays_refused (h : Reaches n din r p q) (decided : .decided ∈ p.done) {m : Nat} (hm : m ≠ 0)
    (none_ : p.state.sched.ordinary = none) (deferral : p.state.sched.deferral = m) :
    q.state.sched.ordinary = none ∧ q.state.sched.deferral = m := by
  induction h with
  | refl => exact ⟨none_, deferral⟩
  | @tail u v run last ih =>
    obtain ⟨none_, deferral⟩ := ih
    have run : Reaches n din r p u := run
    have done := run.done_subset decided
    have keeps := keepsNone_eventsKeep.takes last
    have counts := deferral_eventsKeep.takes last
    rcases keeps with keeps | decides
    · refine ⟨?_, ?_⟩
      · cases claim : v.state.sched.ordinary with
        | none => rfl
        | some y => cases none_.symm.trans (keeps y claim)
      · rcases counts with counts | decides
        · exact counts.trans deferral
        · cases decides with
          | status => exact deferral
          | holds _ _ _ _ _ _ early => exact absurd done early
          | refuses _ _ _ _ _ _ early => exact absurd done early
          | @selects D K w =>
            rw [select_of_not fun may => hm (deferral.symm.trans (w.maySelect_iff.mp may).2.1)]
            exact deferral
    · cases decides with
      | status => exact ⟨none_, deferral⟩
      | holds _ _ _ _ _ _ early => exact absurd done early
      | refuses _ _ _ _ _ _ early => exact absurd done early
      | @selects D K w =>
        rw [select_of_not fun may => hm (deferral.symm.trans (w.maySelect_iff.mp may).2.1)]
        exact ⟨none_, deferral⟩

/-- What becomes of a claim in SETTLING whose channel's demand stands: granted where it passed, and otherwise refused (R144–R146). -/
theorem Reaches.decided (h : Reaches n din r ⟨[], [], s⟩ q) (still : ¬s.InputMoves din x.chan) (settling : x.phase = .settling)
    (claim : s.sched.ordinary = some x) (waits : (s.ch x.chan).state = .requested) (window : 1 ≤ (s.cfg x.chan).window)
    (own : ∀ y, r.admitted = some y → y = x) (late : .decided ∈ q.done)
    (stands : ¬Fell (s.cfg x.chan) (s.ch x.chan).demandLevel (q.spot x.chan)) :
    Passed n din r s x q ∧ q.state.sched.ordinary = some { x with phase := .held } ∧ (q.state.ch x.chan).state = .inrush ∨
    (∃ w, Reaches n din r ⟨[], [], s⟩ w ∧ Reaches n din r w q ∧ .taken .budget ∈ w.done ∧ w.state.admits x = false) ∧
      q.state.sched.ordinary = none ∧ q.state.sched.deferral = 2 + s.own.val % 4 ∧ (q.state.ch x.chan).state = .requested := by
  obtain ⟨u, v, before, step, ⟨early, now⟩, rest⟩ := h.splits (by simp) late
  have stood := (Stood.start n din s).reaches before
  have after := stood.takes step
  have tail : Reaches n din r u q := .head step rest
  have atHead (w : Point) (run : Reaches n din r ⟨[], [], s⟩ w) : Heard (s.ch x.chan).demandLevel (w.spot x.chan) :=
    Reaches.heard (.start n din s [] []) still (fun _ => rfl) run
  have heardNow := atHead v (before.tail step)
  obtain ⟨waits, undecided⟩ := before.undecided still claim waits early fun fell =>
    stands (Reaches.fell stood.foresees still tail fell)
  have standsNow : ¬Fell (s.cfg x.chan) (s.ch x.chan).demandLevel (v.spot x.chan) := fun fell =>
    stands (Reaches.fell after.foresees still rest fell)
  rcases step.decision early now with ⟨y, admitted, state, span⟩ | ⟨none_, ⟨y, hy, state, fails, evaluated⟩ | ⟨-, idle⟩⟩
  · -- the claim is HELD, and its grant arrives
    cases own y admitted
    have held := span waits
    have passed : Passed n din r s x u := by
      rcases undecided with claim | ⟨-, -, passed⟩
      · cases (congrArg Claim.phase (Option.some.inj (held.symm.trans claim))).trans settling
      · exact passed
    have entered : v.state = enter x.chan .inrush .none u.state := by rw [state, grant, if_pos waits]
    have surges : (v.state.ch x.chan).state = .inrush ∧ (v.state.ch x.chan).inrushRemaining = (s.cfg x.chan).window := by
      rw [entered, enter_ch_self, cfg_congr stood.foresees.loader]
      exact ⟨rfl, rfl⟩
    have claim : v.state.sched.ordinary = some { x with phase := .held } := by
      rw [entered]
      exact enter_claimKept (σ := .inrush) x.chan u.state _ _ (fun _ => .inr (.inl rfl)) (by rw [enter_ch_self]; rfl) _ held rfl
    have is (w : Point) (run : Reaches n din r v w) (left : Reaches n din r w q) : (w.state.ch x.chan).state = .inrush :=
      (Reaches.surges after.foresees still heardNow (by omega) run surges).resolve_right fun fell =>
        stands (Reaches.fell (after.reaches run).foresees still left fell)
    exact .inl ⟨passed.reaches tail, rest.claim_stays (.inr rfl) now claim is, is q rest .refl⟩
  · -- the claim fails
    right
    have same : y = x := by
      rcases undecided with claim | ⟨-, admitted, -⟩
      · exact Option.some.inj (hy.symm.trans claim)
      · cases none_.symm.trans admitted
    subst same
    have own : u.state.own = s.own := own_congr stood.keeps.loader
    have refused : v.state.sched.ordinary = none ∧ v.state.sched.deferral = 2 + s.own.val % 4 := by
      rw [state, refuse_eq, own]
      exact ⟨rfl, rfl⟩
    obtain ⟨ordinary, deferral⟩ := rest.stays_refused now (by omega) refused.1 refused.2
    refine ⟨⟨u, before, tail, evaluated, fails⟩, ordinary, deferral, ?_⟩
    exact (Reaches.waits after.foresees still heardNow rest none_ (by rw [state, refuse_ch]; exact waits)).resolve_right stands
  · -- no claim would be decided
    rcases undecided with claim | ⟨-, admitted, -⟩
    · exact absurd settling (idle x claim)
    · cases none_.symm.trans admitted

/-- The test of a claim once the evaluation is done is that of the end, where the link keeps its state (R144). -/
theorem Reaches.claimPasses_iff {w : Point} (before : Reaches n din r ⟨[], [], s⟩ w) (h : Reaches n din r w q)
    (evaluated : .taken .budget ∈ w.done) (isolated : q.state.link.isolated = s.link.isolated) (x : Claim) :
    w.state.admits x = true ↔ q.state.ClaimPasses x := by
  have keeps := h.epochKeeps
  have carried := (h.evaluated ((Stood.start n din s).reaches before).ordered evaluated).carried
  have entries : (q.state.reservations.filter fun q => q.hold ≠ 0) = w.state.reservations.filter fun q => q.hold ≠ 0 := keeps.entries
  have same : q.state.link.isolated = w.state.link.isolated := by
    have first := before.epochKeeps.isolated
    have last := keeps.isolated
    rw [isolated] at last ⊢
    exact Bool.eq_iff_iff.mpr ⟨first, last⟩
  rw [State.admits_iff]
  unfold State.ClaimPasses
  rw [carried, keeps.muted, same, keeps.loader, entries, own_congr keeps.loader]

end

end Sys2Proof.Machine


namespace Sys2Proof.Machine

/-! ### The claim at the head of an epoch start -/

section
variable {n : Nat} {din : DinLevels} {r : Ruling} {s : State} {q : Point}

/-- Until the decision no claim stands but the one the parts began with. -/
theorem Reaches.claimed (h : Reaches n din r ⟨[], [], s⟩ q) (early : .decided ∉ q.done) (y : Claim)
    (claim : q.state.sched.ordinary = some y) :
    ∃ x, s.sched.ordinary = some x ∧ (y = x ∨ y = { x with phase := .held }) := by
  induction h generalizing y with
  | refl => exact ⟨y, claim, .inl rfl⟩
  | @tail u v run last ih =>
    have notYet : .decided ∉ u.done := fun is => early (last.done_subset is)
    rcases keepsNone_eventsKeep.takes last with keeps | decides
    · exact ih notYet y (keeps y claim)
    · cases decides with
      | status => exact ih notYet y claim
      | holds x hx hp =>
        cases (holdClaim_ordinary x _).symm.trans claim
        obtain ⟨z, hz, rfl | rfl⟩ := ih notYet x hx
        · exact ⟨x, hz, .inr rfl⟩
        · exact ⟨z, hz, .inr rfl⟩
      | refuses => exact absurd List.mem_cons_self early
      | selects decided => exact absurd decided notYet

/-- An epoch start's parts, taken from `s` to the end. -/
structure Ran (n : Nat) (din : DinLevels) (r : Ruling) (s : State) (q : Point) : Prop where
  reaches : Reaches n din r ⟨[], [], s⟩ q
  taken : ∀ t ∈ epochParts, .taken t ∈ q.done
  settled : .settled ∈ q.done
  decided : .decided ∈ q.done
  admitted : ∀ x, r.admitted = some x → s.sched.ordinary = some x ∧ x.phase = .settling

/-- The parts outside each other, in whatever order, are such a run. -/
theorem outsideParts_ran (n : Nat) (din : DinLevels) (o : EpochOrder) (s : State) :
    ∃ r D K, Ran n din r s ⟨D, K, (outsideParts o).foldl (fun s t => epochTask n din o t s) s⟩ := by
  obtain ⟨r, D, K, taken, -, settled, decided, reaches, admitted⟩ := outsideParts_reaches n din o s
  refine ⟨r, D, K, reaches, taken, settled, decided, fun x hx => ?_⟩
  obtain ⟨E, L, u, early, run, claim, settling⟩ := admitted x hx
  obtain ⟨y, hy, rfl | rfl⟩ := run.claimed early x claim
  · exact ⟨hy, settling⟩
  · cases settling

section
variable (h : Ran n din r s q)
include h

theorem Ran.stood : Stood n din s q := (Stood.start n din s).reaches h.reaches

theorem Ran.undergoes (c : Chan) : Undergoes n (s.cfg c) (s.prospect n din r c) ⟨[], false, s.ch c⟩ ⟨q.done, q.capped.contains c, q.state.ch c⟩ :=
  h.reaches.undergoes c (.start n din s [] [])

end

variable (m : Nat) (charge first : Bool)

theorem countEpochs_ordinary (s : State) : (countEpochs first s).sched.ordinary = s.sched.ordinary := by
  rw [countEpochs_eq]

theorem begun_ordinary : (s.begun m charge first).sched.ordinary = (settleWaits s).sched.ordinary := by
  unfold State.begun
  generalize settleWaits s = w
  simp only []
  rw [countEpochs_ordinary]
  simp

/-- The waits at the head are a run in which nothing is resolved, decided or admitted. -/
theorem settleWaits_quiet (s : State) : ∃ q, Reaches 0 s.signal.inputs ⟨false, false, none⟩ ⟨[], [], s⟩ q ∧ q.state = settleWaits s ∧
    .decided ∉ q.done ∧ .taken .signals ∉ q.done := by
  have run := settleWaits_reaches 0 s.signal.inputs s ⟨false, false, none⟩
  generalize settleWaits s = w at run ⊢
  exact ⟨_, run, rfl, by simp [mem_took], by simp [mem_took, headParts]⟩

/-- At the head no claim is taken. -/
theorem begun_keepsNone (claim : s.sched.ordinary = none) : (s.begun m charge first).sched.ordinary = none := by
  rw [begun_ordinary]
  cases is : (settleWaits s).sched.ordinary with
  | none => rfl
  | some y =>
    obtain ⟨q, run, state, early, -⟩ := settleWaits_quiet s
    obtain ⟨x, hx, -⟩ := run.claimed early y (state ▸ is)
    cases claim.symm.trans hx

theorem inputMoves_self (s : State) (c : Chan) : ¬s.InputMoves s.signal.inputs c := fun ⟨_, _, _, moves, _⟩ => moves rfl

/-- Nor does the head touch a claim to a channel that waits. -/
theorem begun_claim {x : Claim} (claim : s.sched.ordinary = some x) (waits : (s.ch x.chan).state = .requested) :
    (s.begun m charge first).sched.ordinary = some x := by
  rw [begun_ordinary]
  obtain ⟨q, run, state, early, unresolved⟩ := settleWaits_quiet s
  rw [← state]
  obtain ⟨-, claim | ⟨-, admitted, -⟩⟩ := run.undecided (inputMoves_self s x.chan) claim waits early fun fell => unresolved fell.1
  · exact claim
  · cases admitted

/-- A channel in REQUESTED waits through the head. -/
theorem begun_waits (c : Chan) (waits : (s.ch c).state = .requested) : ((s.begun m charge first).ch c).state = .requested := by
  obtain ⟨q, run, state, -, unresolved⟩ := settleWaits_quiet s
  rw [(begun_spec m charge first s).ch c, Channel.countEpoch_state, ← settleWaits_ch, ← state]
  exact (Reaches.waits (.start 0 _ s [] []) (inputMoves_self s c) (fun _ => rfl) run rfl waits).resolve_right fun fell => unresolved fell.1

theorem begun_runs (hm : m ≤ 255) (s : State) : Runs s (s.begun m charge first) := by
  unfold State.begun
  refine .trans (.trans (.trans (settleWaits_runs s) (setPins_runs _ ?_)) (beginEpoch_runs _ hm)) (countEpochs_runs _ _)
  rw [settleWaits_pins]

end

end Sys2Proof.Machine


namespace Sys2Proof.Machine

/-! ### A selection -/

section
variable {n : Nat} {din : DinLevels} {r : Ruling} {s : State} {p q : Point}

/-- The step at which a selection may be made (R140). -/
theorem Takes.selection (h : Takes n din r p q) (early : .taken .admission ∉ p.done) (late : .taken .admission ∈ q.done) :
    .decided ∈ p.done ∧ .taken .budget ∈ p.done ∧ q.state = select p.state := by
  cases h with
  | selects decided evaluated => exact ⟨decided, evaluated, rfl⟩
  | part t _ other => exact absurd (by simpa [Ne.symm other] using late) early
  | _ => exact absurd (by simpa using late) early

/-- Where there is no claim, none is taken before the selection. -/
theorem Reaches.unclaimed (h : Reaches n din r p q) (none_ : p.state.sched.ordinary = none)
    (early : .taken .admission ∉ q.done) : q.state.sched.ordinary = none := by
  induction h with
  | refl => exact none_
  | @tail u v run last ih =>
    have none_ := ih fun is => early (last.done_subset is)
    rcases keepsNone_eventsKeep.takes last with keeps | decides
    · cases claim : v.state.sched.ordinary with
      | none => rfl
      | some y => cases none_.symm.trans (keeps y claim)
    · cases decides with
      | status => exact none_
      | holds _ hx => cases none_.symm.trans hx
      | refuses _ hx => cases none_.symm.trans hx
      | selects => exact absurd List.mem_cons_self early

theorem select_deferral (s : State) : (select s).sched.deferral = s.sched.deferral := by
  unfold select
  split
  · split
    · simp only []
      split_ifs <;> rfl
    · rfl
  · rfl

/-- Once the decision has been made, the deferral count stands. -/
theorem Reaches.deferral (h : Reaches n din r p q) (decided : .decided ∈ p.done) :
    q.state.sched.deferral = p.state.sched.deferral := by
  induction h with
  | refl => rfl
  | @tail u v run last ih =>
    have run : Reaches n din r p u := run
    have done := run.done_subset decided
    rcases deferral_eventsKeep.takes last with counts | decides
    · exact counts.trans ih
    · cases decides with
      | status => exact ih
      | holds _ _ _ _ _ _ early => exact absurd done early
      | refuses _ _ _ _ _ _ early => exact absurd done early
      | selects => exact (select_deferral _).trans ih

/-- The rules of admission hold at every point of a run that admits no claim. -/
theorem Reaches.ruled (h : Reaches n din r ⟨[], [], s⟩ q) (quiet : r.admitted = none) (ruled : s.AdmissionRuled) : q.state.AdmissionRuled := by
  have admits : q.state.Admits (r.Sent q.done) :=
    h.keeps (P := fun q => q.state.Admits (r.Sent q.done)) (fun _ _ last => last.admits)
      (((admissionRuled_iff s).mp ruled).mono fun _ => False.elim)
  refine (admissionRuled_iff _).mpr (admits.mono fun c ⟨_, x, is, _⟩ => ?_)
  cases quiet.symm.trans is

/-- Where a channel waits, one is chosen (R140). -/
theorem State.AdmissionRuled.chooses (ruled : s.AdmissionRuled) (waits : s.sched.queue ≠ []) :
    ∃ c, s.choice = some c ∧ (s.ch c).state = .requested := by
  obtain ⟨⟨zeroFree, -⟩, ⟨-, queued⟩, -, -⟩ := ruled
  by_cases rotate : s.rotates = true
  · obtain ⟨before, c, after, chosen, split, -⟩ := rotatedChoice_first rotate
    exact ⟨c, chosen, (queued c).mp (by simp [split])⟩
  · obtain ⟨before, c, after, chosen, split, -⟩ :=
      ordinaryChoice_lowest (fun d mem zero => (zeroFree d zero).1 ((queued d).mp mem)) waits
    exact ⟨c, (if_neg rotate).trans chosen, (queued c).mp (by simp [split])⟩

variable (h : Ran n din r s q) (ruled : s.AdmissionRuled) (still : ∀ c, ¬s.InputMoves din c)
  (isolated : q.state.link.isolated = s.link.isolated)
  (stands : ∀ c, ¬Fell (s.cfg c) (s.ch c).demandLevel (q.spot c))
include h ruled still isolated stands

/-- A claim in SETTLING is granted where it passes by the figures of the end, and otherwise given up (R144–R146). -/
theorem Ran.decides {x : Claim} (claim : s.sched.ordinary = some x) (settling : x.phase = .settling)
    (window : 1 ≤ (s.cfg x.chan).window) :
    (q.state.ClaimPasses x → q.state.sched.ordinary = some { x with phase := .held } ∧ (q.state.ch x.chan).state = .inrush) ∧
    (¬q.state.ClaimPasses x → q.state.sched.ordinary = none ∧ q.state.sched.deferral = 2 + s.own.val % 4 ∧
      (q.state.ch x.chan).state = .requested) := by
  have waits : (s.ch x.chan).state = .requested := by
    have := ruled.2.2.1 x claim
    rwa [if_neg (by simp [settling])] at this
  have own (y : Claim) (hy : r.admitted = some y) : y = x := Option.some.inj ((h.admitted y hy).1.symm.trans claim)
  rcases h.reaches.decided (still x.chan) settling claim waits window own h.decided (stands x.chan) with
    ⟨⟨w, before, run, evaluated, admits⟩, held⟩ | ⟨⟨w, before, run, evaluated, fails⟩, refused⟩
  · have passes := (Reaches.claimPasses_iff before run evaluated isolated x).mp admits
    exact ⟨fun _ => held, fun fails => absurd passes fails⟩
  · have test := Reaches.claimPasses_iff before run evaluated isolated x
    exact ⟨fun passes => by simp [test.mpr passes] at fails, fun _ => refused⟩

/-- Where no claim stands and the counts are 0, a channel that waits is claimed (R140, R141). -/
theorem Ran.selects (claim : s.sched.ordinary = none) (waits : s.sched.queue ≠ []) (deferral : q.state.sched.deferral = 0)
    (listen : q.state.sched.listen = 0) (settle : q.state.budget.settle = 0) :
    ∃ y, q.state.sched.ordinary = some y ∧ (q.state.ch y.chan).state = .requested ∧
      y.phase = (if q.state.link.muted = true ∨ q.state.link.isolated = true ∨ q.state.loader.runMode = .limp then .settling
        else .pendingTx) := by
  have quiet : r.admitted = none := by
    cases admitted : r.admitted with
    | none => rfl
    | some y => cases claim.symm.trans (h.admitted y admitted).1
  obtain ⟨u, v, before, step, ⟨early, now⟩, rest⟩ := h.reaches.splits (by simp) (h.taken .admission (by decide))
  obtain ⟨decided, evaluated, selects⟩ := step.selection early now
  have stood := (Stood.start n din s).reaches before
  have after := stood.takes step
  have whole : Reaches n din r ⟨[], [], s⟩ v := before.tail step
  have tail : Reaches n din r u q := .head step rest
  have atHead (w : Point) (run : Reaches n din r ⟨[], [], s⟩ w) (c : Chan) : Heard (s.ch c).demandLevel (w.spot c) :=
    Reaches.heard (.start n din s [] []) (still c) (fun _ => rfl) run
  -- a selection may be made
  have may : u.state.maySelect = true := by
    refine u.state.maySelect_iff.mpr ⟨before.unclaimed claim early, ?_, ?_, ?_⟩
    · rw [← tail.deferral decided, deferral]
    · rw [← tail.epochKeeps.listen, listen]
    · rw [← (tail.evaluated stood.ordered evaluated).settle, settle]
  have ruledNow := before.ruled quiet ruled
  -- a channel that waited waits still
  obtain ⟨c, mem⟩ := List.exists_mem_of_ne_nil _ waits
  have stillWaits : (u.state.ch c).state = .requested :=
    (Reaches.waits (.start n din s [] []) (still c) (fun _ => rfl) before quiet ((ruled.2.1.2 c).mp mem)).resolve_right
      fun fell => stands c (Reaches.fell stood.foresees (still c) tail fell)
  obtain ⟨d, chosen, requested⟩ := ruledNow.chooses (List.ne_nil_of_mem ((ruledNow.2.1.2 c).mpr stillWaits))
  -- and the claim to the one chosen stands
  have claimed : v.state.sched.ordinary = some (u.state.claimOf d) := by
    rw [selects, select_of_choice may chosen]
  have is (w : Point) (run : Reaches n din r v w) (left : Reaches n din r w q) : (w.state.ch d).state = .requested := by
    refine (Reaches.waits after.foresees (still d) (atHead v whole d) run quiet ?_).resolve_right fun fell =>
      stands d (Reaches.fell (after.reaches run).foresees (still d) left fell)
    rw [selects, ch_congr (s := u.state) (by rw [select_talks])]
    exact requested
  refine ⟨u.state.claimOf d, rest.claim_stays (.inl rfl) (step.done_subset decided) claimed is, is q rest .refl, ?_⟩
  have same : q.state.link.isolated = u.state.link.isolated := by
    have first := before.epochKeeps.isolated
    have last := tail.epochKeeps.isolated
    rw [isolated] at last ⊢
    exact Bool.eq_iff_iff.mpr ⟨first, last⟩
  rw [tail.epochKeeps.muted, same, tail.epochKeeps.loader]
  exact if_congr u.state.alone_iff rfl rfl

end

/-! ### The epoch start as a whole -/

section
variable {n m : Nat} {charge first : Bool} {din : DinLevels} {r : Ruling} {s : State} {q : Point}

theorem inputMoves_begun (c : Chan) : (s.begun m charge first).InputMoves din c ↔ s.InputMoves din c := by
  have begun := begun_spec m charge first s
  exact inputMoves_congr begun.loader (by rw [begun.table]) (by rw [begun.table]) din

/-- The Scheduler's part of an epoch start (R139–R147). -/
theorem Ran.epochDecides (h : Ran n din r (s.begun m charge first) q) (hm : m ≤ 255) (retry : ∀ c, 1 ≤ (s.cfg c).retryBase) :
    s.EpochDecides q.state din := by
  intro ruled same isolated windows demands
  have begun := begun_spec m charge first s
  have cfg (c : Chan) : (s.begun m charge first).cfg c = s.cfg c := cfg_congr begun.loader c
  have ruledNow : (s.begun m charge first).AdmissionRuled :=
    (admissionRuled_iff _).mpr ((begun_runs m charge first hm s).keepsAdmits ((admissionRuled_iff s).mp ruled))
  have still (c : Chan) : ¬(s.begun m charge first).InputMoves din c := fun moves =>
    inputMoves_self s c (same ▸ (inputMoves_begun c).mp moves)
  have isolatedNow : q.state.link.isolated = (s.begun m charge first).link.isolated := by
    have head := begun.isolated
    have tail := h.reaches.epochKeeps.isolated
    simp only [isolated] at tail ⊢
    exact Bool.eq_iff_iff.mpr ⟨head, tail⟩
  have level (c : Chan) : ((s.begun m charge first).ch c).demandLevel = (s.ch c).demandLevel := by
    rw [begun.ch c]
    exact Channel.begun_demandLevel (retry c)
  have stands (c : Chan) : ¬Fell ((s.begun m charge first).cfg c) ((s.begun m charge first).ch c).demandLevel (q.spot c) := by
    rintro ⟨-, was, is⟩
    rw [level, cfg] at was
    rw [cfg] at is
    exact absurd (demands c was) (by simpa [Point.spot] using is)
  refine ⟨fun x claim settling => ?_, fun claim waits deferral listen settle => ?_⟩
  · have waits : (s.ch x.chan).state = .requested := by
      have := ruled.2.2.1 x claim
      rwa [if_neg (by simp [settling])] at this
    have := h.decides ruledNow still isolatedNow stands (begun_claim m charge first claim waits) settling (by rw [cfg]; exact windows _)
    rwa [own_congr begun.loader] at this
  · obtain ⟨c, mem⟩ := List.exists_mem_of_ne_nil _ waits
    have stillWaits := begun_waits m charge first c ((ruled.2.1.2 c).mp mem)
    exact h.selects ruledNow still isolatedNow stands (begun_keepsNone m charge first claim)
      (List.ne_nil_of_mem ((ruledNow.2.1.2 c).mpr stillWaits)) deferral listen settle

end

end Sys2Proof.Machine


/-! The Turn-On Queue through an epoch start that ends a cut (R20, R139): it holds the channels in ascending number. -/

namespace Sys2Proof.Machine

/-- The queue is as it was where every channel is in the state it was in. -/
def State.QueueHolds (s t : State) : Prop := (∀ c, (t.ch c).state = (s.ch c).state) → t.sched.queue = s.sched.queue

/-- An event at channel `c`: the other channels keep their states, and with that of `c` the queue stands. -/
structure State.QueuesAt (c : Chan) (s t : State) : Prop where
  others : ∀ d, d ≠ c → (t.ch d).state = (s.ch d).state
  queue : (t.ch c).state = (s.ch c).state → t.sched.queue = s.sched.queue

/-- The states of the channels and the queue are as they were. -/
structure State.Lined (s t : State) : Prop where
  state : ∀ c, (t.ch c).state = (s.ch c).state := by exact fun _ => rfl
  queue : t.sched.queue = s.sched.queue := by rfl

section
variable {c : Chan} {s t u : State}

theorem State.Lined.trans (h : s.Lined t) (g : t.Lined u) : s.Lined u :=
  ⟨fun c => (g.state c).trans (h.state c), g.queue.trans h.queue⟩

theorem State.Lined.holds (h : s.Lined t) : s.QueueHolds t := fun _ => h.queue

theorem State.Lined.at (h : s.Lined t) (c : Chan) : s.QueuesAt c t := ⟨fun d _ => h.state d, fun _ => h.queue⟩

theorem State.QueuesAt.after (g : t.QueuesAt c u) (h : s.Lined t) : s.QueuesAt c u :=
  ⟨fun d hd => (g.others d hd).trans (h.state d), fun same => (g.queue (same.trans (h.state c).symm)).trans h.queue⟩

theorem State.QueuesAt.andThen (h : s.QueuesAt c t) (g : t.Lined u) : s.QueuesAt c u :=
  ⟨fun d hd => (g.state d).trans (h.others d hd), fun same => g.queue.trans (h.queue ((g.state c).symm.trans same))⟩

theorem State.QueuesAt.holds (h : s.QueuesAt c t) : s.QueueHolds t := fun same => h.queue (same c)

theorem State.QueueHolds.after (g : t.QueueHolds u) (h : s.Lined t) : s.QueueHolds u := fun same =>
  (g fun c => (same c).trans (h.state c).symm).trans h.queue

theorem State.QueueHolds.andThen (h : s.QueueHolds t) (g : t.Lined u) : s.QueueHolds u := fun same =>
  g.queue.trans (h fun c => (g.state c).symm.trans (same c))

theorem ite_queuesAt {p : Prop} [Decidable p] (h : p → s.QueuesAt c t) : s.QueuesAt c (if p then t else s) := by
  split
  next hp => exact h hp
  next => exact State.Lined.at {} c

/-- An event at each channel in turn. -/
theorem forChans_queueHolds {f : Chan → State → State} (h : ∀ (c : Chan) (s : State), s.QueuesAt c (f c s)) (s : State) :
    s.QueueHolds (forChans f s) := by
  have all (l : List Chan) (once : l.Nodup) (u : State) : u.QueueHolds (l.foldl (fun s c => f c s) u) ∧
      ∀ d, d ∉ l → ((l.foldl (fun s c => f c s) u).ch d).state = (u.ch d).state := by
    induction l generalizing u with
    | nil => exact ⟨fun _ => rfl, fun _ _ => rfl⟩
    | cons c rest ih =>
      obtain ⟨apart, once⟩ := List.nodup_cons.mp once
      obtain ⟨queue, others⟩ := ih once (f c u)
      have first := h c u
      refine ⟨fun same => ?_, fun d hd => ?_⟩
      · have own : ((f c u).ch c).state = (u.ch c).state := (others c apart).symm.trans (same c)
        refine (queue fun d => ?_).trans (first.queue own)
        by_cases e : d = c
        · rw [e, own]
          exact e ▸ same d
        · exact (same d).trans (first.others d e).symm
      · obtain ⟨other, absent⟩ := not_or.mp (mt List.mem_cons.mpr hd)
        exact (others d absent).trans (first.others d other)
  exact (all allChans allChans_nodup s).1

variable (c s)

theorem updCh_lined {f : Channel → Channel} (h : (f (s.ch c)).state = (s.ch c).state) : s.Lined (s.updCh c f) where
  state d := by
    rw [State.updCh_ch]
    split
    next e => rw [e, h]
    next => rfl

/-- A change of state. -/
theorem enter_queuesAt (st : ChState) (r : ShedReason) (changes : (s.ch c).state ≠ st) : s.QueuesAt c (enter c st r s) where
  others d hd := by rw [enter_state, if_neg hd]
  queue same := by
    rw [enter_state, if_pos rfl] at same
    exact absurd same.symm changes

theorem switchOn_queuesAt (idle : (s.ch c).state ≠ .requested ∧ (s.ch c).state ≠ .inrush) : s.QueuesAt c (switchOn c s) := by
  unfold switchOn
  split
  · exact enter_queuesAt c s _ _ idle.2
  · exact enter_queuesAt c s _ _ idle.1

theorem deliver_queuesAt (level : Nat) : s.QueuesAt c (deliver c level s) := by
  unfold deliver
  extract_lets mode was is s1 s2 kept
  have first : s.Lined s1 := updCh_lined c s rfl
  have ite {p : Prop} [Decidable p] {v w : State} (h : v.Lined w) : v.Lined (if p then w else v) := by
    split
    · exact h
    · exact {}
  have begun : s.Lined s2 := first.trans (ite (updCh_lined c s1 rfl))
  have again : s.QueuesAt c kept := (begun.trans (updCh_lined c s2 rfl)).at c
  have state := begun.state c
  clear_value s2 kept
  split
  next off =>
    split
    · exact (switchOn_queuesAt c s2 (by simp [state, off])).after begun
    · exact again
  next => exact again
  next off cut =>
    split
    · refine (enter_queuesAt c s2 _ _ fun is => ?_).after begun
      exact off (state.symm.trans is)
    · exact again

theorem trip_queuesAt (k : FaultKind) (current step : Nat) : s.QueuesAt c (trip c k current step s) := by
  unfold trip
  refine ite_queuesAt fun live => ?_
  extract_lets d s1
  have recorded : s.Lined s1 := updCh_lined c s rfl
  have entered : s1.QueuesAt c (enter c (if d.delay.isSome = true then .tripped else .latched) .none s1) := by
    refine enter_queuesAt c s1 _ _ fun is => ?_
    rw [recorded.state c] at is
    split at is <;> simp [is, ChState.live] at live
  generalize enter c _ .none s1 = v at entered ⊢
  exact (entered.after recorded).andThen {}

theorem windowEnd_queuesAt : s.QueuesAt c (windowEnd c s) := by
  unfold windowEnd
  refine ite_queuesAt fun ended => ?_
  simp only [Bool.and_eq_true, decide_eq_true_eq] at ended
  have passes : s.QueuesAt c (enter c .on .none s) := enter_queuesAt c s _ _ (by simp [ended.1])
  split
  · split
    · exact trip_queuesAt c s _ _ _
    · exact passes
  · exact passes

theorem retryDue_queuesAt : s.QueuesAt c (retryDue c s) := by
  unfold retryDue retryAtChannel
  have stopped : s.Lined (s.updCh c fun x => { x with retryTimer := none }) := updCh_lined c s rfl
  refine ite_queuesAt fun _ => State.QueuesAt.after (ite_queuesAt fun due => ?_) stopped
  simp only [Bool.and_eq_true, decide_eq_true_eq] at due
  have tripped := due.1
  rw [stopped.state c] at tripped
  refine switchOn_queuesAt c _ ?_
  rw [stopped.state c]
  simp [tripped]

variable {c}

theorem publish_lined : s.Lined (publish s) := by
  unfold publish
  split <;> exact {}

theorem resolve_queueHolds (test : Chan → Bool) : s.QueueHolds (resolve test s) := by
  refine forChans_queueHolds (fun c u => ite_queuesAt fun _ => ?_) s
  unfold resolveOne
  split
  · exact State.Lined.at {} c
  · exact deliver_queuesAt c u _

theorem readInputs_queueHolds (din : DinLevels) : s.QueueHolds (readInputs din s) := by
  unfold readInputs
  split
  · exact State.Lined.holds {}
  · have read : s.Lined (s.setSignal { s.signal with inputs := din }) := {}
    exact ((resolve_queueHolds _ _).after read).andThen (publish_lined _)

theorem runTask_queueHolds {t : EpochTask} (n : Nat) (din : DinLevels) (hb : t ≠ .budget) (ha : t ≠ .admission) (hs : t ≠ .supplyTest) :
    s.QueueHolds (runTask n din t s) := by
  cases t with
  | budget => exact absurd rfl hb
  | admission => exact absurd rfl ha
  | supplyTest => exact absurd rfl hs
  | readInputs => exact readInputs_queueHolds s din
  | signals =>
    simp only [runTask, resolveAll]
    exact resolve_queueHolds s _
  | windowEnds =>
    simp only [runTask, windowEnds]
    exact forChans_queueHolds windowEnd_queuesAt s
  | retries =>
    simp only [runTask, retries]
    exact forChans_queueHolds retryDue_queuesAt s
  | attemptResets =>
    simp only [runTask, attemptResets]
    exact forChans_queueHolds (fun c u => ite_queuesAt fun _ => (updCh_lined c u (f := Channel.resetAttempts) rfl).at c) s
  | loadDuties =>
    simp only [runTask, loadDuties]
    exact State.Lined.holds { state := fun c => by simp }
  | closeMeasurement =>
    simp only [runTask, closeMeasurement]
    exact State.Lined.holds { state := fun c => by simp }
  | peerPresence | holdRemovals =>
    simp only [runTask, peerPresence, removeRunOut]
    exact State.Lined.holds { state := fun c => by simp }
  | publication =>
    simp only [runTask, periodicPublication]
    split
    · exact (publish_lined s).holds
    · exact State.Lined.holds {}
  | isolation =>
    simp only [runTask, isolationDue]
    split <;> exact State.Lined.holds {}

end

section
variable {n : Nat} {din : DinLevels} {r : Ruling} {p q : Point}

theorem select_queue (s : State) : (select s).sched.queue = s.sched.queue := by
  unfold select
  split
  · split
    · simp only []
      split_ifs <;> rfl
    · rfl
  · rfl

/-- Where no claim is admitted, the queue changes with the states of the channels alone, once the supply is tested. -/
theorem Takes.queueHolds (h : Takes n din r p q) (quiet : r.admitted = none) (tested : .taken .supplyTest ∈ p.done) :
    p.state.QueueHolds q.state := by
  have still {s t : State} (e : t.sched.queue = s.sched.queue) : s.QueueHolds t := fun _ => e
  cases h with
  | part t hb ha once => exact runTask_queueHolds _ n din hb ha fun e => once (e ▸ by decide) (e ▸ tested)
  | forms | shares | settles | status | idles => exact still rfl
  | sheds c reason =>
    refine State.QueuesAt.holds (c := c) (ite_queuesAt fun orderable => enter_queuesAt c _ _ _ ?_)
    simp [((orderable_iff c _).mp orderable).1]
  | throttles c cap =>
    unfold throttle
    refine State.QueuesAt.holds (c := c) (ite_queuesAt fun orderable => ?_)
    split
    · exact (updCh_lined c _ rfl).at c
    · refine enter_queuesAt c _ _ _ ?_
      simp [((orderable_iff c _).mp (Bool.and_eq_true_iff.mp orderable).1).1]
  | raises c by_ => exact State.QueuesAt.holds (c := c) (ite_queuesAt fun _ => (updCh_lined c _ rfl).at c)
  | restores c => exact State.QueuesAt.holds (c := c) (ite_queuesAt fun shed => switchOn_queuesAt c _ (by simp [shed]))
  | grants x admitted => cases quiet.symm.trans admitted
  | holds x _ _ _ admitted => cases quiet.symm.trans admitted
  | refuses x => exact still (by rw [refuse_eq])
  | selects => exact still (select_queue _)

end

end Sys2Proof.Machine


namespace Sys2Proof.Machine

/-! ### An epoch start that ends the cut of SUPPLY -/

section
variable {n : Nat} {k : ChannelConfig} {g : Prospect} {p q : Spot}

/-- After the resolution the demand level stands. -/
theorem Undergoes.level_resolved (still : ¬g.moves) (h : Undergoes n k g p q) (late : .taken .signals ∈ p.done) :
    q.now.demandLevel = p.now.demandLevel := by
  have both : .taken .signals ∈ q.done ∧ q.now.demandLevel = p.now.demandLevel := by
    refine h.keeps (P := fun q => .taken .signals ∈ q.done ∧ q.now.demandLevel = p.now.demandLevel) (fun u v last ⟨late, same⟩ => ?_)
      ⟨late, rfl⟩
    rcases last.level still with ⟨iff, e⟩ | ⟨early, -⟩
    · exact ⟨iff.mpr late, e.trans same⟩
    · exact absurd late early
  exact both.2

end

section
variable {n : Nat} {din : DinLevels} {r : Ruling} {s : State} {p q : Point}

/-- Where the demand level ends as it began, it stands throughout. -/
theorem Reaches.level_stands (before : Reaches n din r ⟨[], [], s⟩ p) (after : Reaches n din r p q) (c : Chan)
    (still : ¬s.InputMoves din c) (same : (q.state.ch c).demandLevel = (s.ch c).demandLevel) :
    (p.state.ch c).demandLevel = (s.ch c).demandLevel := by
  by_cases late : .taken .signals ∈ p.done
  · have foresees := ((Stood.start n din s).reaches before).foresees
    exact (Undergoes.level_resolved still (after.undergoes c foresees) late).symm.trans same
  · exact Reaches.heard (.start n din s [] []) still (level := (s.ch c).demandLevel) (fun _ => rfl) before late

/-- The step at which the supply is tested. -/
theorem Takes.test (h : Takes n din r p q) (early : .taken .supplyTest ∉ p.done) (late : .taken .supplyTest ∈ q.done) :
    q.state = testSupply n p.state := by
  cases h with
  | part t =>
    rcases List.mem_cons.mp late with e | is
    · cases e
      rfl
    · exact absurd is early
  | _ => exact absurd (by simpa using late) early

theorem supplyEnds_leaves (ends : s.SupplyEnds n) : ∃ u : State, testSupply n s = cutEnds u ∧ u.loader = s.loader ∧
    u.sched = s.sched ∧ ∀ c, u.ch c = s.ch c := by
  obtain ⟨supply, passes, cuts⟩ := ends
  have moved : (decide (s.sense.supply = .cut) && decide
      (supplyAfterMean s.sense.supply (s.sense.supplySum / n) s.params.vLow s.params.vCut ≠ .cut)) = true := by simp [supply, passes]
  have stood : s.cuts.isEmpty = false := by simp [cuts, CutCauses.isEmpty]
  unfold testSupply
  simp only []
  rw [if_pos moved]
  generalize hv : s.setSense _ = v
  have same : v.cuts = s.cuts := by simp [← hv]
  rw [setSupplyCause, changeCauses_leaves (same ▸ stood), if_pos (by simp [same, cuts, CutCauses.isEmpty])]
  exact ⟨_, rfl, by simp [← hv, State.setCauses], by simp [← hv, State.setCauses], fun c => by simp [← hv]⟩

/-- Until the supply is tested every channel of a cut stays in CUT. -/
theorem Reaches.dark (h : Reaches n din r ⟨[], [], s⟩ q) (dark : ∀ c, (s.ch c).state = .cut) (ends : s.SupplyEnds n)
    (early : .taken .supplyTest ∉ q.done) (c : Chan) : (q.state.ch c).state = .cut := by
  have run := h.undergoes c (.start n din s [] [])
  have both : .taken .supplyTest ∈ (q.spot c).done ∨ (q.spot c).now.state = .cut := by
    refine run.keeps (P := fun w => .taken .supplyTest ∈ w.done ∨ w.now.state = .cut) (fun u v last hu => ?_) (.inr (dark c))
    by_cases late : .taken .supplyTest ∈ u.done
    · exact .inl (last.done_subset late)
    · rcases last.uncut ends late (hu.resolve_left late) with ⟨-, cut⟩ | ⟨late, -⟩
      · exact .inr cut
      · exact .inl late
  exact both.resolve_left early

variable (dark : ∀ c, (s.ch c).state = .cut) (ends : s.SupplyEnds n) (quiet : r.admitted = none)
  (window : ∀ c, 1 ≤ (s.cfg c).window)
include dark ends quiet window

/-- Every channel is freed, and stays so. -/
theorem Reaches.freed (h : Reaches n din r ⟨[], [], s⟩ q) (tested : .taken .supplyTest ∈ q.done) (c : Chan) :
    (q.state.ch c).Freed (s.cfg c) :=
  Undergoes.freed (window c) (show (s.prospect n din r c).ends from ends) (by simp [State.prospect, quiet])
    (h.undergoes c (.start n din s [] [])) (by simp [Point.spot]) (dark c) tested

/-- Where the levels end as they began, the queue holds the freed channels that wait, in ascending number (R20, R139). -/
theorem Reaches.queue_freed (h : Reaches n din r ⟨[], [], s⟩ q) (still : ∀ c, ¬s.InputMoves din c) (ruled : s.AdmissionRuled)
    (same : ∀ c, (q.state.ch c).demandLevel = (s.ch c).demandLevel) (tested : .taken .supplyTest ∈ q.done) :
    q.state.sched.queue = allChans.filter fun c => (q.state.ch c).state = .requested := by
  obtain ⟨u, v, before, step, ⟨early, now⟩, rest⟩ := h.splits (by simp) tested
  have whole : Reaches n din r ⟨[], [], s⟩ v := before.tail step
  have stood := (Stood.start n din s).reaches before
  have first : v.state.sched.queue = allChans.filter fun c => (v.state.ch c).state = .requested := by
    have cut := before.dark dark ends early
    have none_ : u.state.sched.queue = [] := List.eq_nil_iff_forall_not_mem.mpr fun c mem => by
      have := ((before.ruled quiet ruled).2.1.2 c).mp mem
      cases this.symm.trans (cut c)
    obtain ⟨w, e, loader, sched, ch⟩ := supplyEnds_leaves ((stood.foresees.ends early).mpr ends)
    have progress := cutEnds_progress (s := w) fun c => ch c ▸ cut c
    rw [← e, ← step.test early now] at progress
    have all : allChans.take 16 = allChans := List.take_of_length_le (by simp [allChans])
    rw [progress.queue, all, sched, none_, List.nil_append]
    refine List.filter_congr fun c _ => ?_
    rw [progress.channels c, if_pos c.isLt, decide_eq_decide, Channel.retaken_requested_iff]
  clear h tested
  induction rest with
  | refl => exact first
  | @tail w x run last ih =>
    have run : Reaches n din r v w := run
    have upTo : Reaches n din r ⟨[], [], s⟩ w := whole.trans run
    have level (c : Chan) := upTo.level_stands (.single last) c (still c) (same c)
    have done := run.done_subset now
    have states (c : Chan) : (x.state.ch c).state = (w.state.ch c).state := by
      rw [(Reaches.freed dark ends quiet window (upTo.tail last) (last.done_subset done) c).state,
        (Reaches.freed dark ends quiet window upTo done c).state, same c, level c]
    rw [last.queueHolds quiet done states, ih level]
    simp only [states]

end

section
variable {n m : Nat} {charge first : Bool} {din : DinLevels} {r : Ruling} {s : State} {q : Point}

/-- The head leaves a channel in CUT. -/
theorem begun_dark (retry : ∀ c, 1 ≤ (s.cfg c).retryBase) (c : Chan) (dark : (s.ch c).state = .cut) :
    ((s.begun m charge first).ch c).state = .cut := by
  rw [(begun_spec m charge first s).ch c, Channel.countEpoch_state,
    (Channel.begun_waits (retry c) (by simp [dark]) (by simp [dark])).state, dark]

/-- An epoch start whose mean ends the cut of SUPPLY, or does not (R20, R62). -/
theorem Ran.supplyCutEnds (h : Ran n din r (s.begun m charge first) q) (hm : m ≤ 255) (retry : ∀ c, 1 ≤ (s.cfg c).retryBase)
    (window : ∀ c, 1 ≤ (s.cfg c).window) : s.SupplyCutEnds q.state din := by
  intro ⟨caused, _, cut⟩ ruled low
  have begun := begun_spec m charge first s
  have stood := h.stood
  have tested : .taken .supplyTest ∈ q.done := h.taken .supplyTest (by decide)
  have dark (c : Chan) : (s.ch c).state = .cut := (cut c).mpr (by simp [CutCauses.isEmpty, caused.mpr low])
  have darkNow (c : Chan) : ((s.begun m charge first).ch c).state = .cut := begun_dark retry c (dark c)
  have cfg (c : Chan) : (s.begun m charge first).cfg c = s.cfg c := cfg_congr begun.loader c
  have ruledNow : (s.begun m charge first).AdmissionRuled :=
    (admissionRuled_iff _).mpr ((begun_runs m charge first hm s).keepsAdmits ((admissionRuled_iff s).mp ruled))
  have quiet : r.admitted = none := by
    cases admitted : r.admitted with
    | none => rfl
    | some y =>
      have claim := ruledNow.2.2.1 y (h.admitted y admitted).1
      rw [darkNow] at claim
      split at claim <;> cases claim
  obtain ⟨after, -, leaves⟩ := stood.sensed.after tested
  have lowNow : (s.begun m charge first).sense.supply = .cut := by rw [begun.sense, low]
  have isolate : q.state.cuts.isolate = s.cuts.isolate := by rw [stood.keeps.isolate, begun.cuts]
  refine ⟨fun stays c => ?_, fun passes free => ?_⟩
  · refine (h.undergoes c).stays_cut (fun ends => ?_) (darkNow c)
    obtain ⟨-, passes, causes⟩ := ends
    rcases stays with stays | stays
    · rw [lowNow] at after
      exact passes (after.symm.trans stays)
    · rw [begun.cuts] at causes
      simp [causes] at stays
  · have ends : (s.begun m charge first).SupplyEnds n := by
      refine ⟨lowNow, ?_, ?_⟩
      · rw [lowNow] at after
        exact after ▸ passes
      · rw [begun.cuts]
        exact (CutCauses.mk.injEq ..).mpr ⟨free, caused.mpr low⟩
    refine ⟨(CutCauses.mk.injEq ..).mpr ⟨isolate.trans free, leaves lowNow passes⟩, fun c => ?_, ?_, fun same levels => ?_⟩
    · obtain ⟨state, remaining, duty, shadow, cap, reason⟩ :=
        h.reaches.freed darkNow ends quiet (fun c => cfg c ▸ window c) tested c
      rw [cfg] at state remaining
      intro wants surges
      have inrush : (q.state.ch c).state = .inrush ↔ surges := by
        simp only [state, surges, wants]
        grind
      refine ⟨?_, by rw [remaining]; exact if_congr inrush rfl rfl, by rw [duty]; exact if_congr inrush rfl rfl, shadow, cap, reason⟩
      simp only [state, surges, wants]
      grind
    · have announced := ((admissionRuled_iff _).mp (h.reaches.ruled quiet ruledNow)).announce
      rw [announced]
      exact surgeAmount_eq fun d => (cfg_congr stood.keeps.loader d).trans (cfg d)
    · have still (c : Chan) : ¬(s.begun m charge first).InputMoves din c := fun moves =>
        inputMoves_self s c (same ▸ (inputMoves_begun c).mp moves)
      refine h.reaches.queue_freed darkNow ends quiet (fun c => cfg c ▸ window c) still ruledNow (fun c => ?_) tested
      rw [levels c, begun.ch c]
      exact (Channel.begun_demandLevel (retry c)).symm

end

end Sys2Proof.Machine


/-! An epoch start as a whole (R32): what it counts, what it closes, and what it leaves. -/

namespace Sys2Proof.Machine

section
variable {n m : Nat} {charge first : Bool} {din : DinLevels} {r : Ruling} {s : State} {q : Point}

/-- The deferral count moves by a refusal alone (R146). -/
theorem Reaches.deferral_moves (h : Reaches n din r ⟨[], [], s⟩ q) : q.state.sched.deferral = s.sched.deferral ∨
    q.state.sched.deferral = 2 + s.own.val % 4 ∧ ∃ x, s.sched.ordinary = some x ∧ x.phase = .settling := by
  induction h with
  | refl => exact .inl rfl
  | @tail u v run last ih =>
    have run : Reaches n din r ⟨[], [], s⟩ u := run
    rcases deferral_eventsKeep.takes last with same | decides
    · rw [same]
      exact ih
    · cases decides with
      | status | holds => exact ih
      | refuses x hx hp fails admitted evaluated early =>
        obtain ⟨y, hy, rfl | rfl⟩ := run.claimed early x hx
        · rw [refuse_eq, own_congr run.loader]
          exact .inr ⟨rfl, x, hy, hp⟩
        · cases hp
      | selects =>
        rw [select_deferral]
        exact ih

/-- A claim in SETTLING at the head was one before it. -/
theorem begun_settling {x : Claim} (claim : (s.begun m charge first).sched.ordinary = some x) (settling : x.phase = .settling) :
    s.sched.ordinary = some x := by
  rw [begun_ordinary] at claim
  obtain ⟨q, run, state, early, -⟩ := settleWaits_quiet s
  obtain ⟨y, hy, rfl | rfl⟩ := run.claimed early x (state ▸ claim)
  · exact hy
  · cases settling

theorem StoreEntry.grow_eq (e : StoreEntry) (lifetime : Nat) : e.grow lifetime = { e with
    age := min 255 (e.age + 1)
    state := if e.state = .fresh ∧ lifetime ≤ min 255 (e.age + 1) then .expired else e.state } := by
  unfold StoreEntry.grow StoreEntry.expire
  simp only [Bool.and_eq_true, decide_eq_true_eq]
  split <;> rfl

variable (h : Ran n din r (s.begun m charge first) q)
include h

theorem Ran.cfg (c : Chan) : q.state.cfg c = s.cfg c :=
  (cfg_congr h.reaches.loader c).trans (cfg_congr (begun_spec m charge first s).loader c)

/-- The run at one channel, from the channel as it was before the head. -/
theorem Ran.undergoes_begun (c : Chan) : Undergoes n (s.cfg c) ((s.begun m charge first).prospect n din r c)
    ⟨[], false, (s.ch c).begun (s.cfg c) s.timer.number⟩ ⟨q.done, q.capped.contains c, q.state.ch c⟩ := by
  have run := h.undergoes c
  rwa [(begun_spec m charge first s).ch c, cfg_congr (begun_spec m charge first s).loader c] at run

omit h in
theorem begun_still {c : Chan} (same : din = s.signal.inputs) : ¬((s.begun m charge first).prospect n din r c).moves := fun moves =>
  inputMoves_self s c (same ▸ (inputMoves_begun c).mp moves)

theorem Ran.announceHold (retry : ∀ c, 1 ≤ (s.cfg c).retryBase) (window : ∀ c, 1 ≤ (s.cfg c).window) :
    q.state.sched.announceHold = s.SurgeSpan q.state ∨
      first = true ∧ 0 < s.SurgeSpan q.state ∧ q.state.sched.announceHold = s.SurgeSpan q.state + 1 := by
  rw [← surgeHold_eq h.cfg]
  rcases h.reaches.holdFollows with follows | ⟨hold, surge⟩
  · exact .inl follows
  · have head := begun_announceHold m charge first s
    rw [hold, surge]
    split at head
    next counted =>
      rw [head]
      exact (begun_surgeHold s m charge first window retry).imp_right fun more => ⟨counted, more⟩
    next => exact .inl head

/-- What an epoch start counts (R12, R54, R75, R104, R146, R149). -/
theorem Ran.epochCounted (retry : ∀ c, 1 ≤ (s.cfg c).retryBase) (window : ∀ c, 1 ≤ (s.cfg c).window) :
    s.EpochCounted q.state din first := by
  have begun := begun_spec m charge first s
  have heeded := h.stood.heeded
  have publishes : (s.begun m charge first).publishes = s.publishes := by
    rw [State.publishes, State.publishes, params_congr begun.loader, begun.loader]
  have inputs : (s.begun m charge first).signal.inputs = s.signal.inputs := by rw [begun.table]
  have count := begun.pubCount
  unfold State.EpochCounted
  extract_lets loud next
  have silent (quiet : ¬loud) : s.publishes = false := by
    rw [← Bool.not_eq_true, publishes_iff]
    exact quiet
  have speaks (is : loud) : s.publishes = true := (publishes_iff s).mpr is
  refine ⟨fun c => ?_, ?_, fun quiet => ?_, fun is moved => ?_, fun is same => ?_, h.announceHold retry window⟩
  · have run := h.undergoes_begun c
    exact ⟨run.begun_remaining (retry c), fun was runs same wants => run.begun_inrush (retry c) (begun_still same) was runs wants,
      fun k timer was is => run.begun_timer (retry c) (window c) timer was is,
      fun was is _ => run.begun_onEpochs (retry c) (window c) was is, run.begun_offEpochs⟩
  · rw [← begun.deferral, ← own_congr begun.loader]
    refine h.reaches.deferral_moves.imp_right fun ⟨deferral, x, claim, settling⟩ => ⟨deferral, x, ?_, settling⟩
    exact begun_settling claim settling
  · rw [heeded.silent (publishes.trans (silent quiet)), count, if_neg (by simp [silent quiet])]
  · exact heeded.changed (publishes.trans (speaks is)) (inputs ▸ moved) (h.taken .readInputs (by decide))
  · rw [if_pos (speaks is)] at count
    rcases heeded.still (publishes.trans (speaks is)) (inputs ▸ same) with e | ⟨eight, zero⟩
    · exact .inl (e.trans count)
    · refine .inr ⟨?_, zero⟩
      rw [count] at eight
      change min 8 next = 8 at eight
      omega

/-- The inrush markers of an epoch start (R31, R45). -/
theorem Ran.markersMoved (retry : ∀ c, 1 ≤ (s.cfg c).retryBase) (window : ∀ c, 1 ≤ (s.cfg c).window)
    (pending : ∀ c, (s.ch c).pendingTerm = none) : s.MarkersMoved q.state din := by
  intro c x y falls
  have run := h.undergoes_begun c
  have closed : .taken .closeMeasurement ∈ q.done := h.taken .closeMeasurement (by decide)
  refine ⟨fun set => ((run.begun_measured (pending c)).after closed).2.2 set, fun is => run.inrushMarker (window c) nofun closed is,
    fun same out stands => ?_, fun same _ was last => ?_, fun same out stands clear waiting => ?_⟩
  · exact run.begun_clear (retry c) (window c) (begun_still same) closed out stands
  · exact run.begun_spent (retry c) (begun_still same) closed was last
  · exact run.begun_unmarked (retry c) (window c) (begun_still same) closed out stands clear waiting

/-- The duties an epoch start loads (R27). -/
theorem Ran.dutiesLoaded (retry : ∀ c, 1 ≤ (s.cfg c).retryBase) (window : ∀ c, 1 ≤ (s.cfg c).window) :
    s.EpochDutiesLoaded q.state din := fun c runs still state level shadow =>
  (h.undergoes_begun c).begun_loaded (retry c) (window c) (fun moves => still ((inputMoves_begun c).mp moves)) runs
    (h.taken .loadDuties (by decide)) state level shadow

/-- Every enabled channel ends at the level its bindings make (R72). -/
theorem Ran.allResolved : q.state.AllResolved := fun c enabled => by
  rw [h.stood.heeded.levels (h.taken .signals (by decide)) c (by rw [← cfg_congr h.reaches.loader c]; exact enabled)]
  exact levelIs_level _ c

/-- The epoch is closed, and the number `m` taken (R31, R44–R46, R59, R61, R62). -/
theorem Ran.epochClosed (pending : ∀ c, (s.ch c).pendingTerm = none) (step : s.modulator.step = 0)
    (supply : s.sense.pendingSupply = none) :
    s.EpochClosed q.state n m (fun c => (s.ch c).drawAcc) s.sense.supplySum := by
  have begun := begun_spec m charge first s
  have keeps := h.stood.keeps
  have sensed := h.stood.sensed
  have closed : .taken .closeMeasurement ∈ q.done := h.taken .closeMeasurement (by decide)
  obtain ⟨after, sum, -⟩ := sensed.after (h.taken .supplyTest (by decide))
  rw [begun.sense, params_congr begun.loader] at after
  refine ⟨by rw [keeps.timer, begun.timer], by rw [keeps.timer, begun.timer], by rw [keeps.timer, begun.timer], ?_, fun c => ?_,
    fun k => sensed.draws closed k, sum, by rw [sensed.pending, begun.sense, supply], ?_⟩
  · rw [keeps.modulator, begun.modulator, ← step]
  · have measured := (h.undergoes_begun c).begun_measured (pending c)
    obtain ⟨draw, acc, mark⟩ := measured.after closed
    exact ⟨draw, acc, measured.pending, mark⟩
  · rw [after]
    cases s.sense.supply <;> rfl

/-- What ages in an epoch start (R65, R71, R99, R104, R116, R138). -/
theorem Ran.epochAged : s.EpochAged q.state m s.link.silence s.sched.listen := by
  have begun := begun_spec m charge first s
  have keeps := h.stood.keeps
  refine ⟨?_, ?_, fun p => ?_, keeps.entries.trans begun.entries, keeps.silence.trans begun.silence, keeps.listen.trans begun.listen⟩
  · rw [keeps.table, begun.table]
    exact List.map_congr_left fun e _ => e.grow_eq _
  · rw [keeps.table, begun.table]
    simp [flashPhase]
  · obtain ⟨e, wanes, grown⟩ := begun.peers p
    rw [(keeps.peers p).age, grown, PeerEntry.grow, wanes.age]

end

end Sys2Proof.Machine


namespace Sys2Proof.Machine

/-! ### The frames and the rest of the link -/

/-- Two records of the Link Controller that differ in the slots, what stands behind them, and the two items of the silence alone. -/
theorem LinkController.eq_of_blank {l m : LinkController}
    (h : { m with isolated := l.isolated, silence := l.silence }.blank = l.blank) :
    m = { l with slots := m.slots, heldAside := m.heldAside, silence := m.silence, lineWithdrawn := m.lineWithdrawn
                 isolated := m.isolated } := by
  cases l
  cases m
  simpa [LinkController.blank] using h

section
variable {n m : Nat} {charge first : Bool} {din : DinLevels} {r : Ruling} {s : State} {q : Point}
  (h : Ran n din r (s.begun m charge first) q)
include h

/-- What an epoch start leaves of the Link Controller, the diagnostics, the cuts, the Loader and the bindings. -/
theorem Ran.epochFrame : s.EpochFrame s q.state := by
  have begun := begun_spec m charge first s
  have keeps := h.stood.keeps
  refine ⟨LinkController.eq_of_blank ?_, ?_, ?_, keeps.loader.trans begun.loader, ?_⟩
  · have tail := congrArg (fun l : LinkController => { l with isolated := s.link.isolated, silence := s.link.silence }) keeps.link
    exact (tail.trans begun.link :)
  · rw [keeps.diag, begun.diag]
  · rw [keeps.isolate, begun.cuts]
  · rw [keeps.table, begun.table]

omit h in
theorem isNew_begun (c : Chan) (new : (s.ch c).fault.isNew = true) : ((s.begun m charge first).ch c).fault.isNew = true := by
  have stands : (s.ch c).Stands ((s.ch c).settledWaits (s.cfg c) s.timer.number) := by
    unfold Channel.settledWaits
    exact ((Channel.windowEnded_stands _ _ _).trans (Channel.retriedDue_stands _ _)).trans (Channel.attemptsDue_stands _)
  rw [(begun_spec m charge first s).ch c]
  exact stands.new new

/-- Unless the link is MUTED the STATUS is handed over (R132). -/
theorem Ran.statusHandedOver (heard : s.link.muted = false) : s.StatusHandedOver q.state := by
  have begun := begun_spec m charge first s
  have muted : (s.begun m charge first).link.muted = false := by
    have same := congrArg LinkController.muted begun.link
    exact same.trans heard
  have handed := (Stood.start n din _).statusHandedOver h.reaches (by simp) (h.taken .budget (by decide)) muted
  exact handed.later {} rfl rfl rfl rfl rfl begun.isolated id (fun d => isNew_begun d) fun _ => id

/-- The own MARK stands in its slot, and behind itself on the line (R88). -/
theorem Ran.markStands : q.state.link.slots.mark = s.link.slots.mark ∧ (s.link.onLine = some .mark →
    q.state.link.heldAside = s.link.heldAside ∧ q.state.link.lineWithdrawn = s.link.lineWithdrawn) := by
  have begun := begun_spec m charge first s
  have keeps := h.stood.keeps
  refine ⟨keeps.markSlot.trans begun.markSlot, fun on => ?_⟩
  have line := congrArg LinkController.onLine begun.link
  obtain ⟨held, noted⟩ := begun.behindMark on
  obtain ⟨held', noted'⟩ := keeps.behindMark (line.trans on)
  exact ⟨held'.trans held, noted'.trans noted⟩

end

/-! ### The epoch start as a whole -/

/-- What an epoch start that closes `n` periods and takes the number `m` makes of `s`, in which nothing is pending. -/
structure State.Starts (n m : Nat) (inp : Inputs) (first : Bool) (s t : State) : Prop where
  closed : s.EpochClosed t n m (fun c => (s.ch c).drawAcc) s.sense.supplySum
  aged : s.EpochAged t m s.link.silence s.sched.listen
  counted : s.EpochCounted t inp.din first
  evaluated : s.EpochEvaluated t inp.charge
  decides : s.EpochDecides t inp.din
  duties : s.EpochDutiesLoaded t inp.din
  resolved : t.AllResolved
  cutEnds : s.SupplyCutEnds t inp.din
  markers : s.MarkersMoved t inp.din
  inputs : t.signal.inputs = inp.din
  pins : t.pins = { s.pins with charge := inp.charge }
  markPending : t.timer.markPending = s.timer.markPending
  status : s.link.muted = false → s.StatusHandedOver t
  markSlot : t.link.slots.mark = s.link.slots.mark
  behindMark : s.link.onLine = some .mark →
    t.link.heldAside = s.link.heldAside ∧ t.link.lineWithdrawn = s.link.lineWithdrawn
  frame : s.EpochFrame s t

theorem epochStart_starts (n : Nat) {m : Nat} (hm : m ≤ 255) (inp : Inputs) (ord : EpochOrder) {s : State}
    (inRange : s.configuration.InRange) (pending : ∀ c, (s.ch c).pendingTerm = none) (step : s.modulator.step = 0)
    (supply : s.sense.pendingSupply = none) : s.Starts n m inp ord.schedulerFirst (epochStart n m inp ord s) := by
  have ranges (c : Chan) : (s.cfg c).InRange := inRange.2 c
  have window (c : Chan) : 1 ≤ (s.cfg c).window := by
    obtain ⟨-, -, -, -, window, -⟩ := ranges c
    exact window
  have retry (c : Chan) : 1 ≤ (s.cfg c).retryBase := by
    obtain ⟨-, -, -, -, -, -, -, -, -, retry, -⟩ := ranges c
    exact retry
  have begun := begun_spec m inp.charge ord.schedulerFirst s
  rw [epochStart_eq]
  obtain ⟨r, D, K, ran⟩ := outsideParts_ran n inp.din ord (s.begun m inp.charge ord.schedulerFirst)
  generalize (outsideParts ord).foldl _ _ = t at ran ⊢
  have stood := ran.stood
  obtain ⟨markSlot, behindMark⟩ := ran.markStands
  exact {
    closed := ran.epochClosed pending step supply
    aged := ran.epochAged
    counted := ran.epochCounted retry window
    evaluated := stood.epochEvaluated begun ran.settled
    decides := ran.epochDecides hm retry
    duties := ran.dutiesLoaded retry window
    resolved := ran.allResolved
    cutEnds := ran.supplyCutEnds hm retry window
    markers := ran.markersMoved retry window pending
    inputs := stood.heeded.inputs (ran.taken .readInputs (by decide))
    pins := stood.keeps.pins.trans begun.pins
    markPending := by rw [stood.keeps.timer, begun.timer]
    status := ran.statusHandedOver
    markSlot, behindMark
    frame := ran.epochFrame }

end Sys2Proof.Machine


/-! The state in which an epoch start finds the part (R31, R35): that of the event, with the last period's terms added or dropped. -/

namespace Sys2Proof.Machine

/-- An epoch start begins in `t` as the event finds the part in `s`: `acc` and `sum` have been accumulated, nothing is pending, the step
counter is at 0; beyond that the link, the MARK pending, the listen count and the figures in use may have moved. -/
structure State.Opens (acc : Chan → Nat) (sum : Nat) (s t : State) : Prop where
  same : t = { s with
    channels := t.channels
    sense := { s.sense with supplySum := sum, pendingSupply := none }
    modulator := { s.modulator with step := 0 }
    timer := { s.timer with markPending := t.timer.markPending }
    link := t.link
    sched := { s.sched with listen := t.sched.listen }
    budget := { s.budget with inUse := t.budget.inUse } }
  ch : ∀ c, t.ch c = { s.ch c with drawAcc := acc c, pendingTerm := none }

section
variable {acc : Chan → Nat} {sum : Nat} {s o t : State} (h : s.Opens acc sum o)
include h

theorem State.Opens.loader : o.loader = s.loader := by rw [h.same]

theorem State.Opens.params : o.params = s.params := params_congr h.loader

theorem State.Opens.cfg (c : Chan) : o.cfg c = s.cfg c := cfg_congr h.loader c

theorem State.Opens.own : o.own = s.own := own_congr h.loader

theorem State.Opens.signal : o.signal = s.signal := by rw [h.same]

theorem State.Opens.ordinary : o.sched.ordinary = s.sched.ordinary := by rw [h.same]

theorem State.Opens.deferral : o.sched.deferral = s.sched.deferral := by rw [h.same]

theorem State.Opens.peer (p : Stn) : o.peer p = s.peer p := peer_congr (by rw [h.same]) p

theorem State.Opens.state (c : Chan) : (o.ch c).state = (s.ch c).state := by rw [h.ch]

theorem State.Opens.inputMoves (din : DinLevels) (c : Chan) : o.InputMoves din c ↔ s.InputMoves din c :=
  inputMoves_congr h.loader (by rw [h.signal]) (by rw [h.signal]) din

theorem State.Opens.closed {n m : Nat} (g : o.EpochClosed t n m (fun c => (o.ch c).drawAcc) o.sense.supplySum) :
    s.EpochClosed t n m acc sum := by
  obtain ⟨running, number, completed, modulator, channels, draws, rest⟩ := g
  refine ⟨?_, number, completed, ?_, fun c => ?_, draws, ?_⟩
  · rw [running, h.same]
  · rw [modulator, h.same]
  · have channel := channels c
    simp only [h.ch] at channel
    exact channel
  · rw [h.params, h.same] at rest
    exact rest

theorem State.Opens.aged {m silence listen : Nat} (g : o.EpochAged t m silence listen) : s.EpochAged t m silence listen := by
  obtain ⟨store, phase, peers, entries, rest⟩ := g
  refine ⟨?_, phase, fun p => ?_, ?_, rest⟩
  · rw [store, h.signal, h.params]
  · rw [peers, h.peer]
  · rw [entries, h.same]

theorem State.Opens.counted {din : DinLevels} {first : Bool} (g : o.EpochCounted t din first) : s.EpochCounted t din first := by
  unfold State.EpochCounted State.ChannelCounted at g ⊢
  simp only [h.params, h.loader, h.signal, h.cfg, h.ch, h.deferral, h.own, h.ordinary, State.SurgeSpan] at g ⊢
  exact g

theorem State.Opens.evaluated {charge : Bool} (g : o.EpochEvaluated t charge) : s.EpochEvaluated t charge := by
  have settle : o.budget.settle = s.budget.settle := by rw [h.same]
  unfold State.EpochEvaluated at g ⊢
  simp only [h.params, h.loader, h.own, h.peer, settle] at g ⊢
  exact g

theorem State.Opens.duties {din : DinLevels} (g : o.EpochDutiesLoaded t din) : s.EpochDutiesLoaded t din := by
  unfold State.EpochDutiesLoaded State.DutyLoaded at g ⊢
  simp only [h.inputMoves, h.ch] at g ⊢
  exact g

theorem State.Opens.markers {din : DinLevels} (g : o.MarkersMoved t din) : s.MarkersMoved t din := by
  unfold State.MarkersMoved at g ⊢
  simp only [h.cfg, h.signal, h.ch] at g ⊢
  exact g

theorem State.Opens.surgeSum (t : State) : o.SurgeSum t = s.SurgeSum t := by simp only [State.SurgeSum, h.cfg]

theorem State.Opens.ruled : o.AdmissionRuled ↔ s.AdmissionRuled := by
  have queue : o.sched.queue = s.sched.queue := by rw [h.same]
  have amount : o.sched.announceAmount = s.sched.announceAmount := by rw [h.same]
  unfold State.AdmissionRuled State.ClassZeroFree State.QueueRuled State.ClaimRuled State.AnnounceRuled
  simp only [h.cfg, h.state, h.ordinary, queue, amount, State.SurgeSum]

theorem State.Opens.cutRuled (g : s.CutRuled) : o.CutRuled := by
  obtain ⟨supply, isolate, cut⟩ := g
  have cuts : o.cuts = s.cuts := by rw [h.same]
  refine ⟨?_, fun loaded => ?_, fun c => ?_⟩
  · rw [h.same]
    exact supply
  · have pins : o.pins = s.pins := by rw [h.same]
    rw [cuts, pins]
    exact isolate (by rw [← isLoaded_congr h.loader, loaded])
  · rw [h.state, cuts]
    exact cut c

theorem State.Opens.cutEnds {din : DinLevels} (g : o.SupplyCutEnds t din) : s.SupplyCutEnds t din := by
  intro cut ruled low
  have cuts : o.cuts = s.cuts := by rw [h.same]
  have supply : o.sense.supply = s.sense.supply := by rw [h.same]
  have := g (h.cutRuled cut) (h.ruled.mpr ruled) (supply.trans low)
  simp only [h.cfg, h.signal, h.ch, h.surgeSum, cuts] at this
  exact this

theorem State.Opens.decides {din : DinLevels} (isolated : o.link.isolated = s.link.isolated) (g : o.EpochDecides t din) :
    s.EpochDecides t din := by
  have queue : o.sched.queue = s.sched.queue := by rw [h.same]
  unfold State.EpochDecides at g ⊢
  simp only [h.ruled, h.cfg, h.signal, h.ch, h.own, h.ordinary, queue, isolated] at g ⊢
  exact g

theorem State.Opens.status (isolated : o.link.isolated = s.link.isolated) (g : o.StatusHandedOver t) : s.StatusHandedOver t :=
  g.later {} rfl rfl rfl rfl rfl (fun is => isolated.trans is) id (fun d new => by rw [h.ch]; exact new) fun _ => id

end

end Sys2Proof.Machine


namespace Sys2Proof.Machine

section
variable (s : State)

/-- The fourth completion, its terms added and the own MARK queued (R31, R43). -/
theorem ownExpiry_opens (m : Nat) : s.Opens
    (fun c => (s.ch c).drawAcc + (match (s.ch c).pendingTerm with | some p => p.sample * p.duty | none => 0))
    (s.sense.supplySum + s.sense.pendingSupply.getD 0) (queueMark m ((addPending s).atStep 0)) := by
  have added : s.Opens (fun c => (s.ch c).drawAcc + (match (s.ch c).pendingTerm with | some p => p.sample * p.duty | none => 0))
      (s.sense.supplySum + s.sense.pendingSupply.getD 0) ((addPending s).atStep 0) := by
    refine ⟨?_, fun c => ?_⟩
    · simp only [addPending, State.mapCh, State.setSense, State.atStep]
    · cases pending : (s.ch c).pendingTerm <;> simp [addPending, pending]
  unfold queueMark
  split
  · exact added
  · obtain ⟨same, ch⟩ := added
    generalize (addPending s).atStep 0 = u at same ch
    refine ⟨?_, ch⟩
    rw [same]
    rfl

/-- The own MARK handed over and pending, unless the link is MUTED (R33). -/
theorem queueMark_mark (m : Nat) (u : State) :
    (u.link.muted = true → queueMark m u = u) ∧
    (u.link.muted = false → (queueMark m u).timer.markPending = true ∧
      if u.link.onLine = some .mark then (queueMark m u).link.heldAside = some (.mark m)
      else (queueMark m u).link.slots.mark = some (.mark m)) := by
  unfold queueMark
  refine ⟨fun muted => if_pos muted, fun heard => ?_⟩
  rw [if_neg (by simp [heard])]
  refine ⟨rfl, ?_⟩
  simp only [State.setTimer, State.handOver, State.setLink, LinkController.handOver, heard, LinkController.place, Frame.slot,
    Bool.false_eq_true, if_false]
  split <;> rfl

theorem queueMark_link (m : Nat) (u : State) : (queueMark m u).link.blank = u.link.blank := by
  unfold queueMark
  split
  · rfl
  · exact LinkController.handOver_blank _ _

theorem announceAgain_marks (u : State) : ∃ l, announceAgain u = { u with link := l } ∧ u.link.MarkStands l := by
  unfold announceAgain
  split
  · split
    · exact ⟨_, rfl, LinkController.handOver_markStands _ (by simp [Frame.slot])⟩
    · exact ⟨_, rfl, .refl _⟩
  · exact ⟨_, rfl, .refl _⟩

/-- A valid frame moves the link, the listen count and the figures in use, alone (R86, R93–R95). -/
theorem validFrame_moves : ∃ l k i, validFrame s = { s with
      link := l, sched := { s.sched with listen := k }, budget := { s.budget with inUse := i } } ∧
    l.onLine = s.link.onLine ∧ l.silence = 0 ∧ l.slots.mark = s.link.slots.mark := by
  have left (u : State) : ∃ l k i, leaveMuted u = { u with
      link := l, sched := { u.sched with listen := k }, budget := { u.budget with inUse := i } } ∧
      l.onLine = u.link.onLine ∧ l.silence = u.link.silence ∧ l.slots.mark = u.link.slots.mark := by
    obtain ⟨l, again, stands⟩ :=
      announceAgain_marks (u.setLink { u.link with muted := false, txErr := 0, good := 0 }).listenAgain.refreshInUse
    exact ⟨l, _, _, again, (LinkController.onLine_of_blank stands.blank :), (LinkController.silence_of_blank stands.blank :), stands.slot⟩
  have counted (u : State) : ∃ l k i, countGood u = { u with
      link := l, sched := { u.sched with listen := k }, budget := { u.budget with inUse := i } } ∧
      l.onLine = u.link.onLine ∧ l.silence = u.link.silence ∧ l.slots.mark = u.link.slots.mark := by
    unfold countGood
    split
    · split
      · exact left u
      · exact ⟨_, _, _, rfl, rfl, rfl, rfl⟩
    · exact ⟨_, _, _, rfl, rfl, rfl, rfl⟩
  simp only [validFrame]
  split
  · exact counted _
  · exact counted _

/-- The part of a MARK accepted: the own MARK withdrawn, the period abandoned (R27, R35). -/
theorem abandon_opens : s.Opens (fun c => (s.ch c).drawAcc) s.sense.supplySum (abandonPeriod (withdrawMark s)) := by
  have withdrawn : withdrawMark s = { s with timer := { s.timer with markPending := false }, link := (withdrawMark s).link } := by
    unfold withdrawMark
    split <;> rfl
  refine ⟨?_, fun c => ?_⟩
  · rw [withdrawn]
    simp only [abandonPeriod, dropPending, State.mapCh, State.setSense, State.atStep]
  · have kept : (withdrawMark s).ch c = s.ch c := ch_congr (by rw [withdrawn]) c
    simp [abandonPeriod, dropPending, kept]

/-- The own MARK is pending no longer, and is withdrawn where it was (R34, R35, R89). -/
theorem abandon_mark : (abandonPeriod (withdrawMark s)).timer.markPending = false ∧
    (abandonPeriod (withdrawMark s)).sched = s.sched ∧ (abandonPeriod (withdrawMark s)).pins = s.pins ∧
    (abandonPeriod (withdrawMark s)).link = if s.timer.markPending = true then s.link.withdraw .mark else s.link := by
  have abandoned (u : State) : (abandonPeriod u).timer = u.timer ∧ (abandonPeriod u).sched = u.sched ∧ (abandonPeriod u).pins = u.pins ∧
      (abandonPeriod u).link = u.link := by simp [abandonPeriod, dropPending]
  obtain ⟨timer, sched, pins, link⟩ := abandoned (withdrawMark s)
  rw [timer, sched, pins, link]
  unfold withdrawMark
  split <;> exact ⟨rfl, rfl, rfl, rfl⟩

theorem State.Opens.afterFrame {acc : Chan → Nat} {sum : Nat} {s u t : State} (h : u.Opens acc sum t)
    (moved : ∃ l k i, u = { s with link := l, sched := { s.sched with listen := k }, budget := { s.budget with inUse := i } }) :
    s.Opens acc sum t := by
  obtain ⟨l, k, i, rfl⟩ := moved
  exact ⟨h.same, h.ch⟩

end

section
variable {acc : Chan → Nat} {sum : Nat} {s o t : State} (h : s.Opens acc sum o)
include h

theorem State.Opens.frame {v : State} (link : o.link.blank = v.link.blank) (g : o.EpochFrame o t) : s.EpochFrame v t := by
  obtain ⟨linked, diag, isolate, loader, bindings⟩ := g
  refine ⟨LinkController.eq_of_blank ?_, ?_, ?_, loader.trans h.loader, ?_⟩
  · have same := congrArg (fun l : LinkController => { l with isolated := v.link.isolated, silence := v.link.silence }) link
    rw [linked]
    exact same
  · rw [diag, h.same]
  · rw [isolate, h.same]
  · rw [bindings, h.signal]

/-- The epoch start in the state it begins in. -/
theorem State.Opens.starts (n : Nat) {m : Nat} (hm : m ≤ 255) (inp : Inputs) (ord : EpochOrder) (inRange : s.configuration.InRange) :
    o.Starts n m inp ord.schedulerFirst (epochStart n m inp ord o) := by
  have same : o.configuration = s.configuration := by simp [State.configuration, h.loader]
  refine epochStart_starts n hm inp ord (same ▸ inRange) (fun c => by rw [h.ch]) ?_ ?_
  · rw [h.same]
  · rw [h.same]

end

end Sys2Proof.Machine

namespace Sys2Proof

open Machine

/-- Settles O13: the fourth completion adds its terms and queues the own MARK, and the epoch starts with all its parts. -/
theorem ownExpiryStartsTheNextEpoch : Obligations.OwnExpiryStartsTheNextEpoch := by
  intro s inp ord loaded inRange completed m
  have own : exec (.ownExpiry inp ord) s = .next (ownExpiry inp ord s) :=
    congrArg Host.Outcome.next ((whenLoaded_of_loaded loaded).trans (if_pos completed))
  have fourth : exec (.periodCompleted inp ord) s = .next (ownExpiry inp ord s) :=
    congrArg Host.Outcome.next ((whenLoaded_of_loaded loaded).trans (if_neg (by omega)))
  have opens := ownExpiry_opens s m
  have muted : s.link.muted = true → queueMark m ((addPending s).atStep 0) = (addPending s).atStep 0 :=
    (queueMark_mark m ((addPending s).atStep 0)).1
  have heard : s.link.muted = false → (queueMark m ((addPending s).atStep 0)).timer.markPending = true ∧
      if s.link.onLine = some .mark then (queueMark m ((addPending s).atStep 0)).link.heldAside = some (.mark m)
      else (queueMark m ((addPending s).atStep 0)).link.slots.mark = some (.mark m) := (queueMark_mark m ((addPending s).atStep 0)).2
  have link : (queueMark m ((addPending s).atStep 0)).link.blank = s.link.blank := queueMark_link m _
  have listen : (queueMark m ((addPending s).atStep 0)).sched.listen = s.sched.listen :=
    congrArg Scheduler.listen (queueMark_sched m _)
  have starts := opens.starts 4 (show m ≤ 255 by omega) inp ord inRange
  have begins : ownExpiry inp ord s = epochStart 4 m inp ord (queueMark m ((addPending s).atStep 0)) := rfl
  rw [own, fourth, begins]
  generalize epochStart 4 m inp ord (queueMark m ((addPending s).atStep 0)) = t at starts ⊢
  have unpended (is : s.link.muted = true) : (queueMark m ((addPending s).atStep 0)).timer.markPending = s.timer.markPending := by
    rw [muted is]
    rfl
  have pins : (queueMark m ((addPending s).atStep 0)).pins = s.pins := by rw [opens.same]
  generalize queueMark m ((addPending s).atStep 0) = o at opens heard link listen starts unpended pins
  have line := LinkController.onLine_of_blank link
  have silence := LinkController.silence_of_blank link
  have isolated : o.link.isolated = s.link.isolated := (congrArg LinkController.isolated link :)
  have unmuted : o.link.muted = s.link.muted := LinkController.muted_of_blank link
  refine ⟨t, rfl, rfl, opens.closed starts.closed, ?_, opens.counted starts.counted, opens.evaluated starts.evaluated,
    opens.decides isolated starts.decides, opens.duties starts.duties, starts.resolved, opens.cutEnds starts.cutEnds,
    opens.markers starts.markers, starts.inputs, by rw [starts.pins, pins], fun is => ?_, fun is => ⟨?_, ?_, ?_⟩, opens.frame link starts.frame⟩
  · have aged := opens.aged starts.aged
    rwa [silence, listen] at aged
  · rw [starts.markPending, unpended is]
  · rw [starts.markPending, (heard is).1]
  · exact opens.status isolated (starts.status (unmuted.trans is))
  · have placed := (heard is).2
    split
    next on =>
      rw [if_pos on] at placed
      rw [(starts.behindMark (line.trans on)).1, placed]
    next off =>
      rw [if_neg off] at placed
      rw [starts.markSlot, placed]

/-- Settles O14: the frame counts as a valid one, the own MARK is withdrawn and the period abandoned, and the epoch starts with all
its parts. -/
theorem aMarkAfterTheFirstPeriodIsFollowed : Obligations.AMarkAfterTheFirstPeriodIsFollowed := by
  intro s sender b inp ord loaded inRange other completed
  obtain ⟨l, k, i, counted, line, silence, slot⟩ := validFrame_moves s
  refine ⟨_, _, exec_kind7FrameReceived loaded sender, exec_markReceived loaded other b inp ord, ?_⟩
  generalize validFrame s = u at counted
  have link : u.link = l := by rw [counted]
  have timer : u.timer = s.timer := by rw [counted]
  rw [← link] at line silence slot
  have accepted : takeMark b.toNat inp ord u = epochStart s.timer.completed b.toNat inp ord (abandonPeriod (withdrawMark u)) := by
    rw [takeMark, if_pos (by rw [timer]; exact completed), acceptMark, timer]
  have channel (c : Chan) : u.ch c = s.ch c := ch_congr (by rw [counted]) c
  have sense : u.sense = s.sense := by rw [counted]
  have fromFrame := abandon_opens u
  have opens := fromFrame.afterFrame ⟨l, k, i, counted⟩
  simp only [channel, sense] at opens
  obtain ⟨unpended, sched, pins, linked⟩ := abandon_mark u
  have starts := opens.starts s.timer.completed (Nat.le_of_lt_succ b.isLt) inp ord inRange
  rw [accepted]
  generalize epochStart s.timer.completed b.toNat inp ord (abandonPeriod (withdrawMark u)) = t at starts ⊢
  generalize abandonPeriod (withdrawMark u) = o at fromFrame opens unpended sched pins linked starts
  have blank : o.link.blank = u.link.blank := by
    rw [linked]
    split
    · exact LinkController.withdraw_blank _ _
    · rfl
  have still := LinkController.onLine_of_blank blank
  have quiet := (LinkController.silence_of_blank blank).trans silence
  have isolated : o.link.isolated = u.link.isolated := (congrArg LinkController.isolated blank :)
  have unmuted : o.link.muted = u.link.muted := LinkController.muted_of_blank blank
  rw [timer] at linked
  refine ⟨opens.closed starts.closed, ?_, opens.counted starts.counted, starts.inputs, opens.evaluated starts.evaluated,
    fromFrame.decides isolated starts.decides, opens.duties starts.duties, starts.resolved, opens.cutEnds starts.cutEnds,
    opens.markers starts.markers, starts.markPending.trans unpended, fun is off => ?_, fun is on => ?_, fun is => ?_,
    fun is => fromFrame.status isolated (starts.status (unmuted.trans is)), opens.frame blank starts.frame, ?_⟩
  · have aged := opens.aged starts.aged
    rwa [quiet, sched] at aged
  · rw [starts.markSlot, linked, if_pos is, LinkController.withdraw_of_offLine (line ▸ off)]
    rfl
  · obtain ⟨held, noted⟩ := starts.behindMark (still.trans (line.trans on))
    rw [held, noted, linked, if_pos is, LinkController.withdraw_of_onLine (line.trans on)]
    exact ⟨rfl, rfl⟩
  · rw [starts.markSlot, linked, if_neg (by simp [is]), slot]
  · rw [starts.pins, pins, counted]

end Sys2Proof
